-- ==== Sys2Proof/Word.lean ====
section
/-! DEFINITION. The plain word types of the Arpent 7140 (spec/00_scope.md sections E and F, spec/12). -/

namespace Sys2Proof

/-- A byte of the control link, the management bus or the map store. -/
abbrev Byte := BitVec 8

/-- The 4096 data bytes of one block, the first byte most significant (spec/00 section E). -/
abbrev BlockData := BitVec 32768

/-- The 8 tag bytes of one block, the first byte most significant (spec/12 section D). -/
abbrev TagBits := BitVec 64

/-- A request tag: the 16-bit number that matches a request with its reply. -/
abbrev ReqTag := BitVec 16

end Sys2Proof
end

