-- ==== Sys2Proof/Config.lean ====
section
/-! DEFINITION. What the part fixes once and for all (the capacities of spec/00_scope.md section F and the limits that
the rules name), and the values that the spec leaves open. -/

namespace Sys2Proof.Config

/-! ## Fixed capacities (spec/00_scope.md section F, "Collections") -/

def maxHolds : Nat := 512
def maxDeferred : Nat := 64
def maxJobs : Nat := 1024
def laneCount : Nat := 4
def generalPages : Nat := 192
def recoveryFirstPage : Nat := 192
def maxSlabs : Nat := 16384
def ringEntries : Nat := 128
def journalRecords : Nat := 32
def storeBlocks : Nat := 64
def pagesPerBlock : Nat := 256
def maxDamage : Nat := 1024
def maxRequests : Nat := 32
def fifoBytes : Nat := 4096
def maxReplies : Nat := 96
def maxNotices : Nat := 32
def labelPlaces : Nat := 16
def labelArea : Nat := 2048
def shelfCount : Nat := 16

/-- The capacity table in its own order: the numbers that INQUIRE reports (R172). A capacity of two numbers
gives both, the first one first; sizes in KiB are given in bytes. -/
def capacities : List Nat :=
  [256, 64, 1024, 4, 4, 16384, 512, 64, 1024, 4, 256, 192, 64, 128, 32, 64, 1024, 32, 96, 4096, 96, 32, 16, 4096, 64]

/-- The largest value of a 32-bit counter (spec/00 section F, "Counters"). -/
def counterMax : Nat := 4294967295

/-- The largest journal sequence number (R148). -/
def sequenceMax : Nat := 4294967295

/-! ## Durations, in microseconds -/

def ms (n : Nat) : Nat := n * 1000
def seconds (n : Nat) : Nat := n * 1000000

/-! ## Free values: the spec names them and gives no value -/

/-- The vendor code that INQUIRE reports (R172 gives no value). -/
opaque vendorCode : Nat

/-- The part code that INQUIRE reports (R172 gives no value). -/
opaque partCode : Nat

/-- The revision that INQUIRE reports (R172 gives no value). -/
opaque revision : Nat

/-- Whether a remaining or elapsed time of so many microseconds, no whole number of ms, is reported rounded up
(R70, R100 and R144 report times "in ms" and do not say how they round). -/
opaque roundsUp : Nat → Bool

/-- A time in microseconds as it is reported in ms: exact where it is whole, else rounded in a way the spec leaves
open. -/
def reportedMs (t : Nat) : Nat :=
  if t % 1000 = 0 then t / 1000 else t / 1000 + (if roundsUp t then 1 else 0)

end Sys2Proof.Config
end

