-- ==== Sys2Proof/Syntax.lean ====
section
/-! DEFINITION. The commands of the block: one constructor for each row of spec/opcode_table.json.
The table gives no operand fields; an operand is what the outside world supplies at that event. A request's fields are not
operands: they stand as payload bytes in the request queue (R170), and the command names the request by its tag. -/

namespace Sys2Proof

/-- The status of a fabric end message (R126): the first failed DBN comes with MEDIA. -/
inductive EndStatus where
  | good
  | media (firstFailed : Nat)
  | noDevice
  deriving DecidableEq, Repr

/-- What a STATE_POLL transaction brought when it ended (R137, R138): no shelf acknowledged the address, or the bytes
that had arrived. -/
inductive PollAnswer where
  | noAck
  | bytes (answer : List Byte)
  deriving DecidableEq, Repr

inductive Instr where
  -- restart and the control link
  | coldReset
  | inboundFrame (bytes : List Byte)
  | frameByteTimeout
  | acceptRequest
  | outboundFrameSent
  -- requests, each taken by its owner
  | inquire (tag : ReqTag)
  | status (tag : ReqTag)
  | tableRead (tag : ReqTag)
  | setParam (tag : ReqTag)
  | noticeMask (tag : ReqTag)
  | faultRead (tag : ReqTag)
  | faultClear (tag : ReqTag)
  | reset (tag : ReqTag)
  | format (tag : ReqTag)
  | map (tag : ReqTag)
  | unhold (tag : ReqTag)
  | admitMember (tag : ReqTag)
  | releaseMember (tag : ReqTag)
  | failMember (tag : ReqTag)
  | defineSet (tag : ReqTag)
  | retireSet (tag : ReqTag)
  | createVolume (tag : ReqTag)
  | grow (tag : ReqTag)
  | rebalance (tag : ReqTag)
  | move (tag : ReqTag)
  | cancelJob (tag : ReqTag)
  | pauseJobs (tag : ReqTag)
  | resumeJobs (tag : ReqTag)
  | damageRead (tag : ReqTag)
  | damageClear (tag : ReqTag)
  -- messages of the drive fabric and the Drive Port's deadlines
  | readData (entry generation block : Nat) (data : BlockData) (blockTag : TagBits)
  | pull (entry generation block : Nat)
  | tags (entry generation block : Nat) (blockTag : TagBits)
  | endMessage (entry generation : Nat) (endStatus : EndStatus)
  | flushAnswer
  | flushRetry
  | commandTimeout (entry : Nat)
  -- the management bus
  | pollRoundStart
  | statePollEnd (answer : PollAnswer)
  | transactionLimit
  -- the map store
  | pageProgramEnd (success : Bool)
  | readBackEnd (page : List Byte)
  | storeOpTimeout
  | eraseEnd (success : Bool)
  -- deadlines of holds and deferrals, and the lanes
  | holdExpiry (hold : Nat)
  | quarantineEnd (hold : Nat)
  | deferralDeadline (tag : ReqTag)
  | laneClaim (lane : Nat)
  | rateWindow
  | backoffEnd (lane : Nat)
  -- start-up
  | journalScan (pages : List (Nat × List Byte))
  | firstRoundEnd
  | fixUps
  -- the rest of the receiver
  | inboundHeader (bytes : List Byte)
  | inboundFifoFull (byte : Byte)
  deriving DecidableEq, Repr

end Sys2Proof
end

