-- ==== Sys2Proof/WellFormed.lean ====
section
/-! DEFINITION. Which commands are well formed: every operand lies in the range that the spec gives it. -/

namespace Sys2Proof

/-- A command id of the drive link: ring entry 0 to 127 and generation 0 to 255 (R126). -/
def commandIdWf (entry generation : Nat) : Bool := decide (entry < 128) && decide (generation < 256)

/-- The status of an end message: a first failed DBN is a 48-bit DBN (R126, R127). -/
def EndStatus.wf : EndStatus → Bool
  | .media firstFailed => decide (firstFailed < 2 ^ 48)
  | .good => true
  | .noDevice => true

/-- An answer on the management bus has at most 114 bytes (R137). -/
def PollAnswer.wf : PollAnswer → Bool
  | .noAck => true
  | .bytes answer => decide (answer.length ≤ 114)

/-- Pages read by the scan: 256 bytes each (R146), page numbers below 64 × 256 in rising order. -/
def scanPagesWf : List (Nat × List Byte) → Bool
  | [] => true
  | [(n, bytes)] => decide (n < 16384) && decide (bytes.length = 256)
  | (n, bytes) :: (n', bytes') :: rest =>
    decide (n < n') && decide (bytes.length = 256) && scanPagesWf ((n', bytes') :: rest)

def Instr.wf : Instr → Bool
  | .coldReset => true
  | .inboundFrame bytes => !bytes.isEmpty
  | .frameByteTimeout => true
  | .acceptRequest => true
  | .outboundFrameSent => true
  | .inquire _ => true
  | .status _ => true
  | .tableRead _ => true
  | .setParam _ => true
  | .noticeMask _ => true
  | .faultRead _ => true
  | .faultClear _ => true
  | .reset _ => true
  | .format _ => true
  | .map _ => true
  | .unhold _ => true
  | .admitMember _ => true
  | .releaseMember _ => true
  | .failMember _ => true
  | .defineSet _ => true
  | .retireSet _ => true
  | .createVolume _ => true
  | .grow _ => true
  | .rebalance _ => true
  | .move _ => true
  | .cancelJob _ => true
  | .pauseJobs _ => true
  | .resumeJobs _ => true
  | .damageRead _ => true
  | .damageClear _ => true
  | .readData entry generation block _ _ => commandIdWf entry generation && decide (block < 64)
  | .pull entry generation block => commandIdWf entry generation && decide (block < 64)
  | .tags entry generation block _ => commandIdWf entry generation && decide (block < 64)
  | .endMessage entry generation endStatus => commandIdWf entry generation && endStatus.wf
  | .flushAnswer => true
  | .flushRetry => true
  | .commandTimeout entry => decide (entry < 128)
  | .pollRoundStart => true
  | .statePollEnd answer => answer.wf
  | .transactionLimit => true
  | .pageProgramEnd _ => true
  | .readBackEnd page => decide (page.length = 256)
  | .storeOpTimeout => true
  | .eraseEnd _ => true
  | .holdExpiry hold => decide (hold < 512)
  | .quarantineEnd hold => decide (hold < 512)
  | .deferralDeadline _ => true
  | .laneClaim lane => decide (lane < 4)
  | .rateWindow => true
  | .backoffEnd lane => decide (lane < 4)
  | .journalScan pages => scanPagesWf pages
  | .firstRoundEnd => true
  | .fixUps => true
  | .inboundHeader bytes => !bytes.isEmpty
  | .inboundFifoFull _ => true

end Sys2Proof
end

