-- ==== Sys2Proof/Machine/Types.lean ====
section
/-! DEFINITION. The kinds of data the part holds: entries of its tables, jobs and lanes, drive commands, records of the
journal, replies and notices. Plain data throughout. -/

namespace Sys2Proof.Machine

/-! ## Results, requests and their owners -/

/-- Result codes (spec/12 section F). -/
inductive Result where
  | ok | busy | badKind | badLength | badField | wrongState | noSpace | notFound | tooLate | dupTag | outOfRange
  | starting | journalDown | driveError
  deriving DecidableEq, Repr

/-- The request kinds (spec/12 section F). -/
inductive ReqKind where
  | inquire | status | tableRead | setParam | noticeMask | faultRead | faultClear | reset | map | format
  | joinMember | releaseMember | failMember | defineSet | retireSet | createVolume | grow | unhold | rebalance | move
  | cancelJob | pauseJobs | resumeJobs | damageRead | damageClear
  deriving DecidableEq, Repr

/-- The owners that take requests (R170). -/
inductive ReqOwner where
  | mp | pm | gu | me | dp | sm | jc | part
  deriving DecidableEq, Repr

/-- A complete frame of the control link (spec/12 section B), without its checks. -/
structure Frame where
  tag : ReqTag
  kind : Byte
  payload : List Byte
  deriving DecidableEq, Repr

/-- An accepted request in the request queue (R170); `taken` once its owner has begun it and it waits for a record. -/
structure Request where
  tag : ReqTag
  kind : ReqKind
  payload : List Byte
  taken : Bool
  deriving DecidableEq, Repr

/-- The receiver of the inbound line (R167): HUNTING, HEADER with the header bytes collected, PAYLOAD with the six header
bytes and the bytes collected after them. `discarding` is PAYLOAD of an overrun frame whose remaining bytes are
counted out (R168); `overrun` marks a header of a frame that has been rewound for want of room. -/
inductive Receiver where
  | hunting
  | header (got : List Byte) (overrun : Bool)
  | payload (header got : List Byte)
  | discarding (left : Nat)
  deriving DecidableEq, Repr

/-! ## The Placement Map's tables -/

/-- A placement: (set id, slot). -/
structure Place where
  set : Nat
  slot : Nat
  deriving DecidableEq, Repr

inductive MemberState where
  | absent | present | joining | available | active | failed
  deriving DecidableEq, Repr

/-- A band on a member's list (R1): the set it serves and its first DBN. -/
structure Band where
  set : Nat
  start : Nat
  deriving DecidableEq, Repr

/-- A Member Table entry (R1). Its error_run is the Drive Port's count and stands there (R135). -/
structure Member where
  state : MemberState
  capacity : Nat
  formatOk : Bool
  bands : List Band
  labelSeq : Option Nat
  deriving DecidableEq, Repr

inductive SetState where
  | unused | pending | online | degraded | failed
  deriving DecidableEq, Repr

/-- One position of a set (R5). -/
structure Position where
  member : Nat
  start : Nat
  deriving DecidableEq, Repr

/-- A Set Table entry (R5); its slot records stand in the slot table. -/
structure SetEntry where
  state : SetState
  width : Nat
  unit : Nat
  bandLength : Nat
  positions : List Position
  rows : Nat
  slots : Nat
  freeCount : Nat
  failedCount : Nat
  retiring : Bool
  deriving DecidableEq, Repr

inductive SlotState where
  | free | home | target | draining
  deriving DecidableEq, Repr

/-- A slot record (R9). -/
structure Slot where
  state : SlotState
  refs : Nat
  slab : Option Nat
  lane : Option Nat
  deriving DecidableEq, Repr

inductive VolumeState where
  | unused | online
  deriving DecidableEq, Repr

/-- A Volume Table entry (R14). -/
structure Volume where
  state : VolumeState
  base : Nat
  limit : Nat
  count : Nat
  ready : Nat
  pool : BitVec 64
  deriving DecidableEq, Repr

inductive SlabState where
  | unused | filling | live | moving | committing
  deriving DecidableEq, Repr

/-- A Slab Map entry (R16). `home` and `volume` carry no meaning in an UNUSED entry. `salvage` is the flag of the
slab's JOB_BEGIN, kept for a restart job (R149, R156). -/
structure Slab where
  state : SlabState
  volume : Nat
  home : Place
  target : Option Place
  front : Nat
  persisted : Nat
  mark : Bool
  salvage : Bool
  deriving DecidableEq, Repr

/-! ## Grants and holds -/

inductive Access where
  | read | write
  deriving DecidableEq, Repr

inductive HoldState where
  | free | live | expired
  deriving DecidableEq, Repr

/-- A Hold Table entry (R49). Times in microseconds, `lifetime` in ms. -/
structure Hold where
  state : HoldState
  generation : Nat
  volume : Nat
  first : Nat
  count : Nat
  slab : Nat
  access : Access
  home : Place
  target : Option Place
  lifetime : Nat
  deadline : Nat
  deriving DecidableEq, Repr

/-- A deferred MAP (R65). -/
structure Deferred where
  tag : ReqTag
  volume : Nat
  first : Nat
  count : Nat
  slab : Nat
  deadline : Nat
  deriving DecidableEq, Repr

/-- The Grant Unit's counters (R69). -/
structure GrantCounters where
  readGrants : Nat
  writeGrants : Nat
  mirroredGrants : Nat
  refusals : Nat
  deferrals : Nat
  deferralTimeouts : Nat
  deferralRefusals : Nat
  endsDone : Nat
  endsFailed : Nat
  expiries : Nat
  tooLateReplies : Nat
  notFoundReplies : Nat
  deriving DecidableEq, Repr

/-! ## Jobs, lanes and damage -/

inductive JobKind where
  | fill | move
  deriving DecidableEq, Repr

/-- Causes of an abort (R84) and of a removal at a claim (R74). -/
inductive AbortCause where
  | cancelled | targetDegraded | targetVerify | targetWrite | sourceFailed | noTarget
  deriving DecidableEq, Repr

/-- A job of the Move Queue (R71). -/
structure Job where
  kind : JobKind
  slab : Nat
  candidates : BitVec 64
  salvage : Bool
  resume : Option Nat
  retained : Option Place
  cause : Option AbortCause
  deriving DecidableEq, Repr

inductive LaneState where
  | idle | claiming | waitPages | waitToken | reading | recovering | writing | verifying | backoff | lockoutWait
  | finishing | aborting | paused
  deriving DecidableEq, Repr

/-- A watch (R95): the row and whether it is INTACT. -/
structure Watch where
  row : Nat
  intact : Bool
  deriving DecidableEq, Repr

inductive DamageCause where
  | found | sourceLost | salvage
  deriving DecidableEq, Repr

/-- A range of damaged blocks: an entry of the Damage List (R120), or damage noted with a row (R121). -/
structure Damage where
  volume : Nat
  first : Nat
  count : Nat
  cause : DamageCause
  deriving DecidableEq, Repr

/-- What a lane keeps of the row it is working on (R113 to R121). Source data units are named by their number within the
slab, that is offset divided by the source unit; target units by their position in the set. -/
structure RowWork where
  lost : List Nat
  rebuilding : Option Nat
  badUnits : List Nat
  parityBad : Bool
  unsettled : List Nat
  failedOnce : List Nat
  damage : List Damage
  again : Bool
  deriving DecidableEq, Repr

/-- A lane record (R73). The lane's pending record stands in the Journal Controller's room wait list, and the holder of
the recovery set in the Staging Pool. `commands` counts the commands handed over and not yet completed. -/
structure Lane where
  state : LaneState
  job : Option Job
  target : Option Place
  row : Nat
  pages : List Nat
  watch : Option Watch
  breaks : Nat
  lockout : Bool
  cause : Option AbortCause
  commands : Nat
  backoffEnd : Option Nat
  awaitedHolds : Nat
  beginQueued : Bool
  work : RowWork
  deriving DecidableEq, Repr

/-- The Move Engine's counters (R94, R107, R125). -/
structure MoveCounters where
  jobsAdmitted : Nat
  claims : Nat
  fillsEnded : Nat
  movesCommitted : Nat
  movesAborted : Nat
  jobsRemoved : Nat
  replacements : Nat
  rowsCopied : Nat
  watchBreaks : Nat
  lockouts : Nat
  reconstructions : Nat
  poisonedBlocks : Nat
  verifyRewrites : Nat
  damageOverflow : Nat
  deriving DecidableEq, Repr

/-! ## Blocks, drive commands and the drive link -/

/-- A block of staging memory or of the label buffer: 4096 data bytes and 8 tag bytes. -/
structure Block where
  data : BlockData
  tag : TagBits
  deriving DecidableEq, Repr

inductive DriveOp where
  | read | write | readTags
  deriving DecidableEq, Repr

/-- The owners of drive commands (R127). -/
inductive CmdOwner where
  | lane (n : Nat)
  | admission
  | startCheck
  deriving DecidableEq, Repr

/-- What a command is for, to its owner: a source run (R112), a read of a reconstruction (R114; `none` is the parity
unit), the write or the read-back of the unit at a position (R118), nothing any more since its unit has been skipped (R117), a
label (R32, R164). -/
inductive CmdUse where
  | run (unit : Nat)
  | rebuild (unit : Option Nat)
  | write (position : Nat)
  | verify (position : Nat)
  | skipped
  | label
  deriving DecidableEq, Repr

/-- Where a command's blocks stand: staging positions, one for each block, or a place of the label buffer. -/
inductive CmdPages where
  | staging (positions : List Nat)
  | label (place : Option Nat)
  deriving DecidableEq, Repr

/-- A drive command as its owner hands it over (R129). `labelBlock` is the block that a label WRITE carries. -/
structure Cmd where
  owner : CmdOwner
  use : CmdUse
  member : Nat
  op : DriveOp
  dbn : Nat
  count : Nat
  pages : CmdPages
  context : Option (Nat × Nat)
  labelBlock : Option Block
  deriving DecidableEq, Repr

/-- A ring entry (R127): ISSUED when it holds a command. -/
structure RingEntry where
  generation : Nat
  cmd : Option Cmd
  deadline : Nat
  received : BitVec 64
  mismatch : Bool
  deriving DecidableEq, Repr

/-- Statuses of completions (R126). -/
inductive CmdStatus where
  | good | media | noDevice | timeout | cancelled
  deriving DecidableEq, Repr

/-- A completion handed to its owner (R131), with the block read for a label. -/
structure Completion where
  cmd : Cmd
  status : CmdStatus
  firstFailed : Nat
  mismatch : Bool
  labelRead : Option Block
  deriving DecidableEq, Repr

/-- Messages that the part sends on the drive link (R126). -/
inductive FabricMsg where
  | command (entry generation member : Nat) (op : DriveOp) (dbn count : Nat)
  | cancel (entry generation : Nat)
  | flush
  | pullAnswer (entry generation block : Nat) (data : BlockData) (tag : TagBits)
  | pullRefused (entry generation : Nat)
  deriving DecidableEq, Repr

/-- The flush of a restart (R128): not sent yet, sent `tries` times with the last at `sentAt`, or answered. -/
inductive Flush where
  | unsent
  | waiting (tries sentAt : Nat)
  | answered
  deriving DecidableEq, Repr

/-- The Drive Port's counters (R136). -/
structure DriveCounters where
  issued : Nat
  timeouts : Nat
  late : Nat
  deriving DecidableEq, Repr

/-! ## Shelves -/

inductive ShelfState where
  | unseen | up | lost
  deriving DecidableEq, Repr

/-- A bay record (R137). -/
structure Bay where
  occupied : Bool
  ready : Bool
  formatOk : Bool
  capacity : Nat
  deriving DecidableEq, Repr

/-- A Shelf Table entry (R140); `faulted` is condition FAULTED. -/
structure Shelf where
  state : ShelfState
  misses : Nat
  faulted : Bool
  bays : List Bay
  lastGood : Option Nat
  deriving DecidableEq, Repr

/-- The Shelf Monitor's counters (R145). -/
structure ShelfCounters where
  polls : Nat
  unanswered : Nat
  badChecks : Nat
  shelvesLost : Nat
  bayChanges : Nat
  deriving DecidableEq, Repr

/-! ## The journal -/

/-- The parameters that the part holds (R174), ARRAY_ID among them though no SET_PARAM sets it. -/
inductive Param where
  | slabSize | arrayId | holdLife | driveTmo | pollPeriod | backoffBits | lockAfter | ckptRows | moveRate
  deriving DecidableEq, Repr

/-- The values of the eight settable parameters, in the units of SET_PARAM (R174, spec/12 section G). -/
structure Params where
  slabSize : Nat
  holdLife : Nat
  driveTmo : Nat
  pollPeriod : Nat
  backoffBits : Nat
  lockAfter : Nat
  ckptRows : Nat
  moveRate : Nat
  deriving DecidableEq, Repr

/-- The condition that a MEMBER record carries (R149). -/
inductive MemberCond where
  | admission (capacity : Nat) (formatOk : Bool)
  | available
  | active
  | failed
  | unadmitted
  deriving DecidableEq, Repr

/-- A placement of a growth: (global slab index, set id, slot). -/
structure Placement where
  slab : Nat
  place : Place
  deriving DecidableEq, Repr

/-- How many entries each image section has (R149, R156). -/
structure ImageCounts where
  members : Nat
  sets : Nat
  volumes : Nat
  slabs : Nat
  damage : Nat
  growth : Nat
  deriving DecidableEq, Repr

/-- The records of the journal (R149). -/
inductive RecordBody where
  | imageBegin (arrayId : BitVec 64) (params : Params) (bad : BitVec 64) (lost : Bool) (counts : ImageCounts)
  | imagePart (bytes : List Byte)
  | imageEnd (beginSeq parts : Nat)
  | param (p : Param) (value : Nat)
  | member (id : Nat) (cond : MemberCond)
  | setDefine (id unit bandLength : Nat) (positions : List Position)
  | setRetire (id : Nat)
  | volumeCreate (id base limit : Nat) (pool : BitVec 64)
  | growOpen (volume old new : Nat) (pool : BitVec 64)
  | growPart (placements : List Placement)
  | growClose (parts : Nat)
  | replace (slab : Nat) (home : Place)
  | jobBegin (slab : Nat) (target : Place) (salvage : Bool)
  | front (slab value : Nat)
  | jobEnd (slab : Nat) (kind : JobKind)
  | jobAbort (slab : Nat)
  | damageAdd (range : Damage)
  | damageClear (volume first count : Nat)
  | blockRetire (block : Nat)
  deriving DecidableEq, Repr

/-- Who queues a record. -/
inductive JOwner where
  | pm | gu | me | dp | sm | jc
  | lane (n : Nat)
  deriving DecidableEq, Repr

/-- A record that an owner has to enter, with the tag of the request that waits for it alone. -/
structure Work where
  body : RecordBody
  reply : Option ReqTag
  deriving DecidableEq, Repr

/-- A numbered record (R148). -/
structure Record where
  seq : Nat
  body : RecordBody
  owner : JOwner
  reply : Option ReqTag
  deriving DecidableEq, Repr

/-- Conditions of a store block (R154). -/
inductive BlockCond where
  | erased | head | written | awaiting | bad
  deriving DecidableEq, Repr

structure StoreBlock where
  cond : BlockCond
  failedPages : Nat
  deriving DecidableEq, Repr

/-- The store operation under way and when it began (R146). -/
inductive StoreOp where
  | scan (start : Nat)
  | program (start block page : Nat) (record : Record)
  | readBack (start block page : Nat) (record : Record)
  | erase (start block : Nat)
  deriving DecidableEq, Repr

inductive JournalState where
  | none | writing | compacting | frozen
  deriving DecidableEq, Repr

inductive FrozenCause where
  | fewBlocks | noErasedBlock | sequenceEnd
  deriving DecidableEq, Repr

/-- An open growth in the lasting state (R149): GROW_OPEN and the placements of each GROW_PART so far. -/
structure OpenGrowth where
  volume : Nat
  old : Nat
  new : Nat
  pool : BitVec 64
  parts : List (List Placement)
  deriving DecidableEq, Repr

/-- A set as the journal keeps it (R149). -/
structure SetDef where
  unit : Nat
  bandLength : Nat
  positions : List Position
  deriving DecidableEq, Repr

/-- The lasting state that a sequence of records defines (R149, R156). -/
structure Account where
  arrayId : BitVec 64
  params : Params
  bad : BitVec 64
  lost : Bool
  members : List (Nat × Member)
  sets : List (Nat × Option SetDef)
  volumes : List (Nat × Volume)
  slabs : List (Nat × Slab)
  damage : List Damage
  growth : Option OpenGrowth
  deriving DecidableEq, Repr

/-- The Journal Controller's counters (R161). -/
structure JournalCounters where
  durable : Nat
  programFailures : Nat
  eraseFailures : Nat
  retired : Nat
  compactions : Nat
  discarded : Nat
  deriving DecidableEq, Repr

/-- A FORMAT under way (R160): the request's tag, its ARRAY_ID, and whether the erasing has ended. -/
structure FormatWork where
  tag : ReqTag
  arrayId : BitVec 64
  erased : Bool
  deriving DecidableEq, Repr

/-! ## The part's states, notices, faults and replies -/

inductive BlankCause where
  | storeFault | fewBlocks
  deriving DecidableEq, Repr

/-- The part's states (spec/00 section G); BLANK has a cause or none (R163). -/
inductive PartState where
  | starting
  | blank (cause : Option BlankCause)
  | ready
  | frozen
  deriving DecidableEq, Repr

/-- How far a restart has come (spec/10): the scan, the first shelf round, the label checks; `service` when no stage of
a restart is under way. -/
inductive Stage where
  | scan | firstRound | labelChecks | service
  deriving DecidableEq, Repr

inductive FaultKind where
  | driveTimeout | driveNoDevice | driveMedia | tagCorrupt | verifyMismatch | storeProgram | storeErase | storeTimeout
  | linkFrame
  deriving DecidableEq, Repr

/-- What an offering block says of a fault (R175). -/
structure FaultOffer where
  kind : FaultKind
  member : Option Nat
  dbn : Option Nat
  lane : Option Nat
  slab : Option Nat
  row : Option Nat
  storeBlock : Option Nat
  deriving DecidableEq, Repr

/-- The capture that the fault record holds (R175). -/
structure Capture where
  offer : FaultOffer
  extra : Nat
  more : Bool
  deriving DecidableEq, Repr

/-- Notices with what they carry (R36, R48, R56, R74, R121, R141 to R143, R158, R163, R175). -/
inductive Notice where
  | partState (state : PartState)
  | shelfUp (address : Nat) (faulted : Bool) (present : Nat)
  | shelfLost (address present : Nat)
  | bayChange (member : Nat) (old new : Bay)
  | memberState (id : Nat) (old new : MemberState)
  | setState (id : Nat) (old new : SetState) (failedCount : Nat)
  | growReady (volume count : Nat)
  | jobAborted (volume volumeSlab slab : Nat) (kind : JobKind) (cause : AbortCause) (front : Nat)
  | jobsIdle
  | holdExpired (hold generation volume first count slab : Nat) (access : Access)
  | damageAdded (range : Damage) (dropped : Bool)
  | journalState (state : JournalState) (cause : Option FrozenCause)
  | fault (capture : Capture)
  deriving DecidableEq, Repr

/-- The Message Port's counters (R176). -/
structure LinkCounters where
  framesReceived : Nat
  headerErrors : Nat
  badFrames : Nat
  overruns : Nat
  accepted : Nat
  refused : Nat
  repliesSent : Nat
  noticesSent : Nat
  noticesLost : Nat
  deriving DecidableEq, Repr

/-- The fields of a granted MAP's reply (R54, spec/12 section C). -/
structure GrantReply where
  hold : Nat
  generation : Nat
  volume : Nat
  first : Nat
  count : Nat
  slab : Nat
  home : Place
  homeState : SetState
  target : Option (Place × SetState)
  lifetime : Nat
  deriving DecidableEq, Repr

/-- STATUS PART (R172). -/
structure PartStatus where
  state : PartState
  frozenCause : Option FrozenCause
  link : LinkCounters
  noticesLost : Bool
  fault : Option FaultKind
  grants : GrantCounters
  liveHolds : Nat
  expiredHolds : Nat
  deferred : Nat
  drive : DriveCounters
  ringIssued : Nat
  ringWaiting : Nat
  shelf : ShelfCounters
  deriving DecidableEq, Repr

/-- STATUS VOLUME (R172): the entry and the numbers of its slabs in FILLING, LIVE, MOVING and COMMITTING. -/
structure VolumeStatus where
  entry : Volume
  filling : Nat
  live : Nat
  moving : Nat
  committing : Nat
  deriving DecidableEq, Repr

/-- STATUS JOBS (R94, R107, R108, R111, R125). -/
structure JobsStatus where
  paused : Bool
  waitingFill : Nat
  waitingMove : Nat
  freePlaces : Nat
  tokens : Nat
  moveRate : Nat
  lanes : List LaneState
  counters : MoveCounters
  freePages : Nat
  pageWaiters : Nat
  recoveryHolder : Option Nat
  recoveryWaiters : Nat
  deriving DecidableEq, Repr

/-- STATUS JOURNAL (R161). In BLANK the state and cause are those of BLANK. -/
structure JournalStatus where
  state : JournalState
  frozenCause : Option FrozenCause
  blank : Option (Option BlankCause)
  head : Option (Nat × Nat)
  nextSeq : Nat
  queued : Nat
  waiting : Nat
  erased : Nat
  awaitingErase : Nat
  bad : Nat
  badBlocks : List Nat
  image : Option (Nat × Nat)
  counters : JournalCounters
  deriving DecidableEq, Repr

/-- TABLE_READ LANE (R73, R94, R95, R100, R108): the lane record with the views that other blocks hold, and the slab's
fronts. -/
structure LaneView where
  lane : Lane
  outstanding : Nat
  recoverySetHeld : Bool
  pending : Option RecordBody
  backoffLeft : Option Nat
  front : Nat
  persisted : Nat
  deriving DecidableEq, Repr

/-- What a reply carries after its result code. A reply that is not OK carries nothing more (R177). -/
inductive ReplyBody where
  | empty
  | inquire (vendor part revision : Nat) (capacities : List Nat)
  | statusPart (v : PartStatus)
  | statusVolume (v : VolumeStatus)
  | statusJobs (v : JobsStatus)
  | statusJournal (v : JournalStatus)
  | member (entry : Member) (errorRun : Nat)
  | set (entry : SetEntry)
  | slot (entry : Slot)
  | slab (entry : Slab)
  | hold (entry : Hold) (timeLeft : Option Nat)
  | job (entry : Job)
  | lane (entry : LaneView)
  | shelf (entry : Shelf) (sinceGood : Option Nat)
  | damage (entry : Damage)
  | mask (old : BitVec 13)
  | fault (capture : Option Capture)
  | grant (g : GrantReply)
  | labelSeq (seq : Nat)
  | setDefined (id rows slots : Nat)
  | mapBase (base : Nat)
  | grown (count ready : Nat)
  | rebalanced (jobs leftOut : Nat)
  | moved (slab : Nat)
  | damageList (entries : Nat) (lost : Bool) (overflow : Nat) (listed : List Damage)
  deriving DecidableEq, Repr

/-- A frame of the outbound queue (R171): a reply with its reply kind byte, or a notice. -/
inductive OutFrame where
  | reply (tag : ReqTag) (kind : Nat) (result : Result) (body : ReplyBody)
  | notice (n : Notice)
  deriving DecidableEq, Repr

/-! ## Work of the Placement Map that waits for records -/

/-- A growth waiting for its records (R45 to R47). -/
structure GrowWork where
  tag : ReqTag
  volume : Nat
  old : Nat
  new : Nat
  oldPool : BitVec 64
  homes : List Placement
  deriving DecidableEq, Repr

/-- The configuration request that has been accepted and not yet answered, with what undoes it (R27, R28). -/
inductive PmWork where
  | joining (tag : ReqTag) (member : Nat) (seq : Option Nat) (verified durable : Bool)
  | joinFailed (tag : ReqTag) (member : Nat)
  | releasing (tag : ReqTag) (member : Nat) (was : Member)
  | failing (tag : ReqTag) (member : Nat)
  | defining (tag : ReqTag) (set : Nat)
  | retiring (tag : ReqTag) (set : Nat)
  | creating (tag : ReqTag) (volume : Nat)
  | growing (work : GrowWork)
  | slabSize (tag : ReqTag)
  deriving DecidableEq, Repr

/-! ## Exchanges between the blocks within one step -/

/-- A report, question or completion on its way from one block to another, within one step. -/
inductive Internal where
  | freeze (cause : FrozenCause)
  | completed (c : Completion)
  | memberCause (member : Nat)
  | driveAppeared (member capacity : Nat) (formatOk : Bool)
  | driveGone (member : Nat)
  | setChanged (set : Nat) (new : SetState)
  | holdEnded (slab first count : Nat) (mirrored : Bool)
  | targetWrite (slab : Nat) (target : Place) (members : List Nat)
  | reevaluate (slab : Nat)
  | pagesGranted (lane : Nat)
  | rowStart (lane : Nat)
  | recoveryGranted (lane : Nat)
  | commitCheck (lane : Nat)
  | settleLost (lane : Nat)
  | rowAgain (lane : Nat)
  | recordQueued (r : Record)
  | recordDurable (r : Record)
  | roomServe
  | storeNext
  | recordDiscarded (r : Record)
  | recordUnmade (owner : JOwner) (w : Work)
  | laneFrozen (lane : Nat)
  | pmFrozen
  deriving DecidableEq, Repr

end Sys2Proof.Machine
end

