-- ==== Sys2Proof/Machine/State.lean ====
section
/-! DEFINITION. The state of the part: one structure for each block, the clock, the queue of commands, and the state right
after reset. Sparse tables list only the entries that differ from what an unlisted entry reads as. -/

namespace Sys2Proof.Machine

/-- Reasons for which the machine stops: none. The spec gives the part no event that stops it; a failure is a fault record,
a notice, a result code, BLANK or FROZEN, each a next state. Safe: nothing is raised. -/
inductive Fault where
  deriving DecidableEq, Repr

/-- Reasons for which a command has no meaning. -/
inductive Refusal where
  /-- A row of the opcode table that has no meaning yet. Raised by `exec` alone. Safe: nothing follows from it. -/
  | notModelled (mnemonic : String)
  deriving DecidableEq, Repr

/-- Time and the one register that time moves: microseconds since power-up (the model's own field) and the back-off shift
register of R99. -/
structure Clock where
  now : Nat
  lfsr : BitVec 16
  deriving DecidableEq, Repr

/-- The Message Port. Each open tag has one reply place reserved (R171). -/
structure MsgPort where
  receiver : Receiver
  lastByte : Nat
  fifo : List Frame
  requests : List Request
  openTags : List ReqTag
  outbound : List OutFrame
  mask : BitVec 13
  noticesLost : Bool
  fault : Option Capture
  counters : LinkCounters
  deriving DecidableEq, Repr

/-- The Placement Map. -/
structure PlacementMap where
  members : List (Nat × Member)
  sets : List (Nat × SetEntry)
  slots : List (Nat × Slot)
  volumes : List (Nat × Volume)
  slabs : List (Nat × Slab)
  slabSize : Nat
  arrayId : BitVec 64
  busy : Option PmWork
  held : List Nat
  checks : List Nat
  deriving DecidableEq, Repr

/-- The Grant Unit. `holdLife` in seconds. -/
structure GrantUnit where
  holds : List (Nat × Hold)
  freeOrder : List Nat
  deferred : List Deferred
  holdLife : Nat
  counters : GrantCounters
  deriving DecidableEq, Repr

/-- The Move Engine. `windowStart` is the beginning of the rate window in progress. -/
structure MoveEngine where
  jobs : List Job
  lanes : List (Nat × Lane)
  paused : Bool
  tokens : Nat
  tokenOrder : List Nat
  windowStart : Option Nat
  backoffBits : Nat
  lockAfter : Nat
  ckptRows : Nat
  moveRate : Nat
  damage : List Damage
  lost : Bool
  counters : MoveCounters
  deriving DecidableEq, Repr

/-- The Staging Pool: the staging memory by block position (page × 16 + index), the free general pages, the page wait list
with the counts asked for, and the recovery arbiter. -/
structure StagingPool where
  memory : List (Nat × Block)
  free : List Nat
  waiting : List (Nat × Nat)
  holder : Option Nat
  recoveryWait : List Nat
  deriving DecidableEq, Repr

/-- The Drive Port. `driveTmo` in seconds; `sent` lists the messages sent on the drive link, oldest first (the model's own
field). -/
structure DrivePort where
  ring : List (Nat × RingEntry)
  freeOrder : List Nat
  waiting : List Cmd
  labels : List (Nat × Block)
  labelFree : List Nat
  labelWait : List Cmd
  flush : Flush
  errorRuns : List (Nat × Nat)
  driveTmo : Nat
  counters : DriveCounters
  sent : List FabricMsg
  deriving DecidableEq, Repr

/-- The Shelf Monitor. `transaction` is (address, start) of the transaction in progress; `abandoned` says that a restart
left an exchange open on the bus. `pollPeriod` in ms. -/
structure ShelfMonitor where
  shelves : List (Nat × Shelf)
  roundStart : Option Nat
  transaction : Option (Nat × Nat)
  abandoned : Bool
  pollPeriod : Nat
  counters : ShelfCounters
  deriving DecidableEq, Repr

/-- The Journal Controller. `image` lists the image records still to be numbered and written, `imageRecord` is the one being
written, `imageStart` the sequence number and block of the IMAGE_BEGIN of the image in progress, `newestImage` those of
the newest complete image. `durable` is the lasting state that the durable records define (R156). -/
structure Journal where
  state : JournalState
  cause : Option FrozenCause
  blocks : List (Nat × StoreBlock)
  head : Option Nat
  nextPage : Nat
  nextSeq : Nat
  queue : List Record
  storePlace : List Record
  roomWait : List (JOwner × List Work)
  admission : Bool
  op : Option StoreOp
  imageBuilt : Bool
  image : List RecordBody
  imageRecord : Option Record
  imageStart : Option (Nat × Nat)
  newestImage : Option (Nat × Nat)
  durable : Account
  format : Option FormatWork
  counters : JournalCounters
  deriving DecidableEq, Repr

/-- The whole machine. -/
structure State where
  clock : Clock
  part : PartState
  stage : Stage
  draining : Bool
  mp : MsgPort
  pm : PlacementMap
  gu : GrantUnit
  me : MoveEngine
  sp : StagingPool
  dp : DrivePort
  sm : ShelfMonitor
  jc : Journal
  agenda : List Internal
  pending : List Instr
  deriving DecidableEq, Repr

/-! ## What unlisted entries read as -/

def Member.absent : Member := ⟨.absent, 0, false, [], none⟩
def SetEntry.unused : SetEntry := ⟨.unused, 0, 0, 0, [], 0, 0, 0, 0, false⟩
def Slot.free : Slot := ⟨.free, 0, none, none⟩
def Volume.unused : Volume := ⟨.unused, 0, 0, 0, 0, 0⟩
def Slab.unused : Slab := ⟨.unused, 0, ⟨0, 0⟩, none, 0, 0, false, false⟩
def Hold.free (generation : Nat) : Hold := ⟨.free, generation, 0, 0, 0, 0, .read, ⟨0, 0⟩, none, 0, 0⟩
def RowWork.none : RowWork := ⟨[], Option.none, [], false, [], [], [], false⟩
/-- A lane in IDLE: no job, target, pages, watch or lockout, and no break counted (R73, R98). R73 gives its row no value: it is 0
(DESIGN CHOICE, log 62). -/
def Lane.idle : Lane := ⟨.idle, none, none, 0, [], none, 0, false, none, 0, none, 0, false, .none⟩
def RingEntry.free (generation : Nat) : RingEntry := ⟨generation, none, 0, 0, false⟩
def Block.zero : Block := ⟨0, 0⟩
def Bay.cleared : Bay := ⟨false, false, false, 0⟩
def Shelf.unseen : Shelf := ⟨.unseen, 0, false, List.replicate 16 Bay.cleared, none⟩
def StoreBlock.written : StoreBlock := ⟨.written, 0⟩

/-- The settable parameters after FORMAT (R174). -/
def Params.afterFormat : Params := ⟨4, 10, 8, 250, 10, 8, 64, 0⟩

/-- The lasting state of a fresh store: nothing but the parameters after FORMAT. -/
def Account.fresh : Account :=
  { arrayId := 0, params := .afterFormat, bad := 0, lost := false, members := [], sets := [], volumes := [], slabs := [],
    damage := [], growth := none }

/-! ## Reset -/

def MsgPort.reset : MsgPort :=
  { receiver := .hunting, lastByte := 0, fifo := [], requests := [], openTags := [], outbound := [],
    mask := BitVec.allOnes 13, noticesLost := false, fault := none, counters := ⟨0, 0, 0, 0, 0, 0, 0, 0, 0⟩ }

def PlacementMap.reset : PlacementMap :=
  { members := [], sets := [], slots := [], volumes := [], slabs := [], slabSize := Params.afterFormat.slabSize,
    arrayId := 0, busy := none, held := [], checks := [] }

def GrantUnit.reset : GrantUnit :=
  { holds := [], freeOrder := List.range 512, deferred := [], holdLife := Params.afterFormat.holdLife,
    counters := ⟨0, 0, 0, 0, 0, 0, 0, 0, 0, 0, 0, 0⟩ }

def MoveEngine.reset : MoveEngine :=
  { jobs := [], lanes := [], paused := false, tokens := 0, tokenOrder := [], windowStart := none,
    backoffBits := Params.afterFormat.backoffBits, lockAfter := Params.afterFormat.lockAfter,
    ckptRows := Params.afterFormat.ckptRows, moveRate := Params.afterFormat.moveRate, damage := [], lost := false,
    counters := ⟨0, 0, 0, 0, 0, 0, 0, 0, 0, 0, 0, 0, 0, 0⟩ }

def StagingPool.reset : StagingPool :=
  { memory := [], free := List.range 192, waiting := [], holder := none, recoveryWait := [] }

def DrivePort.reset : DrivePort :=
  { ring := [], freeOrder := List.range 128, waiting := [], labels := [], labelFree := List.range 16, labelWait := [],
    flush := .unsent, errorRuns := [], driveTmo := Params.afterFormat.driveTmo, counters := ⟨0, 0, 0⟩, sent := [] }

def ShelfMonitor.reset : ShelfMonitor :=
  { shelves := [], roundStart := none, transaction := none, abandoned := false,
    pollPeriod := Params.afterFormat.pollPeriod, counters := ⟨0, 0, 0, 0, 0⟩ }

def Journal.reset (now : Nat) : Journal :=
  { state := .none, cause := none, blocks := [], head := none, nextPage := 0, nextSeq := 0, queue := [],
    storePlace := [], roomWait := [], admission := true, op := some (.scan now), imageBuilt := false, image := [],
    imageRecord := none, imageStart := none, newestImage := none, durable := .fresh, format := none,
    counters := ⟨0, 0, 0, 0, 0, 0⟩ }

/-- The machine right after a cold reset: STARTING, with the journal scan begun (R162, R163). -/
def State.reset : State :=
  { clock := ⟨0, 1⟩, part := .starting, stage := .scan, draining := false, mp := .reset, pm := .reset, gu := .reset,
    me := .reset, sp := .reset, dp := .reset, sm := .reset, jc := .reset 0, agenda := [], pending := [] }

end Sys2Proof.Machine
end

