-- ==== Sys2Proof/Machine/Tables.lean ====
section
/-! DEFINITION. Sparse tables in one canonical form: keys strictly rising, and no entry equal to what an unlisted key reads as.
The staging memory is such a table of blocks. -/

namespace Sys2Proof.Machine

/-- What a key of a sparse table holds; `dflt` is what an unlisted key reads as. -/
def tableRead {α : Type} (dflt : α) : List (Nat × α) → Nat → α
  | [], _ => dflt
  | (j, v) :: rest, k => if j = k then v else tableRead dflt rest k

/-- Take a key out of a table. -/
def tableErase {α : Type} : List (Nat × α) → Nat → List (Nat × α)
  | [], _ => []
  | (j, v) :: rest, k => if j = k then tableErase rest k else (j, v) :: tableErase rest k

/-- Put a key that is not listed at its place in the order. -/
def tableInsert {α : Type} : List (Nat × α) → Nat → α → List (Nat × α)
  | [], k, v => [(k, v)]
  | (j, w) :: rest, k, v => if k < j then (k, v) :: (j, w) :: rest else (j, w) :: tableInsert rest k v

/-- Write a key; writing what an unlisted key reads as removes the entry, so that equal tables are equal lists. -/
def tableWrite {α : Type} [DecidableEq α] (dflt : α) (t : List (Nat × α)) (k : Nat) (v : α) : List (Nat × α) :=
  if v = dflt then tableErase t k else tableInsert (tableErase t k) k v

/-- The canonical form from a lower bound on: every key at least `low`, keys strictly rising, no default entry. -/
def tableWfFrom {α : Type} [DecidableEq α] (dflt : α) : Nat → List (Nat × α) → Bool
  | _, [] => true
  | low, (j, v) :: rest => decide (low ≤ j) && decide (v ≠ dflt) && tableWfFrom dflt (j + 1) rest

/-- The canonical form of a table. -/
def tableWf {α : Type} [DecidableEq α] (dflt : α) (t : List (Nat × α)) : Bool := tableWfFrom dflt 0 t

/-- The entries listed, by value. -/
def tableCount {α : Type} (p : α → Bool) (t : List (Nat × α)) : Nat := (t.filter (fun e => p e.2)).length

/-! ## Staging memory (R108), by block position -/

/-- The staging memory is in its canonical form. -/
def Memory.wf (m : List (Nat × Block)) : Bool := tableWf Block.zero m

/-- The block at a position. A block that nothing has written reads as zeros (DESIGN CHOICE, log 5). -/
def Memory.read (m : List (Nat × Block)) (position : Nat) : Block := tableRead Block.zero m position

def Memory.write (m : List (Nat × Block)) (position : Nat) (b : Block) : List (Nat × Block) :=
  tableWrite Block.zero m position b

/-! ## List helpers -/

/-- Remove the first element equal to `a`. -/
def removeFirst {α : Type} [DecidableEq α] (a : α) : List α → List α
  | [] => []
  | b :: rest => if b = a then rest else b :: removeFirst a rest

/-- Insert a number into a rising list, once. -/
def insertRising (n : Nat) : List Nat → List Nat
  | [] => [n]
  | m :: rest => if n < m then n :: m :: rest else if n = m then m :: rest else m :: insertRising n rest

/-- Apply a step for each element of a list, in order. -/
def forEach {α σ : Type} (f : α → σ → σ) : List α → σ → σ
  | [], s => s
  | a :: rest, s => forEach f rest (f a s)

end Sys2Proof.Machine
end

