-- ==== Sys2Proof/Machine/Checks.lean ====
section
/-! DEFINITION. Byte order and check codes: multi-byte fields, the guard of a block (R24), the CRC-32 of frames and journal
pages (R147, R167), block tags (R23, spec/12 section D) and the outcome of a tag check. -/

namespace Sys2Proof.Machine

/-! ## Bytes, most significant first (spec/00 section F) -/

/-- The number that a list of bytes spells, the first byte most significant. -/
def beNat (bytes : List Byte) : Nat := bytes.foldl (fun n b => n * 256 + b.toNat) 0

/-- `n` bytes of a value, most significant first. -/
def beBytes : Nat → Nat → List Byte
  | 0, _ => []
  | n + 1, v => BitVec.ofNat 8 (v / 256 ^ n) :: beBytes n v

/-- The byte at an offset, as a number; 0 beyond the end. -/
def byteAt (bytes : List Byte) (i : Nat) : Nat := (bytes.getD i 0).toNat

/-- The `n`-byte field at an offset. -/
def fieldAt (bytes : List Byte) (i n : Nat) : Nat := beNat ((bytes.drop i).take n)

/-- The ones' complement of the modulo-256 sum of some bytes (R137, R167). -/
def complementSum (bytes : List Byte) : Byte := ~~~ (bytes.foldl (fun a b => a + b) 0#8)

/-! ## The guard of a block (R24) -/

/-- One bit of the 16-bit check: polynomial x^16 + x^12 + x^5 + 1, most significant bit first. -/
def guardStep (crc : Nat) (bit : Bool) : Nat :=
  let shifted := (crc * 2) % 65536
  if crc.testBit 15 != bit then shifted ^^^ 0x1021 else shifted

/-- The check over the lowest `n` bits of `d`, from the highest of them down. -/
def guardLoop (d : Nat) : Nat → Nat → Nat
  | 0, crc => crc
  | n + 1, crc => guardLoop d n (guardStep crc (d.testBit n))

/-- The guard of a block's 4096 data bytes (R24): initial value all ones, no final inversion. -/
def guardOf (data : BlockData) : BitVec 16 := BitVec.ofNat 16 (guardLoop data.toNat 32768 0xFFFF)

/-! ## CRC-32 (R147): least significant bit first, initial value all ones, result complemented -/

def crc32Bits : Nat → Nat → Nat
  | 0, crc => crc
  | n + 1, crc => crc32Bits n (if crc.testBit 0 then (crc / 2) ^^^ 0xEDB88320 else crc / 2)

def crc32Step (crc : Nat) (b : Byte) : Nat := crc32Bits 8 (crc ^^^ b.toNat)

def crc32 (bytes : List Byte) : Nat := (bytes.foldl crc32Step 0xFFFFFFFF) ^^^ 0xFFFFFFFF

/-! ## Block tags (R23, spec/12 section D) -/

inductive TagKind where
  | data | parity | pad | label
  deriving DecidableEq, Repr

def TagKind.code : TagKind → BitVec 4
  | .data => 0
  | .parity => 1
  | .pad => 2
  | .label => 3

/-- The part of a tag that follows from where the block lies: kind, owner and reference. -/
structure TagPlace where
  kind : TagKind
  owner : Nat
  ref : Nat
  deriving DecidableEq, Repr

/-- The 8 tag bytes: guard, kind and owner, reference (spec/12 section D). -/
def tagBits (guard : BitVec 16) (p : TagPlace) : TagBits :=
  guard ++ p.kind.code ++ BitVec.ofNat 12 p.owner ++ BitVec.ofNat 32 p.ref

/-- Outcomes of a tag check (R24). -/
inductive TagOutcome where
  | good | poisoned | corrupt
  deriving DecidableEq, Repr

/-- The check of a block's tag against the expected kind, owner and reference (R24). -/
def checkTag (b : Block) (p : TagPlace) : TagOutcome :=
  let guard := guardOf b.data
  if b.tag = tagBits guard p then .good else if b.tag = tagBits (~~~ guard) p then .poisoned else .corrupt

/-- A block with the correct tag of its place. -/
def taggedBlock (data : BlockData) (p : TagPlace) : Block := ⟨data, tagBits (guardOf data) p⟩

/-- A block of poison as the part makes it: zero data, the guard complemented (R24, R116). -/
def poisonBlock (p : TagPlace) : Block := ⟨0, tagBits (~~~ (guardOf 0)) p⟩

/-! ## The member label (R3, spec/12 section D) -/

/-- The 4096 data bytes of a label: ARRAY_ID at 0, member id at 8, label_seq at 12, the rest zero. -/
def labelData (arrayId : BitVec 64) (member seq : Nat) : BlockData :=
  (arrayId ++ BitVec.ofNat 8 member ++ 0#24 ++ BitVec.ofNat 32 seq : BitVec 128) ++ (0#32640)

/-- The tag place of a label: kind LABEL, owner the member id, reference 0. -/
def labelPlace (member : Nat) : TagPlace := ⟨.label, member, 0⟩

/-- Whether a block read is a label that agrees (R3): its tag checks GOOD and its three fields are as expected. The bytes
marked zero are not among the three fields. -/
def labelAgrees (b : Block) (arrayId : BitVec 64) (member seq : Nat) : Bool :=
  decide (checkTag b (labelPlace member) = .good)
    && decide (b.data.extractLsb' (32768 - 64) 64 = arrayId)
    && decide ((b.data.extractLsb' (32768 - 72) 8).toNat = member)
    && decide ((b.data.extractLsb' (32768 - 128) 32).toNat = seq)

end Sys2Proof.Machine
end

