-- ==== Sys2Proof/Machine/Geometry.lean ====
section
/-! DEFINITION. The geometry of sets and slabs: R6, R20, R21, R22, R23, and the overlap test of R52. -/

namespace Sys2Proof.Machine

/-- The slab size S in blocks (R19): SLAB_SIZE is in GiB, a block is 4096 bytes. -/
def slabBlocks (slabSize : Nat) : Nat := slabSize * 262144

/-- The row span d·u (R6). -/
def rowSpan (width unit : Nat) : Nat := (width - 1) * unit

/-- The rows per slot R = ceil(S / (d·u)) (R6). -/
def rowsPerSlot (s width unit : Nat) : Nat := (s + rowSpan width unit - 1) / rowSpan width unit

/-- The slot count N = min(1024, floor(B / (R·u))) (R6). -/
def slotCount (s width unit bandLength : Nat) : Nat := min 1024 (bandLength / (rowsPerSlot s width unit * unit))

/-- The parity position of a row: p = (w − 1) − (r mod w) (R21). -/
def parityPosition (width row : Nat) : Nat := (width - 1) - row % width

/-- The position of data unit j of a row (R21). -/
def dataPosition (width row j : Nat) : Nat := if j < parityPosition width row then j else j + 1

/-- What stands at a position in a row: the parity unit, or a data unit (R21). -/
def unitAt (width row position : Nat) : Option Nat :=
  let p := parityPosition width row
  if position = p then none else if position < p then some position else some (position - 1)

/-- The member and first block of the unit at a position of a row of a slot (R21). -/
def unitBlocks (e : SetEntry) (slot row position : Nat) : Nat × Nat :=
  let pos := e.positions.getD position ⟨0, 0⟩
  (pos.member, pos.start + slot * e.rows * e.unit + row * e.unit)

/-- The number of pages that a row takes: (d + 1)·(u / 16) (R6, R108). -/
def rowPages (e : SetEntry) : Nat := e.width * (e.unit / 16)

/-- The member block of an offset within a slab: member id and DBN (R21). -/
def memberBlock (e : SetEntry) (slot offset : Nat) : Nat × Nat :=
  let span := rowSpan e.width e.unit
  let row := offset / span
  let within := offset - row * span
  let j := within / e.unit
  let start := unitBlocks e slot row (dataPosition e.width row j)
  (start.1, start.2 + within % e.unit)

/-- A range of offsets shares an offset with row r of a geometry (R52). -/
def overlapsRow (width unit row first last : Nat) : Bool :=
  decide (first + 1 ≤ (row + 1) * rowSpan width unit) && decide (row * rowSpan width unit ≤ last)

/-- The tag place of the data block at an offset of a slab (R22, R23): DATA below S, PAD at or beyond S. -/
def dataTagPlace (s volume volumeSlab rows offset : Nat) : TagPlace :=
  if offset < s then ⟨.data, volume, (volumeSlab * s + offset) % 4294967296⟩ else ⟨.pad, volume, rows - 1⟩

/-- The tag place of a block of a row's parity unit (R23). -/
def parityTagPlace (set row : Nat) : TagPlace := ⟨.parity, set, row⟩

/-- The source runs of a range of offsets: cut at every boundary of a source unit (R112). Each is (first offset, count);
`n` bounds the number of runs. -/
def sourceRuns (unit : Nat) : Nat → Nat → Nat → List (Nat × Nat)
  | 0, _, _ => []
  | n + 1, first, stop =>
    if first < stop then
      let next := min stop ((first / unit + 1) * unit)
      (first, next - first) :: sourceRuns unit n next stop
    else []

end Sys2Proof.Machine
end

