-- ==== Sys2Proof/Machine/DamageList.lean ====
section
/-! DEFINITION. The Damage List's own operations: adding a range (R121), removing a range (R124), and which blocks it covers. -/

namespace Sys2Proof.Machine

/-- The end of a range: the first VLB beyond it. -/
def Damage.stop (d : Damage) : Nat := d.first + d.count

/-- The parts of a range of a volume that no entry covers, in ascending order, each as (first, stop) (R121). -/
def uncovered (volume : Nat) : List Damage → Nat → Nat → List (Nat × Nat)
  | [], first, stop => if first < stop then [(first, stop)] else []
  | e :: rest, first, stop =>
    if e.volume = volume then
      (if first < min e.first stop then [(first, min e.first stop)] else [])
        ++ uncovered volume rest (max first e.stop) stop
    else uncovered volume rest first stop

/-- Put an entry at its place: ordered by volume and, within a volume, by first VLB (R120). -/
def damageInsert (d : Damage) : List Damage → List Damage
  | [] => [d]
  | e :: rest =>
    if d.volume < e.volume ∨ (d.volume = e.volume ∧ d.first < e.first) then d :: e :: rest else e :: damageInsert d rest

/-- The largest count of an entry (R120). -/
def maxDamageCount : Nat := 4294967295

/-- Add one uncovered part: merged with the entries of its volume and cause that touch it, else a new entry if there is
room, else dropped (R121). The second component says whether it was dropped. A merge that would exceed the largest count (R120) is
not made: a neighbour with which the part alone would exceed it is passed over, and of two that would each do, but not together, the
left one is taken (DESIGN CHOICE, log 9). -/
def addPart (volume : Nat) (cause : DamageCause) (first stop : Nat) (l : List Damage) : List Damage × Bool :=
  let left := l.find? (fun e => e.volume = volume && e.cause = cause && e.stop = first && stop - e.first ≤ maxDamageCount)
  let right := l.find? (fun e => e.volume = volume && e.cause = cause && e.first = stop && e.stop - first ≤ maxDamageCount)
  match left, right with
  | some a, some b =>
    if b.stop - a.first ≤ maxDamageCount then
      (damageInsert ⟨volume, a.first, b.stop - a.first, cause⟩ (removeFirst b (removeFirst a l)), false)
    else (damageInsert ⟨volume, a.first, stop - a.first, cause⟩ (removeFirst a l), false)
  | some a, none => (damageInsert ⟨volume, a.first, stop - a.first, cause⟩ (removeFirst a l), false)
  | none, some b => (damageInsert ⟨volume, first, b.stop - first, cause⟩ (removeFirst b l), false)
  | none, none =>
    if l.length < Config.maxDamage then (damageInsert ⟨volume, first, stop - first, cause⟩ l, false) else (l, true)

/-- Add uncovered parts in ascending order; the second component counts the parts dropped. -/
def addParts (volume : Nat) (cause : DamageCause) : List (Nat × Nat) → List Damage → List Damage × Nat
  | [], l => (l, 0)
  | (first, stop) :: rest, l =>
    let one := addPart volume cause first stop l
    let more := addParts volume cause rest one.1
    (more.1, more.2 + (if one.2 then 1 else 0))

/-- Add a range to the Damage List (R121): the new list, and how many parts were dropped. -/
def damageAdd (d : Damage) (l : List Damage) : List Damage × Nat :=
  addParts d.volume d.cause (uncovered d.volume l d.first d.stop) l

/-- What is left of an entry when a range of a volume is removed (R124). -/
def damageCut (volume first stop : Nat) (e : Damage) : List Damage :=
  if e.volume = volume ∧ e.first < stop ∧ first < e.stop then
    (if e.first < first then [{ e with count := first - e.first }] else [])
      ++ (if stop < e.stop then [{ e with first := stop, count := e.stop - stop }] else [])
  else [e]

/-- Remove a range of a volume from the Damage List (R124). -/
def damageRemove (volume first count : Nat) (l : List Damage) : List Damage :=
  l.flatMap (damageCut volume first (first + count))

/-- Whether an entry of the volume overlaps the range. -/
def damageTouches (volume first count : Nat) (l : List Damage) : Bool :=
  l.any (fun e => decide (e.volume = volume) && decide (e.first < first + count) && decide (first < e.stop))

/-- Whether removing the range splits an entry in two (R124). -/
def damageSplits (volume first count : Nat) (l : List Damage) : Bool :=
  l.any (fun e => decide (e.volume = volume) && decide (e.first < first) && decide (first + count < e.stop))

/-- Whether a block of a volume lies within an entry (R114). -/
def damageCovers (volume vlb : Nat) (l : List Damage) : Bool := damageTouches volume vlb 1 l

end Sys2Proof.Machine
end

