-- ==== Sys2Proof/Machine/Records.lean ====
section
/-! DEFINITION. Journal records: their pages (R147, spec/12 section E), their payloads, the lasting state they define (R149), and
the image of that state (R156). The spec gives the byte layout of the page header and of GROW_PART placements; the other
payloads' layouts are the model's, with the entry sizes of R156 (DESIGN CHOICE, log 10). -/

namespace Sys2Proof.Machine

/-! ## Codes -/

def Param.code : Param → Nat
  | .slabSize => 0
  | .arrayId => 1
  | .holdLife => 2
  | .driveTmo => 3
  | .pollPeriod => 4
  | .backoffBits => 5
  | .lockAfter => 6
  | .ckptRows => 7
  | .moveRate => 8

def Param.ofCode : Nat → Option Param
  | 0 => some .slabSize
  | 1 => some .arrayId
  | 2 => some .holdLife
  | 3 => some .driveTmo
  | 4 => some .pollPeriod
  | 5 => some .backoffBits
  | 6 => some .lockAfter
  | 7 => some .ckptRows
  | 8 => some .moveRate
  | _ => none

/-- The record kinds' values (spec/12 section E). -/
def RecordBody.kind : RecordBody → Nat
  | .imageBegin .. => 0x01
  | .imagePart .. => 0x02
  | .imageEnd .. => 0x03
  | .param .. => 0x10
  | .member .. => 0x11
  | .setDefine .. => 0x12
  | .setRetire .. => 0x13
  | .volumeCreate .. => 0x14
  | .growOpen .. => 0x20
  | .growPart .. => 0x21
  | .growClose .. => 0x22
  | .replace .. => 0x23
  | .jobBegin .. => 0x30
  | .front .. => 0x31
  | .jobEnd .. => 0x32
  | .jobAbort .. => 0x33
  | .damageAdd .. => 0x40
  | .damageClear .. => 0x41
  | .blockRetire .. => 0x50

def boolByte (b : Bool) : List Byte := [if b then 1 else 0]

def placeBytes (p : Place) : List Byte := beBytes 1 p.set ++ beBytes 2 p.slot

def placeAt (bytes : List Byte) (i : Nat) : Place := ⟨byteAt bytes i, fieldAt bytes (i + 1) 2⟩

def positionBytes (p : Position) : List Byte := beBytes 1 p.member ++ beBytes 6 p.start

/-- Positions of 7 bytes each, `n` of them from an offset on. -/
def positionsAt (bytes : List Byte) : Nat → Nat → List Position
  | _, 0 => []
  | i, n + 1 => ⟨byteAt bytes i, fieldAt bytes (i + 1) 6⟩ :: positionsAt bytes (i + 7) n

/-- A GROW_PART placement of 4 bytes: bits 29 to 16 slab, 15 to 10 set, 9 to 0 slot (spec/12 section E). -/
def placementBytes (p : Placement) : List Byte :=
  beBytes 4 ((p.slab % 16384) * 65536 + (p.place.set % 64) * 1024 + p.place.slot % 1024)

def placementOf (v : Nat) : Placement := ⟨v / 65536 % 16384, ⟨v / 1024 % 64, v % 1024⟩⟩

def placementsAt (bytes : List Byte) : Nat → Nat → List Placement
  | _, 0 => []
  | i, n + 1 => placementOf (fieldAt bytes i 4) :: placementsAt bytes (i + 4) n

def Params.list (p : Params) : List Nat :=
  [p.slabSize, p.holdLife, p.driveTmo, p.pollPeriod, p.backoffBits, p.lockAfter, p.ckptRows, p.moveRate]

def ImageCounts.list (c : ImageCounts) : List Nat := [c.members, c.sets, c.volumes, c.slabs, c.damage, c.growth]

def JobKind.code : JobKind → Nat
  | .fill => 0
  | .move => 1

def DamageCause.code : DamageCause → Nat
  | .found => 0
  | .sourceLost => 1
  | .salvage => 2

def DamageCause.ofCode : Nat → DamageCause
  | 0 => .found
  | 1 => .sourceLost
  | _ => .salvage

/-! ## Payloads -/

def memberCondBytes : MemberCond → List Byte
  | .admission capacity formatOk => [0] ++ boolByte formatOk ++ beBytes 6 capacity
  | .available => [1]
  | .active => [2]
  | .failed => [3]
  | .unadmitted => [4]

/-- A record's payload bytes. -/
def RecordBody.payload : RecordBody → List Byte
  | .imageBegin arrayId params bad lost counts =>
    beBytes 8 arrayId.toNat ++ params.list.flatMap (beBytes 4) ++ beBytes 8 bad.toNat ++ boolByte lost
      ++ counts.list.flatMap (beBytes 2)
  | .imagePart bytes => bytes
  | .imageEnd beginSeq parts => beBytes 4 beginSeq ++ beBytes 2 parts
  | .param p value => beBytes 1 p.code ++ beBytes 4 value
  | .member id cond => beBytes 1 id ++ memberCondBytes cond
  | .setDefine id unit bandLength positions =>
    beBytes 1 id ++ beBytes 1 unit ++ beBytes 6 bandLength ++ beBytes 1 positions.length
      ++ positions.flatMap positionBytes
  | .setRetire id => beBytes 1 id
  | .volumeCreate id base limit pool => beBytes 1 id ++ beBytes 2 base ++ beBytes 2 limit ++ beBytes 8 pool.toNat
  | .growOpen volume old new pool => beBytes 1 volume ++ beBytes 2 old ++ beBytes 2 new ++ beBytes 8 pool.toNat
  | .growPart placements => placements.flatMap placementBytes
  | .growClose parts => beBytes 2 parts
  | .replace slab home => beBytes 2 slab ++ placeBytes home
  | .jobBegin slab target salvage => beBytes 2 slab ++ placeBytes target ++ boolByte salvage
  | .front slab value => beBytes 2 slab ++ beBytes 4 value
  | .jobEnd slab kind => beBytes 2 slab ++ beBytes 1 kind.code
  | .jobAbort slab => beBytes 2 slab
  | .damageAdd d => beBytes 1 d.volume ++ beBytes 8 d.first ++ beBytes 4 d.count ++ beBytes 1 d.cause.code
  | .damageClear volume first count => beBytes 1 volume ++ beBytes 8 first ++ beBytes 4 count
  | .blockRetire block => beBytes 1 block

def memberCondOf (p : List Byte) : MemberCond :=
  match byteAt p 1 with
  | 0 => .admission (fieldAt p 3 6) (byteAt p 2 != 0)
  | 1 => .available
  | 2 => .active
  | 3 => .failed
  | _ => .unadmitted

def paramsAt (p : List Byte) (i : Nat) : Params :=
  ⟨fieldAt p i 4, fieldAt p (i + 4) 4, fieldAt p (i + 8) 4, fieldAt p (i + 12) 4, fieldAt p (i + 16) 4,
    fieldAt p (i + 20) 4, fieldAt p (i + 24) 4, fieldAt p (i + 28) 4⟩

def imageCountsAt (p : List Byte) (i : Nat) : ImageCounts :=
  ⟨fieldAt p i 2, fieldAt p (i + 2) 2, fieldAt p (i + 4) 2, fieldAt p (i + 6) 2, fieldAt p (i + 8) 2,
    fieldAt p (i + 10) 2⟩

/-- The record that a kind and a payload spell; none where the kind is not one of R149. -/
def recordOf (kind : Nat) (p : List Byte) : Option RecordBody :=
  match kind with
  | 0x01 =>
    some (.imageBegin (BitVec.ofNat 64 (fieldAt p 0 8)) (paramsAt p 8) (BitVec.ofNat 64 (fieldAt p 40 8))
      (byteAt p 48 != 0) (imageCountsAt p 49))
  | 0x02 => some (.imagePart p)
  | 0x03 => some (.imageEnd (fieldAt p 0 4) (fieldAt p 4 2))
  | 0x10 => some (.param ((Param.ofCode (byteAt p 0)).getD .arrayId) (fieldAt p 1 4))
  | 0x11 => some (.member (byteAt p 0) (memberCondOf p))
  | 0x12 => some (.setDefine (byteAt p 0) (byteAt p 1) (fieldAt p 2 6) (positionsAt p 9 (byteAt p 8)))
  | 0x13 => some (.setRetire (byteAt p 0))
  | 0x14 => some (.volumeCreate (byteAt p 0) (fieldAt p 1 2) (fieldAt p 3 2) (BitVec.ofNat 64 (fieldAt p 5 8)))
  | 0x20 => some (.growOpen (byteAt p 0) (fieldAt p 1 2) (fieldAt p 3 2) (BitVec.ofNat 64 (fieldAt p 5 8)))
  | 0x21 => some (.growPart (placementsAt p 0 (p.length / 4)))
  | 0x22 => some (.growClose (fieldAt p 0 2))
  | 0x23 => some (.replace (fieldAt p 0 2) (placeAt p 2))
  | 0x30 => some (.jobBegin (fieldAt p 0 2) (placeAt p 2) (byteAt p 5 != 0))
  | 0x31 => some (.front (fieldAt p 0 2) (fieldAt p 2 4))
  | 0x32 => some (.jobEnd (fieldAt p 0 2) (if byteAt p 2 = 0 then .fill else .move))
  | 0x33 => some (.jobAbort (fieldAt p 0 2))
  | 0x40 => some (.damageAdd ⟨byteAt p 0, fieldAt p 1 8, fieldAt p 9 4, DamageCause.ofCode (byteAt p 13)⟩)
  | 0x41 => some (.damageClear (byteAt p 0) (fieldAt p 1 8) (fieldAt p 9 4))
  | 0x50 => some (.blockRetire (byteAt p 0))
  | _ => none

/-! ## Pages (R147, spec/12 section E) -/

/-- The first 252 bytes of a record's page: sequence, kind, length, payload with zeros after it, and two zero bytes. -/
def pageHead (seq : Nat) (body : RecordBody) : List Byte :=
  let p := body.payload
  beBytes 4 seq ++ beBytes 1 body.kind ++ beBytes 1 p.length ++ p ++ List.replicate (246 - p.length) 0

/-- The 256 bytes of a record's page. -/
def pageBytes (seq : Nat) (body : RecordBody) : List Byte :=
  pageHead seq body ++ beBytes 4 (crc32 (pageHead seq body))

/-- What a page read from the store is (R147). -/
inductive PageJudgement where
  | erased
  | bad
  | valid (seq : Nat) (body : RecordBody)
  deriving DecidableEq, Repr

/-- An erased page: every byte all ones (R146). -/
def pageErased (bytes : List Byte) : Bool := bytes.all (fun b => decide (b = 0xFF#8))

/-- The judgement of a page's bytes (R147): a valid record has a CRC that agrees, a kind of R149 and a length of at most
244; an erased page is all ones. -/
def judgePage (bytes : List Byte) : PageJudgement :=
  if pageErased bytes then .erased
  else if decide (fieldAt bytes 252 4 = crc32 (bytes.take 252)) && decide (byteAt bytes 5 ≤ 244) then
    match recordOf (byteAt bytes 4) ((bytes.drop 6).take (byteAt bytes 5)) with
    | some body => .valid (fieldAt bytes 0 4) body
    | none => .bad
  else .bad

/-! ## The lasting state that records define (R149) -/

def Account.member (a : Account) (id : Nat) : Member := tableRead Member.absent a.members id
def Account.setMember (a : Account) (id : Nat) (m : Member) : Account :=
  { a with members := tableWrite Member.absent a.members id m }
def Account.slab (a : Account) (g : Nat) : Slab := tableRead Slab.unused a.slabs g
def Account.setSlab (a : Account) (g : Nat) (e : Slab) : Account :=
  { a with slabs := tableWrite Slab.unused a.slabs g e }
def Account.volume (a : Account) (v : Nat) : Volume := tableRead Volume.unused a.volumes v
def Account.setDef (a : Account) (t : Nat) : Option SetDef := tableRead none a.sets t

/-- A parameter takes a value (R149, PARAM). -/
def Params.set (p : Params) (q : Param) (v : Nat) : Params :=
  match q with
  | .slabSize => { p with slabSize := v }
  | .arrayId => p
  | .holdLife => { p with holdLife := v }
  | .driveTmo => { p with driveTmo := v }
  | .pollPeriod => { p with pollPeriod := v }
  | .backoffBits => { p with backoffBits := v }
  | .lockAfter => { p with lockAfter := v }
  | .ckptRows => { p with ckptRows := v }
  | .moveRate => { p with moveRate := v }

/-- The effect of a MEMBER record on its entry (R149). -/
def memberAfter (seq : Nat) (m : Member) : MemberCond → Member
  | .admission capacity formatOk =>
    { m with state := .available, capacity := capacity, formatOk := formatOk, labelSeq := some seq }
  | .available => { m with state := .available }
  | .active => { m with state := .active }
  | .failed => { m with state := .failed }
  | .unadmitted => Member.absent

/-- A band joins a member's list when its set's record is durable; an AVAILABLE member becomes ACTIVE (R4, R40). -/
def Member.addBand (m : Member) (b : Band) : Member :=
  { m with bands := m.bands ++ [b], state := if m.state = .available then .active else m.state }

/-- A band leaves a member's list when its set is retired; an ACTIVE member without bands becomes AVAILABLE (R4, R42). -/
def Member.dropBand (m : Member) (set : Nat) : Member :=
  let bands := m.bands.filter (fun b => b.set ≠ set)
  { m with bands := bands, state := if m.state = .active ∧ bands = [] then .available else m.state }

/-- A placement of a growth takes effect: the slab is FILLING on its home (R46). -/
def fillSlab (volume : Nat) (p : Placement) (a : Account) : Account :=
  a.setSlab p.slab { Slab.unused with state := .filling, volume := volume, home := p.place }

/-- Apply an open growth at its GROW_CLOSE (R46, R149): only with the stated number of parts. -/
def closeGrowth (parts : Nat) (a : Account) : Account :=
  match a.growth with
  | none => a
  | some g =>
    if g.parts.length = parts then
      let a := forEach (fillSlab g.volume) g.parts.flatten { a with growth := none }
      { a with
        volumes := tableWrite Volume.unused a.volumes g.volume { a.volume g.volume with count := g.new, pool := g.pool } }
    else { a with growth := none }

/-- The Damage List and its LOST flag after an addition or a removal (R121, R122, R124). -/
def Account.withDamage (a : Account) (l : List Damage) (dropped : Nat) : Account :=
  { a with damage := l, lost := if l = [] then false else a.lost || decide (0 < dropped) }

/-- The effect of one durable record on the lasting state (R149). The image records have none of their own here. -/
def applyRecord (seq : Nat) (body : RecordBody) (a : Account) : Account :=
  match body with
  | .imageBegin .. => a
  | .imagePart .. => a
  | .imageEnd .. => a
  | .param p value => { a with params := a.params.set p value }
  | .member id cond => a.setMember id (memberAfter seq (a.member id) cond)
  | .setDefine id unit bandLength positions =>
    forEach (fun (p : Position) a => a.setMember p.member ((a.member p.member).addBand ⟨id, p.start⟩)) positions
      { a with sets := tableWrite none a.sets id (some ⟨unit, bandLength, positions⟩) }
  | .setRetire id =>
    match a.setDef id with
    | none => a
    | some d =>
      forEach (fun (p : Position) a => a.setMember p.member ((a.member p.member).dropBand id)) d.positions
        { a with sets := tableWrite none a.sets id none }
  | .volumeCreate id base limit pool =>
    { a with volumes := tableWrite Volume.unused a.volumes id ⟨.online, base, limit, 0, 0, pool⟩ }
  | .growOpen volume old new pool => { a with growth := some ⟨volume, old, new, pool, []⟩ }
  | .growPart placements =>
    match a.growth with
    | none => a
    | some g => { a with growth := some { g with parts := g.parts ++ [placements] } }
  | .growClose parts => closeGrowth parts a
  | .replace slab home => a.setSlab slab { a.slab slab with home := home, front := 0, persisted := 0 }
  | .jobBegin slab target salvage =>
    a.setSlab slab
      { a.slab slab with state := .moving, target := some target, front := 0, persisted := 0, salvage := salvage }
  | .front slab value => a.setSlab slab { a.slab slab with persisted := value }
  | .jobEnd slab .fill => a.setSlab slab { a.slab slab with state := .live, front := 0, persisted := 0 }
  | .jobEnd slab .move =>
    let e := a.slab slab
    a.setSlab slab
      { e with state := .live, home := e.target.getD e.home, target := none, front := 0, persisted := 0,
               salvage := false }
  | .jobAbort slab =>
    a.setSlab slab { a.slab slab with state := .live, target := none, front := 0, persisted := 0, salvage := false }
  | .damageAdd d =>
    let r := damageAdd d a.damage
    a.withDamage r.1 r.2
  | .damageClear volume first count =>
    if damageSplits volume first count a.damage && decide (Config.maxDamage ≤ a.damage.length) then a
    else a.withDamage (damageRemove volume first count a.damage) 0
  | .blockRetire block => { a with bad := a.bad ||| (1#64 <<< block) }

/-! ## The image (R156) -/

/-- Whole entries packed into parts of at most 244 bytes, in order. -/
def packParts : List (List Byte) → List Byte → List (List Byte)
  | [], [] => []
  | [], cur => [cur]
  | e :: rest, cur =>
    if cur.length + e.length ≤ 244 then packParts rest (cur ++ e) else cur :: packParts rest e

def memberStateCode : MemberState → Nat
  | .absent => 0
  | .present => 1
  | .joining => 2
  | .available => 3
  | .active => 4
  | .failed => 5

def memberStateOf : Nat → MemberState
  | 3 => .available
  | 4 => .active
  | 5 => .failed
  | _ => .absent

def bandBytes (b : Band) : List Byte := beBytes 1 b.set ++ beBytes 6 b.start

/-- A member entry of 40 bytes: id, state with format_ok and band count, capacity, label_seq, four bands. -/
def memberEntry (e : Nat × Member) : List Byte :=
  let m := e.2
  beBytes 1 e.1 ++ beBytes 1 (memberStateCode m.state * 16 + m.bands.length * 2 + (if m.formatOk then 1 else 0))
    ++ beBytes 6 m.capacity ++ beBytes 4 (m.labelSeq.getD 0) ++ (m.bands.take 4).flatMap bandBytes
    ++ List.replicate (28 - 7 * m.bands.length) 0

/-- A set entry of 10 + 7w bytes. -/
def setEntryBytes (e : Nat × Option SetDef) : List Byte :=
  match e.2 with
  | none => []
  | some d =>
    beBytes 1 e.1 ++ beBytes 1 d.unit ++ beBytes 6 d.bandLength ++ beBytes 1 d.positions.length ++ [0]
      ++ d.positions.flatMap positionBytes

/-- A volume entry of 20 bytes. -/
def volumeEntry (e : Nat × Volume) : List Byte :=
  beBytes 1 e.1 ++ beBytes 2 e.2.base ++ beBytes 2 e.2.limit ++ beBytes 2 e.2.count ++ beBytes 8 e.2.pool.toNat
    ++ List.replicate 5 0

def slabStateCode : SlabState → Nat
  | .unused => 0
  | .filling => 1
  | .live => 2
  | .moving => 3
  | .committing => 3

def slabStateOf : Nat → SlabState
  | 1 => .filling
  | 2 => .live
  | 3 => .moving
  | _ => .unused

/-- A slab entry of 16 bytes; a COMMITTING slab is imaged as MOVING. -/
def slabEntry (e : Nat × Slab) : List Byte :=
  let b := e.2
  beBytes 2 e.1 ++ beBytes 1 (slabStateCode b.state) ++ beBytes 1 b.volume ++ placeBytes b.home
    ++ boolByte b.target.isSome ++ placeBytes (b.target.getD ⟨0, 0⟩) ++ beBytes 4 b.persisted ++ boolByte b.salvage

/-- A damage entry of 14 bytes. -/
def damageEntry (d : Damage) : List Byte :=
  beBytes 1 d.volume ++ beBytes 8 d.first ++ beBytes 4 d.count ++ beBytes 1 d.cause.code

def Account.imageParts (a : Account) : List (List Byte) :=
  packParts (a.members.map memberEntry) [] ++ packParts (a.sets.map setEntryBytes) []
    ++ packParts (a.volumes.map volumeEntry) [] ++ packParts (a.slabs.map slabEntry) []
    ++ packParts (a.damage.map damageEntry) []
    ++ match a.growth with
      | none => []
      | some g =>
        (RecordBody.growOpen g.volume g.old g.new g.pool).payload
          :: g.parts.map (fun p => (RecordBody.growPart p).payload)

def Account.imageCounts (a : Account) : ImageCounts :=
  { members := a.members.length, sets := a.sets.length, volumes := a.volumes.length, slabs := a.slabs.length,
    damage := a.damage.length, growth := match a.growth with
      | none => 0
      | some g => g.parts.length + 1 }

/-- The image's records before IMAGE_END: IMAGE_BEGIN and the parts, section after section (R155, R156). -/
def Account.image (a : Account) : List RecordBody :=
  .imageBegin a.arrayId a.params a.bad a.lost a.imageCounts :: a.imageParts.map .imagePart

/-! ## Applying an image -/

def bandsAt (bytes : List Byte) : Nat → Nat → List Band
  | _, 0 => []
  | i, n + 1 => ⟨byteAt bytes i, fieldAt bytes (i + 1) 6⟩ :: bandsAt bytes (i + 7) n

def readMembers : Nat → List Byte → Account → Account × List Byte
  | 0, bytes, a => (a, bytes)
  | n + 1, bytes, a =>
    let flags := byteAt bytes 1
    readMembers n (bytes.drop 40)
      (a.setMember (byteAt bytes 0)
        ⟨memberStateOf (flags / 16), fieldAt bytes 2 6, flags % 2 != 0, bandsAt bytes 12 (flags / 2 % 8),
          some (fieldAt bytes 8 4)⟩)

def readSets : Nat → List Byte → Account → Account × List Byte
  | 0, bytes, a => (a, bytes)
  | n + 1, bytes, a =>
    let w := byteAt bytes 8
    readSets n (bytes.drop (10 + 7 * w))
      { a with
        sets := tableWrite none a.sets (byteAt bytes 0) (some ⟨byteAt bytes 1, fieldAt bytes 2 6, positionsAt bytes 10 w⟩) }

def readVolumes : Nat → List Byte → Account → Account × List Byte
  | 0, bytes, a => (a, bytes)
  | n + 1, bytes, a =>
    readVolumes n (bytes.drop 20)
      { a with
        volumes := tableWrite Volume.unused a.volumes (byteAt bytes 0)
          ⟨.online, fieldAt bytes 1 2, fieldAt bytes 3 2, fieldAt bytes 5 2, 0, BitVec.ofNat 64 (fieldAt bytes 7 8)⟩ }

def readSlabs : Nat → List Byte → Account → Account × List Byte
  | 0, bytes, a => (a, bytes)
  | n + 1, bytes, a =>
    readSlabs n (bytes.drop 16)
      (a.setSlab (fieldAt bytes 0 2)
        { state := slabStateOf (byteAt bytes 2), volume := byteAt bytes 3, home := placeAt bytes 4,
          target := if byteAt bytes 7 = 0 then none else some (placeAt bytes 8), front := 0,
          persisted := fieldAt bytes 11 4, mark := false, salvage := byteAt bytes 15 != 0 })

def readDamage : Nat → List Byte → List Damage
  | 0, _ => []
  | n + 1, bytes =>
    ⟨byteAt bytes 0, fieldAt bytes 1 8, fieldAt bytes 9 4, DamageCause.ofCode (byteAt bytes 13)⟩
      :: readDamage n (bytes.drop 14)

/-- The list that some ranges form, added one after another (R121). -/
def addAll (ds : List Damage) : List Damage := ds.foldl (fun l d => (damageAdd d l).1) []

def readGrowth : List (List Byte) → Option OpenGrowth
  | [] => none
  | first :: parts =>
    some ⟨byteAt first 0, fieldAt first 1 2, fieldAt first 3 2, BitVec.ofNat 64 (fieldAt first 5 8),
      parts.map (fun p => placementsAt p 0 (p.length / 4))⟩

/-- The lasting state of a complete image: IMAGE_BEGIN's items and the entries of its parts (R149, R163). The last
`counts.growth` parts are the open growth's. -/
def readImage (arrayId : BitVec 64) (params : Params) (bad : BitVec 64) (lost : Bool) (counts : ImageCounts)
    (parts : List (List Byte)) : Account :=
  let entries := (parts.take (parts.length - counts.growth)).flatten
  let a : Account := { Account.fresh with arrayId := arrayId, params := params, bad := bad, lost := lost }
  let r := readMembers counts.members entries a
  let r := readSets counts.sets r.2 r.1
  let r := readVolumes counts.volumes r.2 r.1
  let r := readSlabs counts.slabs r.2 r.1
  { r.1 with damage := addAll (readDamage counts.damage r.2), growth := readGrowth (parts.drop (parts.length - counts.growth)) }

end Sys2Proof.Machine
end

