-- ==== Sys2Proof/Machine/Ops.lean ====
section
/-! DEFINITION. The operations that every block shares: changing one block's state, reading the tables, the saturating counters,
posting an exchange, the shift register of R99, and placing and answering on the outbound queue (R170, R171). -/

namespace Sys2Proof.Machine

/-- What a command answers. -/
abbrev Answer := Host.Outcome State Fault Refusal

/-! ## Changing one block's state -/

def State.onMp (f : MsgPort → MsgPort) (s : State) : State := { s with mp := f s.mp }
def State.onPm (f : PlacementMap → PlacementMap) (s : State) : State := { s with pm := f s.pm }
def State.onGu (f : GrantUnit → GrantUnit) (s : State) : State := { s with gu := f s.gu }
def State.onMe (f : MoveEngine → MoveEngine) (s : State) : State := { s with me := f s.me }
def State.onSp (f : StagingPool → StagingPool) (s : State) : State := { s with sp := f s.sp }
def State.onDp (f : DrivePort → DrivePort) (s : State) : State := { s with dp := f s.dp }
def State.onSm (f : ShelfMonitor → ShelfMonitor) (s : State) : State := { s with sm := f s.sm }
def State.onJc (f : Journal → Journal) (s : State) : State := { s with jc := f s.jc }

/-- Put an exchange between blocks on the agenda of the step. -/
def State.post (i : Internal) (s : State) : State := { s with agenda := s.agenda ++ [i] }

/-- The present time, in microseconds. -/
def State.now (s : State) : Nat := s.clock.now

/-! ## Counters (spec/00 section F): 32 bits, stopping at the largest value -/

def bumpBy (k n : Nat) : Nat := min (n + k) Config.counterMax

def bump (n : Nat) : Nat := bumpBy 1 n

/-! ## The back-off shift register (R99) -/

/-- One step: one place toward the most significant end, the new lowest bit the exclusive-or of bits 15, 13, 12 and 10. -/
def lfsrStep (r : BitVec 16) : BitVec 16 :=
  r.extractLsb' 0 15 ++ BitVec.ofBool (r.getLsbD 15 ^^ r.getLsbD 13 ^^ r.getLsbD 12 ^^ r.getLsbD 10)

/-! ## Reading and writing table entries -/

def State.member (s : State) (id : Nat) : Member := tableRead Member.absent s.pm.members id
def State.set (s : State) (t : Nat) : SetEntry := tableRead SetEntry.unused s.pm.sets t

/-- The place of a slot in the slot table: 1024 slots for each set. -/
def slotKey (p : Place) : Nat := p.set * 1024 + p.slot

def State.slot (s : State) (p : Place) : Slot := tableRead Slot.free s.pm.slots (slotKey p)
def State.volume (s : State) (v : Nat) : Volume := tableRead Volume.unused s.pm.volumes v
def State.slab (s : State) (g : Nat) : Slab := tableRead Slab.unused s.pm.slabs g
def State.hold (s : State) (h : Nat) : Hold := tableRead (Hold.free 0) s.gu.holds h
def State.lane (s : State) (n : Nat) : Lane := tableRead Lane.idle s.me.lanes n
def State.ring (s : State) (e : Nat) : RingEntry := tableRead (RingEntry.free 0) s.dp.ring e
def State.shelf (s : State) (a : Nat) : Shelf := tableRead Shelf.unseen s.sm.shelves a
def State.storeBlock (s : State) (b : Nat) : StoreBlock := tableRead StoreBlock.written s.jc.blocks b

/-- The bay record of a member id: shelf id / 16, bay id mod 16 (R1). -/
def State.bay (s : State) (id : Nat) : Bay := (s.shelf (id / 16)).bays.getD (id % 16) Bay.cleared

/-- A drive is present when its bay record is occupied and ready (spec/08). -/
def Bay.present (b : Bay) : Bool := b.occupied && b.ready

def State.setMember (id : Nat) (m : Member) (s : State) : State :=
  s.onPm (fun p => { p with members := tableWrite Member.absent p.members id m })
def State.setSet (t : Nat) (e : SetEntry) (s : State) : State :=
  s.onPm (fun p => { p with sets := tableWrite SetEntry.unused p.sets t e })
def State.setVolume (v : Nat) (e : Volume) (s : State) : State :=
  s.onPm (fun p => { p with volumes := tableWrite Volume.unused p.volumes v e })
def State.setSlab (g : Nat) (e : Slab) (s : State) : State :=
  s.onPm (fun p => { p with slabs := tableWrite Slab.unused p.slabs g e })
def State.setHold (h : Nat) (e : Hold) (s : State) : State :=
  s.onGu (fun g => { g with holds := tableWrite (Hold.free 0) g.holds h e })
def State.setLane (n : Nat) (l : Lane) (s : State) : State :=
  s.onMe (fun m => { m with lanes := tableWrite Lane.idle m.lanes n l })
def State.onLane (n : Nat) (f : Lane → Lane) (s : State) : State := s.setLane n (f (s.lane n))
def State.setRing (e : Nat) (r : RingEntry) (s : State) : State :=
  s.onDp (fun d => { d with ring := tableWrite (RingEntry.free 0) d.ring e r })
def State.setShelf (a : Nat) (e : Shelf) (s : State) : State :=
  s.onSm (fun m => { m with shelves := tableWrite Shelf.unseen m.shelves a e })
def State.setStoreBlock (b : Nat) (e : StoreBlock) (s : State) : State :=
  s.onJc (fun j => { j with blocks := tableWrite StoreBlock.written j.blocks b e })

/-- The staging block at a position. -/
def State.staged (s : State) (position : Nat) : Block := Memory.read s.sp.memory position

/-- Lay a block at a staging position. -/
def State.layBlock (position : Nat) (b : Block) (s : State) : State :=
  s.onSp (fun p => { p with memory := Memory.write p.memory position b })

/-- The slab size S in blocks (R19). -/
def State.slabBlocks (s : State) : Nat := Machine.slabBlocks s.pm.slabSize

/-- The number of a slab within its volume (R20). -/
def State.volumeSlab (s : State) (g : Nat) : Nat := g - (s.volume (s.slab g).volume).base

/-- The VLB of an offset within a slab (R20). -/
def State.vlb (s : State) (g offset : Nat) : Nat := s.volumeSlab g * s.slabBlocks + offset

/-! ## The outbound queue (R171) -/

def OutFrame.isReply : OutFrame → Bool
  | .reply .. => true
  | .notice _ => false

/-- Reply places in use. -/
def replyCount (frames : List OutFrame) : Nat := (frames.filter OutFrame.isReply).length

/-- Notices standing in the queue. -/
def noticeCount (frames : List OutFrame) : Nat := (frames.filter (fun f => !f.isReply)).length

def State.placeFrame (f : OutFrame) (s : State) : State := s.onMp (fun m => { m with outbound := m.outbound ++ [f] })

/-! ## Request kinds (spec/12 section F) -/

def ReqKind.code : ReqKind → Nat
  | .inquire => 0x01
  | .status => 0x02
  | .tableRead => 0x03
  | .setParam => 0x04
  | .noticeMask => 0x05
  | .faultRead => 0x06
  | .faultClear => 0x07
  | .reset => 0x08
  | .map => 0x09
  | .format => 0x0A
  | .joinMember => 0x0B
  | .releaseMember => 0x0C
  | .failMember => 0x0D
  | .defineSet => 0x0E
  | .retireSet => 0x0F
  | .createVolume => 0x10
  | .grow => 0x11
  | .unhold => 0x12
  | .rebalance => 0x13
  | .move => 0x14
  | .cancelJob => 0x15
  | .pauseJobs => 0x16
  | .resumeJobs => 0x17
  | .damageRead => 0x18
  | .damageClear => 0x19

/-- Every request kind, in the order of the values. -/
def ReqKind.all : List ReqKind :=
  [.inquire, .status, .tableRead, .setParam, .noticeMask, .faultRead, .faultClear, .reset, .map, .format, .joinMember,
    .releaseMember, .failMember, .defineSet, .retireSet, .createVolume, .grow, .unhold, .rebalance, .move, .cancelJob,
    .pauseJobs, .resumeJobs, .damageRead, .damageClear]

/-- The request kind of a kind byte. -/
def ReqKind.ofCode (code : Nat) : Option ReqKind := ReqKind.all.find? (fun k => k.code = code)

/-- The reply kind of a request kind: 0x80 added (R177). -/
def ReqKind.replyCode (k : ReqKind) : Nat := k.code + 0x80

/-! ## Answering a request (R170) -/

/-- The queued request with a tag. -/
def State.request (s : State) (tag : ReqTag) : Option Request := s.mp.requests.find? (fun r => r.tag = tag)

/-- Answer a request: its place and its tag are given up, and its reply is placed for sending (R170). A reply that is not
OK carries the result alone (R177). A tag that is open and names no queued request is a deferred MAP's (R65). A tag that is not
open has no reply place reserved, and nothing is placed (R171; DEDUCED, log 46). -/
def State.answer (tag : ReqTag) (result : Result) (body : ReplyBody) (s : State) : State :=
  if tag ∈ s.mp.openTags then
    let kind := ((s.request tag).map (fun r => r.kind.replyCode)).getD ReqKind.map.replyCode
    let s := s.onMp (fun m => { m with requests := m.requests.filter (fun r => r.tag ≠ tag),
                                       openTags := m.openTags.filter (fun t => t ≠ tag) })
    s.placeFrame (.reply tag kind result (if result = .ok then body else .empty))
  else s

/-- Answer a request with a result alone. -/
def State.refuse (tag : ReqTag) (result : Result) (s : State) : State := s.answer tag result .empty

/-- Mark a request as taken: it waits for a record and keeps its place (R170). -/
def State.markTaken (tag : ReqTag) (s : State) : State :=
  s.onMp (fun m => { m with requests := m.requests.map (fun r => if r.tag = tag then { r with taken := true } else r) })

end Sys2Proof.Machine
end

