-- ==== Sys2Proof/Machine/Operands.lean ====
section
/-! DEFINITION. The operands of requests: which lengths a kind allows (R169, spec/12 section G), which owner takes it (R170,
R173, R174), and the fields of each payload. -/

namespace Sys2Proof.Machine

/-- The payload lengths that acceptance allows (spec/12 sections C and G). -/
def lengthAllowed : ReqKind → Nat → Bool
  | .inquire, n => decide (n = 0)
  | .status, n => decide (n = 2)
  | .tableRead, n => decide (n = 6)
  | .setParam, n => decide (n = 8)
  | .noticeMask, n => decide (n = 2)
  | .faultRead, n => decide (n = 0)
  | .faultClear, n => decide (n = 0)
  | .reset, n => decide (n = 0)
  | .map, n => decide (n = 12)
  | .format, n => decide (n = 8)
  | .joinMember, n => decide (n = 1)
  | .releaseMember, n => decide (n = 1)
  | .failMember, n => decide (n = 1)
  | .defineSet, n => decide (29 ≤ n) && decide (n ≤ 120) && decide ((n - 8) % 7 = 0)
  | .retireSet, n => decide (n = 1)
  | .createVolume, n => decide (n = 12)
  | .grow, n => decide (n = 4) || decide (n = 12)
  | .unhold, n => decide (6 ≤ n) && decide (n ≤ 10)
  | .rebalance, n => decide (3 ≤ n) && decide (n ≤ 18)
  | .move, n => decide (n = 6)
  | .cancelJob, n => decide (n = 4)
  | .pauseJobs, n => decide (n = 0)
  | .resumeJobs, n => decide (n = 0)
  | .damageRead, n => decide (n = 3)
  | .damageClear, n => decide (n = 16)

/-- The views of TABLE_READ (R173). -/
inductive View where
  | member | set | slot | slab | hold | job | lane | shelf | damage
  deriving DecidableEq, Repr

def View.ofCode : Nat → Option View
  | 0 => some .member
  | 1 => some .set
  | 2 => some .slot
  | 3 => some .slab
  | 4 => some .hold
  | 5 => some .job
  | 6 => some .lane
  | 7 => some .shelf
  | 8 => some .damage
  | _ => none

def View.owner : View → ReqOwner
  | .member => .pm
  | .set => .pm
  | .slot => .pm
  | .slab => .pm
  | .hold => .gu
  | .job => .me
  | .lane => .me
  | .shelf => .sm
  | .damage => .me

def Param.owner : Param → ReqOwner
  | .slabSize => .pm
  | .arrayId => .pm
  | .holdLife => .gu
  | .driveTmo => .dp
  | .pollPeriod => .sm
  | .backoffBits => .me
  | .lockAfter => .me
  | .ckptRows => .me
  | .moveRate => .me

/-- The owner that takes a request (R170). An unknown view or parameter name stays with the Message Port (R173, R174). -/
def ownerOf (kind : ReqKind) (payload : List Byte) : ReqOwner :=
  match kind with
  | .inquire => .mp
  | .status => .mp
  | .tableRead => ((View.ofCode (byteAt payload 0)).map View.owner).getD .mp
  | .setParam => ((Param.ofCode (byteAt payload 0)).map Param.owner).getD .mp
  | .noticeMask => .mp
  | .faultRead => .mp
  | .faultClear => .mp
  | .reset => .part
  | .map => .gu
  | .format => .jc
  | .joinMember => .pm
  | .releaseMember => .pm
  | .failMember => .pm
  | .defineSet => .pm
  | .retireSet => .pm
  | .createVolume => .pm
  | .grow => .pm
  | .unhold => .gu
  | .rebalance => .me
  | .move => .me
  | .cancelJob => .me
  | .pauseJobs => .me
  | .resumeJobs => .me
  | .damageRead => .me
  | .damageClear => .me

def Request.owner (r : Request) : ReqOwner := ownerOf r.kind r.payload

/-- Whether a value is one that a parameter takes (R19, R55, R80, R81, R101, R132, R139, R174). -/
def paramInRange : Param → Nat → Bool
  | .slabSize, v => decide (v = 1) || decide (v = 4) || decide (v = 16)
  | .arrayId, _ => false
  | .holdLife, v => decide (1 ≤ v) && decide (v ≤ 120)
  | .driveTmo, v => decide (1 ≤ v) && decide (v ≤ 60)
  | .pollPeriod, v => decide (50 ≤ v) && decide (v ≤ 1000)
  | .backoffBits, v => decide (v = 1) || decide (v = 4) || decide (v = 8) || decide (v = 10)
  | .lockAfter, v => decide (v = 1) || decide (v = 8) || decide (v = 16) || decide (v = 32)
  | .ckptRows, v => decide (16 ≤ v) && decide (v ≤ 1024)
  | .moveRate, v => decide (v ≤ 4096)

/-- The pool or candidates of an 8-byte field: one flag for each set id, id 0 lowest (spec/12 section G). -/
def poolAt (p : List Byte) (i : Nat) : BitVec 64 := BitVec.ofNat 64 (fieldAt p i 8)

/-- The flags that name some set ids. -/
def poolOf (ids : List Nat) : BitVec 64 := ids.foldl (fun b t => b ||| (1#64 <<< t)) 0#64

/-- The bytes from an offset on, as numbers. -/
def bytesFrom (p : List Byte) (i : Nat) : List Nat := (p.drop i).map BitVec.toNat

/-- An 8-bit flag field holds 0 or 1 (spec/12 section G, R177). -/
def flagOk (v : Nat) : Bool := decide (v ≤ 1)

def accessOf : Nat → Option Access
  | 0 => some .read
  | 1 => some .write
  | _ => none

/-- The fields of a MAP (spec/12 section C). -/
structure MapFields where
  volume : Nat
  access : Option Access
  count : Nat
  first : Nat
  deriving DecidableEq, Repr

def mapFields (p : List Byte) : MapFields := ⟨byteAt p 0, accessOf (byteAt p 1), fieldAt p 2 2, fieldAt p 4 8⟩

/-- The fields of an UNHOLD (spec/12 section C). -/
structure UnholdFields where
  hold : Nat
  generation : Nat
  outcome : Nat
  listCount : Nat
  members : List Nat
  deriving DecidableEq, Repr

def unholdFields (p : List Byte) : UnholdFields :=
  ⟨fieldAt p 0 2, fieldAt p 2 2, byteAt p 4, byteAt p 5, bytesFrom p 6⟩

/-- The fields of a DEFINE_SET (spec/12 section G). -/
structure DefineFields where
  set : Nat
  unit : Nat
  bandLength : Nat
  positions : List Position
  deriving DecidableEq, Repr

def defineFields (p : List Byte) : DefineFields :=
  ⟨byteAt p 0, byteAt p 1, fieldAt p 2 6, positionsAt p 8 ((p.length - 8) / 7)⟩

end Sys2Proof.Machine
end

