-- ==== Sys2Proof/Machine/Flags.lean ====
section
/-! DEFINITION. The flags of the Message Port: the notice mask and the notices-lost flag (R171), the fault record (R175). -/

namespace Sys2Proof.Machine

/-- The place of a notice kind in the notice mask, in the order of R171. -/
def Notice.bit : Notice → Nat
  | .partState .. => 0
  | .shelfUp .. => 1
  | .shelfLost .. => 2
  | .bayChange .. => 3
  | .memberState .. => 4
  | .setState .. => 5
  | .growReady .. => 6
  | .jobAborted .. => 7
  | .jobsIdle => 8
  | .holdExpired .. => 9
  | .damageAdded .. => 10
  | .journalState .. => 11
  | .fault .. => 12

/-- Offer a notice (R171): discarded where its kind is disabled, queued where fewer than 32 notices stand, else dropped,
counted, and the notices-lost flag set. -/
def State.offerNotice (n : Notice) (s : State) : State :=
  if s.mp.mask.getLsbD n.bit then
    if noticeCount s.mp.outbound < Config.maxNotices then s.placeFrame (.notice n)
    else s.onMp (fun m => { m with noticesLost := true,
                                   counters := { m.counters with noticesLost := bump m.counters.noticesLost } })
  else s

/-- A fault kind with no details. -/
def FaultOffer.bare (kind : FaultKind) : FaultOffer := ⟨kind, none, none, none, none, none, none⟩

/-- Offer a fault (R175): captured and noticed where the record is empty, else counted. -/
def State.offerFault (o : FaultOffer) (s : State) : State :=
  match s.mp.fault with
  | none =>
    let c : Capture := ⟨o, 0, false⟩
    (s.onMp (fun m => { m with fault := some c })).offerNotice (.fault c)
  | some c => s.onMp (fun m => { m with fault := some { c with extra := bump c.extra, more := true } })

/-- The mask that a NOTICE_MASK request spells: bit 0 of the second byte is PART_STATE, bit 4 of the first FAULT
(spec/12 section F). -/
def maskOf (p : List Byte) : BitVec 13 := BitVec.ofNat 13 (fieldAt p 0 2)

end Sys2Proof.Machine
end

