-- ==== Sys2Proof/Machine/Placement.lean ====
section
/-! DEFINITION. Slots, allocation and counts of the Placement Map (R7, R9 to R15, R25, R26), and the questions that the blocks
ask of one another's tables (R51, R63, R64, R71, R74, R102). -/

namespace Sys2Proof.Machine

/-! ## Sets (R6, R7) -/

/-- The state of a durable set with a failed count (R7). -/
def setStateOf (failedCount : Nat) : SetState :=
  if failedCount = 0 then .online else if failedCount = 1 then .degraded else .failed

/-- A set entry as requested, with the geometry of R6 and every slot FREE (R40). -/
def newSet (state : SetState) (s unit bandLength : Nat) (positions : List Position) : SetEntry :=
  let w := positions.length
  let n := slotCount s w unit bandLength
  { state := state, width := w, unit := unit, bandLength := bandLength, positions := positions,
    rows := rowsPerSlot s w unit, slots := n, freeCount := n, failedCount := 0, retiring := false }

/-- How many positions of a list have a FAILED member (R5, R7). -/
def State.failedPositions (s : State) (positions : List Position) : Nat :=
  (positions.filter (fun p => (s.member p.member).state = .failed)).length

/-! ## Slots (R9 to R13) -/

/-- Write a slot record; the set's free count follows the changes into and out of FREE (R13). -/
def State.writeSlot (p : Place) (v : Slot) (s : State) : State :=
  let old := (s.slot p).state
  let e := s.set p.set
  let s := s.onPm (fun m => { m with slots := tableWrite Slot.free m.slots (slotKey p) v })
  if old = .free ∧ v.state ≠ .free then s.setSet p.set { e with freeCount := e.freeCount - 1 }
  else if old ≠ .free ∧ v.state = .free then s.setSet p.set { e with freeCount := e.freeCount + 1 }
  else s

/-- The evaluation of R12 on a slot record: a DRAINING slot with no reference and no lane hold is FREE. -/
def Slot.drained (v : Slot) : Slot :=
  if v.state = .draining ∧ v.refs = 0 ∧ v.lane = none then Slot.free else v

/-- A slot leaves HOME or TARGET for DRAINING, or for FREE as R12 says. -/
def State.leavePlace (p : Place) (s : State) : State := s.writeSlot p { s.slot p with state := .draining }.drained

/-- A grant names the slot: its count rises (R11). -/
def State.raiseRef (p : Place) (s : State) : State := s.writeSlot p { s.slot p with refs := (s.slot p).refs + 1 }

/-- A hold that named the slot is freed: its count falls, and R12 is evaluated (R11). -/
def State.lowerRef (p : Place) (s : State) : State :=
  s.writeSlot p { s.slot p with refs := (s.slot p).refs - 1 }.drained

/-- A lane places its hold on a slot (R12). -/
def State.holdSlot (n : Nat) (p : Place) (s : State) : State := s.writeSlot p { s.slot p with lane := some n }

/-- The lane hold on a slot is cleared, and R12 is evaluated. -/
def State.releaseSlot (p : Place) (s : State) : State := s.writeSlot p { s.slot p with lane := none }.drained

/-- A slot becomes FREE directly (R10). -/
def State.freeSlot (p : Place) (s : State) : State := s.writeSlot p Slot.free

/-- A slot is taken for a slab (R25). -/
def State.takeSlot (p : Place) (state : SlotState) (g : Nat) (s : State) : State :=
  s.writeSlot p ⟨state, 0, some g, none⟩

/-! ## The allocation policy (R25) -/

/-- Eligible for allocation: ONLINE, with a FREE slot, not retiring (R25). -/
def State.eligible (s : State) (t : Nat) : Bool :=
  let e := s.set t
  decide (e.state = .online) && decide (1 ≤ e.freeCount) && !e.retiring

/-- Of two sets the one with the larger free count, the first one where they are equal (R25). -/
def State.better (s : State) (best : Option Nat) (t : Nat) : Option Nat :=
  match best with
  | none => some t
  | some b => if (s.set b).freeCount < (s.set t).freeCount then some t else some b

/-- The set that the policy chooses among the offered ones, lowest id first (R25). -/
def State.chooseSet (s : State) (offered : BitVec 64) : Option Nat :=
  ((List.range 64).filter (fun t => offered.getLsbD t && s.eligible t)).foldl s.better none

/-- The lowest-numbered FREE slot of a set. -/
def State.lowestFree (s : State) (t : Nat) : Option Nat :=
  (List.range (s.set t).slots).find? (fun k => (s.slot ⟨t, k⟩).state = .free)

/-- The slot that the policy chooses (R25). -/
def State.chooseSlot (s : State) (offered : BitVec 64) : Option Place :=
  match s.chooseSet offered with
  | none => none
  | some t => (s.lowestFree t).map (fun k => ⟨t, k⟩)

/-! ## Volumes (R14, R15) -/

/-- The ready count of a volume: the slabs before its lowest FILLING one (R15). -/
def State.readyCount (s : State) (v : Nat) : Nat :=
  let e := s.volume v
  ((List.range e.count).find? (fun k => (s.slab (e.base + k)).state = .filling)).getD e.count

/-- Recompute the ready count; GROW_READY is offered where it newly reaches the slab count (R15, R48). -/
def State.recomputeReady (v : Nat) (s : State) : State :=
  let e := s.volume v
  let ready := s.readyCount v
  let s := s.setVolume v { e with ready := ready }
  if ready = e.count ∧ e.ready < e.count then s.offerNotice (.growReady v e.count) else s

/-! ## Jobs and lanes -/

/-- The lane that carries a slab's job. -/
def State.laneOf (s : State) (g : Nat) : Option Nat :=
  (List.range Config.laneCount).find? (fun n => ((s.lane n).job.map Job.slab) = some g)

/-- The claimed target of the lane in CLAIMING that carries a slab's MOVE job (R51, R75). -/
def State.claimedTarget (s : State) (g : Nat) : Option Place :=
  match s.laneOf g with
  | none => none
  | some n => if (s.lane n).state = .claiming then (s.lane n).target else none

/-- The row on which a lockout is in force for a slab (R102). -/
def State.lockedRow (s : State) (g : Nat) : Option Nat :=
  match s.laneOf g with
  | none => none
  | some n => if (s.lane n).lockout then some (s.lane n).row else none

/-- The placement that a lane writes: the target of a MOVE, the home of a FILL (spec/04). -/
def State.writtenPlace (s : State) (l : Lane) : Place :=
  l.target.getD ((l.job.map (fun j => (s.slab j.slab).home)).getD ⟨0, 0⟩)

/-- The slab of a lane's job. -/
def Lane.slab (l : Lane) : Nat := (l.job.map Job.slab).getD 0

/-- Places of the Move Queue that a waiting growth has reserved (R44, R71). -/
def State.reservedPlaces (s : State) : Nat :=
  match s.pm.busy with
  | some (.growing w) => w.new - w.old
  | _ => 0

/-- Jobs in lanes. -/
def State.laneJobs (s : State) : Nat := ((List.range Config.laneCount).filter (fun n => (s.lane n).job.isSome)).length

/-- The free places of the Move Queue (R71). -/
def State.freePlaces (s : State) : Nat := Config.maxJobs - (s.me.jobs.length + s.laneJobs + s.reservedPlaces)

/-- No job waits and every lane is IDLE (R94). -/
def State.jobsIdle (s : State) : Bool :=
  s.me.jobs.isEmpty && (List.range Config.laneCount).all (fun n => (s.lane n).state = .idle)

/-! ## Questions to the Grant Unit (R63, R64) -/

/-- A hold's range overlaps a row of a geometry (R52). -/
def State.holdOverlaps (s : State) (h : Hold) (row width unit : Nat) : Bool :=
  let first := h.first - s.volumeSlab h.slab * s.slabBlocks
  overlapsRow width unit row first (first + h.count - 1)

/-- Whether a LIVE write hold overlaps a row of a slab (R63). -/
def State.writeOverlaps (s : State) (g row width unit : Nat) : Bool :=
  s.gu.holds.any (fun e =>
    decide (e.2.state = .live) && decide (e.2.access = .write) && decide (e.2.slab = g)
      && s.holdOverlaps e.2 row width unit)

/-- How many LIVE WRITE holds on a slab name no target (R64). -/
def State.homeOnlyWrites (s : State) (g : Nat) : Nat :=
  tableCount (fun h : Hold =>
    decide (h.state = .live) && decide (h.access = .write) && decide (h.slab = g) && decide (h.target = none)) s.gu.holds

end Sys2Proof.Machine
end

