-- ==== Sys2Proof/Machine/Journal.lean ====
section
/-! DEFINITION. The Journal Controller (spec/09): numbering and entering records, the room wait list, what is written next, the
ring, compaction, failures and retirement, and the entry into FROZEN. -/

namespace Sys2Proof.Machine

/-! ## Entering records (R148, R150) -/

/-- The journal takes records: WRITING or COMPACTING. -/
def Journal.active (j : Journal) : Bool := decide (j.state = .writing) || decide (j.state = .compacting)

/-- The Journal Queue has room and the admission is open (R150). -/
def Journal.hasRoom (j : Journal) : Bool := j.admission && decide (j.queue.length < Config.journalRecords)

/-- A record takes the next number and joins the Journal Queue (R148, R150). -/
def numberRecord (owner : JOwner) (w : Work) (s : State) : State :=
  let r : Record := ⟨s.jc.nextSeq, w.body, owner, w.reply⟩
  (s.onJc (fun j => { j with queue := j.queue ++ [r], nextSeq := j.nextSeq + 1 })).post (.recordQueued r)

/-- A range is removed from the Damage List in memory, at the event that queues its record (R122, R124). -/
def clearDamage (volume first count : Nat) (s : State) : State :=
  let l := damageRemove volume first count s.me.damage
  s.onMe (fun m => { m with damage := l, lost := if l = [] then false else m.lost })

/-- An owner enters a record. A DAMAGE_CLEAR is checked once more, for the list may have changed while it waited, and changes the
list (R122, R124). A record that would need too great a number waits, and the journal freezes (R148). -/
def enterRecord (owner : JOwner) (w : Work) (s : State) : State :=
  if s.jc.nextSeq ≤ Config.sequenceMax then
    match w.body, w.reply with
    | .damageClear volume first count, some tag =>
      if !damageTouches volume first count s.me.damage then s.refuse tag .ok
      else if damageSplits volume first count s.me.damage && decide (Config.maxDamage ≤ s.me.damage.length) then
        s.refuse tag .noSpace
      else numberRecord owner w (clearDamage volume first count s)
    | _, _ => numberRecord owner w s
  else (s.onJc (fun j => { j with roomWait := (owner, [w]) :: j.roomWait })).post (.freeze .sequenceEnd)

/-- Add a work to an owner that waits for room. -/
def waitFurther (owner : JOwner) (w : Work) : List (JOwner × List Work) → List (JOwner × List Work)
  | [] => [(owner, [w])]
  | (o, ws) :: rest => if o = owner then (o, ws ++ [w]) :: rest else (o, ws) :: waitFurther owner w rest

/-- An owner waits for room in the Journal Queue with a record. -/
def State.waitsForRoom (s : State) (owner : JOwner) : Bool := s.jc.roomWait.any (fun e => decide (e.1 = owner))

/-- Serve the room wait list: the head enters one record, and joins the tail again where it has more (R150). The list is served
further once the owner has acted on the queuing of its record (R122, R151). -/
def serveRoom (s : State) : State :=
  match s.jc.roomWait with
  | [] => s
  | (owner, works) :: rest =>
    if s.jc.hasRoom && decide (s.jc.nextSeq ≤ Config.sequenceMax) then
      match works with
      | [] => (s.onJc (fun j => { j with roomWait := rest })).post .roomServe
      | w :: more =>
        let waiting := if more.isEmpty then rest else rest ++ [(owner, more)]
        (enterRecord owner w (s.onJc (fun j => { j with roomWait := waiting }))).post .roomServe
    else if s.jc.hasRoom then s.post (.freeze .sequenceEnd)
    else s

/-! ## The ring (R154) -/

/-- The distance of a block from the head, in ring order: the block after the head has distance 0, the head 63. -/
def ringDistance (head b : Nat) : Nat := (b + 64 - head % 64 + 63) % 64

/-- The blocks in ring order after the head, the head left out. -/
def blocksAfter (head : Nat) : List Nat := (List.range 63).map (fun i => (head + 1 + i) % 64)

/-- The block that follows the head: the first one that is not on the bad-block list. -/
def State.followingBlock (s : State) (head : Nat) : Option Nat :=
  (blocksAfter head).find? (fun b => (s.storeBlock b).cond ≠ .bad)

/-- The blocks in a condition, in ascending order. -/
def State.blocksIn (s : State) (c : BlockCond) : List Nat :=
  (List.range Config.storeBlocks).filter (fun b => (s.storeBlock b).cond = c)

/-- Usable blocks: those not on the bad-block list (R153). -/
def State.usableBlocks (s : State) : Nat := Config.storeBlocks - (s.blocksIn .bad).length

/-- The bad-block list as flags. -/
def State.badFlags (s : State) : BitVec 64 := poolOf (s.blocksIn .bad)

/-- Change a block's condition. -/
def State.condition (b : Nat) (c : BlockCond) (s : State) : State :=
  s.setStoreBlock b { s.storeBlock b with cond := c }

/-- The head has no page left to write, or is retired (R154). -/
def State.headSpent (s : State) : Bool :=
  match s.jc.head with
  | none => true
  | some h => decide (Config.pagesPerBlock ≤ s.jc.nextPage) || decide ((s.storeBlock h).cond ≠ .head)

/-- The following block becomes HEAD at page 0; an old head that was not retired becomes WRITTEN (R154). -/
def moveHead (h b : Nat) (s : State) : State :=
  let s := if (s.storeBlock h).cond = .head then s.condition h .written else s
  (s.condition b .head).onJc (fun j => { j with head := some b, nextPage := 0 })

/-- A spent head moves on where the following block is ERASED (R153, R154). -/
def moveSpentHead (s : State) : State :=
  match s.jc.head with
  | none => s
  | some h =>
    if s.headSpent then
      match s.followingBlock h with
      | none => s
      | some b => if (s.storeBlock b).cond = .erased then moveHead h b s else s
    else s

/-- Compaction begins: COMPACTING, the notice, the admission closed (R155). -/
def beginCompaction (s : State) : State :=
  (s.onJc (fun j => { j with state := .compacting, admission := false, imageBuilt := false })).offerNotice
    (.journalState .compacting none)

/-- The check at each opening: fewer than 8 ERASED blocks, journal WRITING, no block AWAITING_ERASE (R154). -/
def compactionCheck (s : State) : State :=
  if (s.blocksIn .erased).length < 8 ∧ s.jc.state = .writing ∧ (s.blocksIn .awaiting) = [] then beginCompaction s else s

/-- Open the next block where the head is spent (R154). A following block that awaits its erase is waited for. -/
def openNext (s : State) : State :=
  match s.jc.head with
  | none => s
  | some h =>
    if s.headSpent then
      match s.followingBlock h with
      | none => s.post (.freeze .noErasedBlock)
      | some b =>
        match (s.storeBlock b).cond with
        | .erased => compactionCheck (moveHead h b s)
        | .awaiting => s
        | .head => s.post (.freeze .noErasedBlock)
        | .written => s.post (.freeze .noErasedBlock)
        | .bad => s.post (.freeze .noErasedBlock)
    else s

/-! ## What the store does next (R151, R155, R157) -/

/-- Of two records the lower-numbered one. -/
def lowerRecord (a b : Option Record) : Option Record :=
  match a, b with
  | some x, some y => if x.seq ≤ y.seq then some x else some y
  | some x, none => some x
  | none, y => y

/-- The lowest-numbered record that the JC holds (R151). -/
def Journal.nextRecord (j : Journal) : Option Record :=
  lowerRecord (lowerRecord j.queue.head? j.storePlace.head?) j.imageRecord

/-- Program a record at the head's next page. -/
def programRecord (r : Record) (s : State) : State :=
  match s.jc.head with
  | none => s
  | some h => s.onJc (fun j => { j with op := some (.program s.now h j.nextPage r) })

/-- Number the next image record; the image is built, from the durable account, when the first is due (R155, R156). -/
def nextImageRecord (s : State) : State :=
  let s :=
    if s.jc.imageBuilt then s
    else s.onJc (fun j => { j with imageBuilt := true,
                                   image := j.durable.image ++ [.imageEnd j.nextSeq j.durable.imageParts.length] })
  match s.jc.image with
  | [] => s
  | body :: rest =>
    if s.jc.nextSeq ≤ Config.sequenceMax then
      s.onJc (fun j => { j with image := rest, imageRecord := some ⟨j.nextSeq, body, .jc, none⟩, nextSeq := j.nextSeq + 1 })
    else s.post (.freeze .sequenceEnd)

/-- The oldest block AWAITING_ERASE, in ring order (R157). -/
def State.oldestAwaiting (s : State) : Option Nat :=
  match s.jc.head with
  | none => none
  | some h => (blocksAfter h).find? (fun b => (s.storeBlock b).cond = .awaiting)

/-- Begin the erase of the oldest block that awaits one. -/
def eraseOldest (s : State) : State :=
  match s.oldestAwaiting with
  | none => s
  | some b => s.onJc (fun j => { j with op := some (.erase s.now b) })

/-- In compaction with nothing queued, the image's next record is due, and takes its number where the head has a page for it
(R148, R155). -/
def imageDue (s : State) : State :=
  if s.jc.state = .compacting ∧ s.jc.queue = [] ∧ s.jc.storePlace = [] ∧ s.jc.imageRecord = none ∧ s.headSpent = false then
    nextImageRecord s
  else s

/-- The records of a FORMAT's image are being written: its erasing has ended (R160). -/
def Journal.formatWriting (j : Journal) : Bool := (j.format.map FormatWork.erased) = some true

/-- Begin the next store operation where none is under way: the next record where there is one and the head has a page
for it, else the next erase (R151, R157). -/
def kickStore (s : State) : State :=
  if s.jc.op = none ∧ (s.jc.active ∨ s.jc.formatWriting) then
    let s := imageDue (openNext s)
    match s.jc.nextRecord with
    | some r => if s.headSpent then eraseOldest s else programRecord r s
    | none => eraseOldest s
  else s

/-- An owner has a record to enter (R150): it enters at once, or the owner joins the room wait list with it. A journal that
takes no records makes none. -/
def queueWork (owner : JOwner) (w : Work) (s : State) : State :=
  if s.jc.active then
    if s.jc.hasRoom && s.jc.roomWait.isEmpty then kickStore (enterRecord owner w s)
    else s.onJc (fun j => { j with roomWait := waitFurther owner w j.roomWait })
  else s

/-- Queue a record that no request waits for. -/
def queueRecord (owner : JOwner) (body : RecordBody) (s : State) : State := queueWork owner ⟨body, none⟩ s

/-! ## Durability (R151, R155) -/

/-- Blocks made stale by an image: WRITTEN ones before the block of its IMAGE_BEGIN, in ring order (R155). -/
def staleBlocks (s : State) (imageBlock : Nat) : List Nat :=
  match s.jc.head with
  | none => []
  | some h => (s.blocksIn .written).filter (fun b => ringDistance h b < ringDistance h imageBlock)

/-- IMAGE_END of a compaction is durable (R155). -/
def endCompaction (s : State) : State :=
  match s.jc.imageStart with
  | none => s
  | some (seq, block) =>
    let s := forEach (fun b s => s.condition b .awaiting) (staleBlocks s block) s
    let s := s.onJc (fun j => { j with state := .writing, admission := true, newestImage := some (seq, block),
                                       imageStart := none, imageBuilt := false,
                                       counters := { j.counters with compactions := bump j.counters.compactions } })
    s.offerNotice (.journalState .writing none)

/-- IMAGE_BEGIN is durable: its number and block are kept. In a FORMAT its IMAGE_END takes number 2, ahead of the BLOCK_RETIRE
records that the store place holds (R160; DEDUCED, log 22). -/
def imageBegun (r : Record) (block : Nat) (s : State) : State :=
  match r.body with
  | .imageBegin .. =>
    s.onJc (fun j =>
      if j.formatWriting then
        { j with imageStart := some (r.seq, block), imageRecord := some ⟨2, .imageEnd 1 0, .jc, none⟩,
                 nextSeq := 3 + j.storePlace.length }
      else { j with imageStart := some (r.seq, block) })
  | _ => s

/-- IMAGE_END is durable in a compaction. -/
def imageEnded (r : Record) (s : State) : State :=
  match r.body with
  | .imageEnd .. => if s.jc.state = .compacting then endCompaction s else s
  | _ => s

/-- A record has become durable: it leaves the queue and the account takes it; then its owner is told, the room wait list is
served, and the store goes on, one after another (R151; DEDUCED, log 21). -/
def recordIsDurable (block page : Nat) (r : Record) (s : State) : State :=
  let s := s.onJc (fun j => { j with queue := j.queue.filter (fun q => q.seq ≠ r.seq),
                                     storePlace := j.storePlace.filter (fun q => q.seq ≠ r.seq),
                                     imageRecord := if j.imageRecord = some r then none else j.imageRecord,
                                     durable := applyRecord r.seq r.body j.durable,
                                     nextPage := page + 1, op := none,
                                     counters := { j.counters with durable := bump j.counters.durable } })
  (((imageEnded r (imageBegun r block s)).post (.recordDurable r)).post .roomServe).post .storeNext

/-! ## Failures and retirement (R152, R153) -/

def storeFault (kind : FaultKind) (block : Nat) : FaultOffer := { FaultOffer.bare kind with storeBlock := some block }

/-- A block joins the bad-block list (R153). -/
def markBad (b : Nat) (s : State) : State :=
  (s.condition b .bad).onJc (fun j => { j with counters := { j.counters with retired := bump j.counters.retired } })

/-- Its BLOCK_RETIRE enters the store place with the next number (R148, R150, R153); while a FORMAT writes IMAGE_BEGIN, number 2
is kept for its IMAGE_END (R160; DEDUCED, log 22). -/
def placeRetire (b : Nat) (s : State) : State :=
  if s.jc.formatWriting ∧ s.jc.nextSeq ≤ 2 then
    s.onJc (fun j => { j with storePlace := j.storePlace ++ [⟨3 + j.storePlace.length, .blockRetire b, .jc, none⟩] })
  else if s.jc.nextSeq ≤ Config.sequenceMax then
    s.onJc (fun j => { j with storePlace := j.storePlace ++ [⟨j.nextSeq, .blockRetire b, .jc, none⟩],
                              nextSeq := j.nextSeq + 1 })
  else s.post (.freeze .sequenceEnd)

/-- A block is retired in service (R153). -/
def retireBlock (b : Nat) (s : State) : State :=
  let s := placeRetire b (markBad b s)
  if s.usableBlocks < 16 then s.post (.freeze .fewBlocks) else s

/-- A program has failed (R152): the fault, the failed-page count, the retirement at the third, the same record at the next
page. -/
def programFailed (kind : FaultKind) (block page : Nat) (s : State) : State :=
  let s := s.offerFault (storeFault kind block)
  let e := s.storeBlock block
  let s := s.setStoreBlock block { e with failedPages := e.failedPages + 1 }
  let s := s.onJc (fun j => { j with nextPage := page + 1, op := none,
                                     counters := { j.counters with programFailures := bump j.counters.programFailures } })
  if e.failedPages + 1 = 3 then retireBlock block s else s

/-- An erase has failed or timed out in service (R153, R157). -/
def eraseFailed (kind : FaultKind) (block : Nat) (s : State) : State :=
  let s := s.offerFault (storeFault kind block)
  let s := s.onJc (fun j => { j with op := none,
                                     counters := { j.counters with eraseFailures := bump j.counters.eraseFailures } })
  retireBlock block s

/-- An erase has succeeded: ERASED with failed-page count 0 (R157). -/
def eraseSucceeded (block : Nat) (s : State) : State :=
  (s.setStoreBlock block ⟨.erased, 0⟩).onJc (fun j => { j with op := none })

/-! ## FROZEN (R158) -/

/-- The records that owners were waiting to enter, in the order of the room wait list. -/
def unmade : List (JOwner × List Work) → List Internal
  | [] => []
  | (owner, works) :: rest => works.map (fun w => .recordUnmade owner w) ++ unmade rest

/-- The journal and the part enter FROZEN (R158). Lanes in CLAIMING return their jobs in three groups: those whose JOB_BEGIN was
queued, in the order of the queue; those on the room wait list, in its order; then the others in ascending order. Each job goes to
the head of the Move Queue, so the last of them stands first (R76; the order: DESIGN CHOICE, log 37). -/
def enterFrozen (cause : FrozenCause) (s : State) : State :=
  let discarded := s.jc.queue ++ s.jc.storePlace
  let told : List Internal :=
    discarded.map .recordDiscarded ++ unmade s.jc.roomWait ++ (List.range Config.laneCount).map .laneFrozen ++ [.pmFrozen]
  let s := s.onJc (fun j => { j with state := .frozen, cause := some cause, op := none, queue := [], storePlace := [],
                                     roomWait := [], admission := false, imageBuilt := false, image := [],
                                     imageRecord := none, imageStart := none,
                                     counters := { j.counters with
                                       discarded := bumpBy discarded.length j.counters.discarded } })
  let s := { s with part := .frozen, agenda := s.agenda ++ told }
  s.offerNotice (.journalState .frozen (some cause))

/-- A cause of FROZEN reaches the journal; it enters once. -/
def freezeJournal (cause : FrozenCause) (s : State) : State := if s.jc.active then enterFrozen cause s else s

end Sys2Proof.Machine
end

