-- ==== Sys2Proof/Machine/DrivePort.lean ====
section
/-! DEFINITION. The Drive Port (spec/07): handing over, issue, completion, cancellation, the label buffer, the flush and the
error runs. -/

namespace Sys2Proof.Machine

/-! ## Messages and counters -/

/-- Send a message on the drive link. -/
def State.send (m : FabricMsg) (s : State) : State := s.onDp (fun d => { d with sent := d.sent ++ [m] })

/-- A message discarded or a pull refused (R136). -/
def countLate (s : State) : State :=
  s.onDp (fun d => { d with counters := { d.counters with late := bump d.counters.late } })

/-! ## Error runs (R135) -/

def State.errorRun (s : State) (id : Nat) : Nat := tableRead 0 s.dp.errorRuns id

def State.setErrorRun (id run : Nat) (s : State) : State :=
  s.onDp (fun d => { d with errorRuns := tableWrite 0 d.errorRuns id run })

/-- A counted failure: the run rises, stopping at 3, and at 3 it is reported to the Placement Map. -/
def countFailure (id : Nat) (s : State) : State :=
  let run := min 3 (s.errorRun id + 1)
  let s := s.setErrorRun id run
  if run = 3 then s.post (.memberCause id) else s

/-! ## Pages of a command (R127, R129, R130) -/

def State.labelPlaceBlock (s : State) (p : Nat) : Block := tableRead Block.zero s.dp.labels p

/-- The block at a command's page position. -/
def State.pageOf (s : State) (c : Cmd) (block : Nat) : Block :=
  match c.pages with
  | .staging positions => s.staged (positions.getD block 0)
  | .label (some p) => s.labelPlaceBlock p
  | .label none => Block.zero

/-- Lay a delivered block at a command's page position. -/
def layPage (c : Cmd) (block : Nat) (b : Block) (s : State) : State :=
  match c.pages with
  | .staging positions => s.layBlock (positions.getD block 0) b
  | .label (some p) => s.onDp (fun d => { d with labels := tableWrite Block.zero d.labels p b })
  | .label none => s

/-- Free the label buffer place of a command (R131). -/
def freeLabelPlace (c : Cmd) (s : State) : State :=
  match c.pages with
  | .label (some p) => s.onDp (fun d => { d with labelFree := d.labelFree ++ [p] })
  | .label none => s
  | .staging _ => s

/-! ## Faults of completions (R136) -/

def CmdStatus.fault : CmdStatus → Option FaultKind
  | .good => none
  | .media => some .driveMedia
  | .noDevice => some .driveNoDevice
  | .timeout => some .driveTimeout
  | .cancelled => none

def CmdOwner.lane? : CmdOwner → Option Nat
  | .lane n => some n
  | .admission => none
  | .startCheck => none

/-- The fault of a completion other than GOOD and CANCELLED. -/
def offerCompletionFault (c : Cmd) (status : CmdStatus) (firstFailed : Nat) (s : State) : State :=
  match status.fault with
  | none => s
  | some kind =>
    s.offerFault { kind := kind, member := some c.member,
                   dbn := some (if status = .media then firstFailed else c.dbn),
                   lane := c.owner.lane?, slab := c.context.map Prod.fst, row := c.context.map Prod.snd,
                   storeBlock := none }

/-- The block that a completed label READ has brought. -/
def State.labelRead (s : State) (c : Cmd) : Option Block :=
  match c.owner, c.op with
  | .lane _, _ => none
  | _, .read => some (s.pageOf c 0)
  | _, _ => none

/-! ## Issue (R129) -/

/-- A member to which nothing is issued: FAILED, or its drive not present. -/
def State.unreachable (s : State) (id : Nat) : Bool :=
  decide ((s.member id).state = .failed) || !(s.bay id).present

/-- A command completes NO_DEVICE without an entry: no message, no change of the run, one fault (R129, R136). -/
def completeUnissued (c : Cmd) (s : State) : State :=
  let s := (freeLabelPlace c s).post (.completed ⟨c, .noDevice, 0, false, none⟩)
  offerCompletionFault c .noDevice 0 s

/-- Issue a command in a ring entry. -/
def issue (e : Nat) (c : Cmd) (s : State) : State :=
  let generation := ((s.ring e).generation + 1) % 256
  let s := s.setRing e ⟨generation, some c, s.now + Config.seconds s.dp.driveTmo, 0, false⟩
  let s := s.onDp (fun d => { d with freeOrder := d.freeOrder.filter (fun f => f ≠ e),
                                     counters := { d.counters with issued := bump d.counters.issued } })
  s.send (.command e generation c.member c.op c.dbn c.count)

/-- A command that has its pages: held for the flush (R128), completed NO_DEVICE, issued, or put on the wait list. -/
def accept (c : Cmd) (s : State) : State :=
  if s.dp.flush = .answered then
    if s.unreachable c.member then completeUnissued c s
    else
      match s.dp.freeOrder with
      | e :: _ => issue e c s
      | [] => s.onDp (fun d => { d with waiting := d.waiting ++ [c] })
  else s.onDp (fun d => { d with waiting := d.waiting ++ [c] })

/-- A label command takes the place of the label buffer that has been free longest (R129; which one: DESIGN CHOICE, log 44); a
WRITE's block is laid there, and for a READ the place holds zeros until its data arrives (DESIGN CHOICE, log 53). -/
def takeLabelPlace (p : Nat) (rest : List Nat) (c : Cmd) (s : State) : State :=
  let s := s.onDp (fun d => { d with labelFree := rest,
                                     labels := tableWrite Block.zero d.labels p (c.labelBlock.getD Block.zero) })
  accept { c with pages := .label (some p) } s

/-- An owner hands a command over (R129). A label command that finds no free place waits ahead of the ring wait list, in a list
of its own (DEDUCED, log 45). -/
def handOver (c : Cmd) (s : State) : State :=
  match c.owner with
  | .lane _ => accept c s
  | _ =>
    match s.dp.labelFree with
    | p :: rest => takeLabelPlace p rest c s
    | [] => s.onDp (fun d => { d with labelWait := d.labelWait ++ [c] })

/-- Serve the ring wait list while entries and waiting commands remain (R129). -/
def serveRing : Nat → State → State
  | 0, s => s
  | n + 1, s =>
    match s.dp.freeOrder, s.dp.waiting with
    | e :: _, c :: rest =>
      let s := s.onDp (fun d => { d with waiting := rest })
      serveRing n (if s.unreachable c.member then completeUnissued c s else issue e c s)
    | _, _ => s

/-- Serve the commands that wait for a label place. -/
def serveLabels : Nat → State → State
  | 0, s => s
  | n + 1, s =>
    match s.dp.labelFree, s.dp.labelWait with
    | p :: rest, c :: more => serveLabels n (takeLabelPlace p rest c (s.onDp (fun d => { d with labelWait := more })))
    | _, _ => s

/-- Serve both lists after entries or places have become free. -/
def serveCommands (s : State) : State :=
  if s.dp.flush = .answered then
    let s := serveRing s.dp.waiting.length s
    serveLabels s.dp.labelWait.length s
  else s

/-! ## Completion (R131 to R135) -/

/-- An entry becomes FREE, joins the tail of the free order and gives up its pages (R131). -/
def freeEntry (e : Nat) (c : Cmd) (s : State) : State :=
  let s := s.setRing e (RingEntry.free (s.ring e).generation)
  freeLabelPlace c (s.onDp (fun d => { d with freeOrder := d.freeOrder ++ [e] }))

/-- How a completion changes the member's error run (R135); `counted` where a NO_DEVICE came from the fabric. -/
def updateRun (c : Cmd) (status : CmdStatus) (counted : Bool) (s : State) : State :=
  match status with
  | .timeout => countFailure c.member s
  | .noDevice => if counted then countFailure c.member s else s
  | .good =>
    match c.owner, c.op with
    | .lane _, .write => s
    | .lane _, .readTags => s
    | _, _ => s.setErrorRun c.member 0
  | .media => s
  | .cancelled => s

/-- The ISSUED command of an entry completes: the entry is freed, the owner told, the run updated, the fault offered. -/
def completeEntry (e : Nat) (status : CmdStatus) (firstFailed : Nat) (counted : Bool) (s : State) : State :=
  match (s.ring e).cmd with
  | none => s
  | some c =>
    let done : Completion := ⟨c, status, firstFailed, (s.ring e).mismatch, s.labelRead c⟩
    let s := (freeEntry e c s).post (.completed done)
    offerCompletionFault c status firstFailed (updateRun c status counted s)

/-- The ring entries, in ascending order, whose ISSUED command passes a test. -/
def State.entriesWhere (s : State) (p : Cmd → Bool) : List Nat :=
  (s.dp.ring.filter (fun e => (e.2.cmd.map p).getD false)).map Prod.fst

/-- An entry's command completes CANCELLED, with a cancel message; the owner takes nothing from it (R133). -/
def cancelEntry (e : Nat) (s : State) : State :=
  match (s.ring e).cmd with
  | none => s
  | some c => (freeEntry e c s).send (.cancel e (s.ring e).generation)

/-- Withdraw waiting commands, without completion (R129, R133). -/
def withdraw (p : Cmd → Bool) (s : State) : State :=
  let freed := s.dp.waiting.filter p
  let s := s.onDp (fun d => { d with waiting := d.waiting.filter (fun c => !p c),
                                     labelWait := d.labelWait.filter (fun c => !p c) })
  forEach freeLabelPlace freed s

/-- Cancel the commands of an owner (R133). -/
def cancelCommands (p : Cmd → Bool) (s : State) : State :=
  let s := withdraw p s
  serveCommands (forEach cancelEntry (s.entriesWhere p) s)

/-- An entry's command completes NO_DEVICE given by the port, with a cancel message (R134). -/
def endEntry (e : Nat) (s : State) : State :=
  completeEntry e .noDevice 0 false (s.send (.cancel e (s.ring e).generation))

/-- The Placement Map has failed a member, or an admission to it: its ISSUED commands of the owners named complete
NO_DEVICE (R134). -/
def endCommands (p : Cmd → Bool) (s : State) : State := serveCommands (forEach endEntry (s.entriesWhere p) s)

/-! ## The flush (R128) -/

/-- Send the flush of a restart. -/
def sendFlush (s : State) : State := (s.onDp (fun d => { d with flush := .waiting 1 s.now })).send .flush

/-- The flush is answered, or given up: the commands held are served. -/
def flushDone (s : State) : State := serveCommands (s.onDp (fun d => { d with flush := .answered }))

end Sys2Proof.Machine
end

