-- ==== Sys2Proof/Machine/Lanes.lean ====
section
/-! DEFINITION. A lane at a row: pages and tokens (R79, R81, R108 to R111), the watch and the commit check (spec/05), reading,
reconstruction, writing and verifying (spec/06), and the beginning of an abort (R85). -/

namespace Sys2Proof.Machine

/-! ## The row's geometry -/

/-- The set whose geometry a lane writes. -/
def State.rowSet (s : State) (l : Lane) : SetEntry := s.set (s.writtenPlace l).set

/-- The home placement of a lane's slab. -/
def State.homePlace (s : State) (l : Lane) : Place := (s.slab l.slab).home

/-- The first offset of a lane's row (R112). -/
def State.rowBase (s : State) (l : Lane) : Nat := l.row * rowSpan (s.rowSet l).width (s.rowSet l).unit

/-- The first offset beyond the part of a lane's row that is read: pad offsets are left out (R112). -/
def State.rowStop (s : State) (l : Lane) : Nat :=
  min (s.rowBase l + rowSpan (s.rowSet l).width (s.rowSet l).unit) s.slabBlocks

/-- The staging position of the i-th block of a lane's row: data units in order, the parity unit last (R108). -/
def Lane.position (l : Lane) (i : Nat) : Nat := l.pages.getD (i / 16) 0 * 16 + i % 16

/-- The volume of a lane's slab. -/
def State.laneVolume (s : State) (l : Lane) : Nat := (s.slab l.slab).volume

/-- The tag place of an offset of a lane's slab, in a geometry with so many rows (R23). -/
def State.tagPlace (s : State) (l : Lane) (rows offset : Nat) : TagPlace :=
  dataTagPlace s.slabBlocks (s.laneVolume l) (s.volumeSlab l.slab) rows offset

/-- A lane carries a MOVE job. -/
def Lane.moves (l : Lane) : Bool := (l.job.map Job.kind) = some .move

/-- The watch stands and is BROKEN. -/
def Lane.broken (l : Lane) : Bool := (l.watch.map Watch.intact) = some false

/-- A lane at its writes. -/
def Lane.writes (l : Lane) : Bool := decide (l.state = .writing) || decide (l.state = .verifying)

/-! ## Staging pages (R108 to R110) -/

/-- A lane in WAIT_PAGES takes a reservation of so many free pages, the lowest-numbered ones (DESIGN CHOICE, log 11). -/
def reservePages (n count : Nat) (s : State) : State :=
  if (s.lane n).state = .waitPages then
    let taken := s.sp.free.take count
    ((s.onSp (fun p => { p with free := p.free.drop count })).onLane n
      (fun l => { l with pages := l.pages ++ taken })).post (.pagesGranted n)
  else s

/-- Serve the page wait list: strict order, all or nothing (R109). -/
def servePages : Nat → State → State
  | 0, s => s
  | k + 1, s =>
    match s.sp.waiting with
    | [] => s
    | (n, count) :: rest =>
      if count ≤ s.sp.free.length then servePages k (reservePages n count (s.onSp (fun p => { p with waiting := rest })))
      else s

def State.onPageList (s : State) (n : Nat) : Bool := s.sp.waiting.any (fun e => decide (e.1 = n))

/-- A lane in WAIT_PAGES asks for its row's pages, unless a record of its own still waits for room (R77, R80, R109). -/
def askPages (n : Nat) (s : State) : State :=
  let l := s.lane n
  if l.state = .waitPages ∧ l.pages = [] ∧ s.waitsForRoom (.lane n) = false ∧ s.onPageList n = false then
    let count := rowPages (s.rowSet l)
    if s.sp.waiting = [] ∧ count ≤ s.sp.free.length then reservePages n count s
    else s.onSp (fun p => { p with waiting := p.waiting ++ [(n, count)] })
  else s

/-- A lane's record becomes one that holds no page: the pages that it held are free again, and the wait list is served (R110). -/
def releaseAs (n : Nat) (l : Lane) (s : State) : State :=
  let pages := (s.lane n).pages
  let s := s.onSp (fun p => { p with free := pages.foldr insertRising p.free })
  servePages Config.laneCount (s.setLane n l)

/-- A reservation is released whole, and the wait list is served (R110). -/
def releasePages (n : Nat) (s : State) : State := releaseAs n { s.lane n with pages := [] } s

/-- A lane leaves the page wait list (R110). -/
def leavePageList (n : Nat) (s : State) : State :=
  servePages Config.laneCount (s.onSp (fun p => { p with waiting := p.waiting.filter (fun e => e.1 ≠ n) }))

/-! ## Rate tokens (R81) -/

/-- A lane holding its pages enters WAIT_TOKEN and takes a token, or waits for one. -/
def enterToken (n : Nat) (s : State) : State :=
  let l := s.lane n
  if l.state = .waitPages ∧ l.pages ≠ [] then
    let s := s.onLane n (fun l => { l with state := .waitToken })
    if s.me.moveRate = 0 then s.post (.rowStart n)
    else if 0 < s.me.tokens ∧ s.me.tokenOrder = [] then
      (s.onMe (fun m => { m with tokens := m.tokens - 1 })).post (.rowStart n)
    else s.onMe (fun m => { m with tokenOrder := m.tokenOrder ++ [n] })
  else s

/-- A lane leaves the token order without a token. -/
def leaveTokens (n : Nat) (s : State) : State :=
  s.onMe (fun m => { m with tokenOrder := m.tokenOrder.filter (fun k => k ≠ n) })

/-- Give tokens to the lanes that wait, in order, while there are any. -/
def serveTokens : Nat → State → State
  | 0, s => s
  | k + 1, s =>
    match s.me.tokenOrder with
    | [] => s
    | n :: rest =>
      if 0 < s.me.tokens then
        serveTokens k ((s.onMe (fun m => { m with tokens := m.tokens - 1, tokenOrder := rest })).post (.rowStart n))
      else s

/-- Every waiting lane passes: the rate window is off (R81). -/
def passTokens (s : State) : State :=
  let waiting := s.me.tokenOrder
  forEach (fun n s => s.post (.rowStart n)) waiting (s.onMe (fun m => { m with tokenOrder := [] }))

/-! ## Attempts (R79, R93) -/

/-- A lane begins an attempt at its row: WAIT_PAGES, or PAUSED where the pause mode is on and no lockout stands. -/
def startAttempt (n : Nat) (s : State) : State :=
  let s := s.onLane n (fun l => { l with work := RowWork.none, backoffEnd := none })
  if s.me.paused ∧ (s.lane n).lockout = false then s.onLane n (fun l => { l with state := .paused })
  else askPages n (s.onLane n (fun l => { l with state := .waitPages }))

/-! ## The recovery set (R111) -/

/-- A lane asks for the recovery set and is in RECOVERING. -/
def askRecovery (n : Nat) (s : State) : State :=
  let s := s.onLane n (fun l => { l with state := .recovering })
  if s.sp.holder = none ∧ s.sp.recoveryWait = [] then
    (s.onSp (fun p => { p with holder := some n })).post (.recoveryGranted n)
  else s.onSp (fun p => { p with recoveryWait := p.recoveryWait ++ [n] })

/-- The holder releases the set, which passes to the head of the wait list. -/
def releaseRecovery (n : Nat) (s : State) : State :=
  if s.sp.holder = some n then
    match s.sp.recoveryWait with
    | [] => s.onSp (fun p => { p with holder := none })
    | m :: rest => (s.onSp (fun p => { p with holder := some m, recoveryWait := rest })).post (.recoveryGranted m)
  else s

def leaveRecovery (n : Nat) (s : State) : State :=
  s.onSp (fun p => { p with recoveryWait := p.recoveryWait.filter (fun k => k ≠ n) })

/-! ## Handing commands over -/

/-- A lane hands commands over, in order. -/
def handOverAll (n : Nat) (cmds : List Cmd) (s : State) : State :=
  forEach handOver cmds (s.onLane n (fun l => { l with commands := l.commands + cmds.length }))

/-- A lane's command for a stretch of staging positions. -/
def laneCmd (n : Nat) (l : Lane) (use : CmdUse) (op : DriveOp) (place : Nat × Nat) (positions : List Nat) : Cmd :=
  { owner := .lane n, use := use, member := place.1, op := op, dbn := place.2, count := positions.length,
    pages := .staging positions, context := some (l.slab, l.row), labelBlock := none }

/-! ## Reading the source (R112, R113) -/

/-- The READ of a source run (R112). -/
def State.runCmd (s : State) (n : Nat) (l : Lane) (run : Nat × Nat) : Cmd :=
  let h := s.set (s.homePlace l).set
  laneCmd n l (.run (run.1 / h.unit)) .read (memberBlock h (s.homePlace l).slot run.1)
    ((List.range run.2).map (fun i => l.position (run.1 - s.rowBase l + i)))

/-- The source runs of a lane's row (R112). -/
def State.laneRuns (s : State) (l : Lane) : List (Nat × Nat) :=
  sourceRuns (s.set (s.homePlace l).set).unit (s.rowStop l - s.rowBase l) (s.rowBase l) (s.rowStop l)

/-- A MOVE lane enters READING and issues its row's source reads (R112). -/
def issueReads (n : Nat) (s : State) : State :=
  let l := s.lane n
  handOverAll n ((s.laneRuns l).map (s.runCmd n l)) (s.onLane n (fun l => { l with state := .reading }))

/-- A source unit is lost (R113). -/
def loseUnit (n unit : Nat) (s : State) : State :=
  s.onLane n (fun l => { l with work := { l.work with lost := insertRising unit l.work.lost } })

/-- A fault that a lane offers of a block (R113, R119). -/
def laneFault (kind : FaultKind) (n : Nat) (c : Cmd) (dbn : Nat) : FaultOffer :=
  { kind := kind, member := some c.member, dbn := some dbn, lane := some n, slab := c.context.map Prod.fst,
    row := c.context.map Prod.snd, storeBlock := none }

/-- The stretches of consecutive hits of a list, as (first, count), counted from `i`. -/
def stretches : List Bool → Nat → List (Nat × Nat)
  | [], _ => []
  | hit :: rest, i =>
    match hit, stretches rest (i + 1) with
    | false, more => more
    | true, (first, count) :: more => if first = i + 1 then (i, count + 1) :: more else (i, 1) :: (first, count) :: more
    | true, [] => [(i, 1)]

/-- Damage of a lane's slab is noted with its row, in ascending order (R121). -/
def noteDamage (n offset count : Nat) (cause : DamageCause) (s : State) : State :=
  let l := s.lane n
  let d : Damage := ⟨s.laneVolume l, s.vlb l.slab offset, count, cause⟩
  s.onLane n (fun l => { l with work := { l.work with damage := damageInsert d l.work.damage } })

/-- The outcomes of a command's blocks, against the tag places of its offsets. -/
def State.outcomes (s : State) (c : Cmd) (placeOf : Nat → TagPlace) : List TagOutcome :=
  (List.range c.count).map (fun i => checkTag (s.pageOf c i) (placeOf i))

/-- The blocks of a completed source run are checked (R113): a CORRUPT one loses the unit and is faulted once, else the
POISONED ones are noted as FOUND. Of several CORRUPT blocks the fault names the first (DEDUCED, log 42); a POISONED block of a
run with a CORRUPT one is rebuilt with its unit and noted nowhere (DEDUCED, log 41). -/
def checkRun (n unit : Nat) (c : Cmd) (s : State) : State :=
  let l := s.lane n
  let h := s.set (s.homePlace l).set
  let first := max (s.rowBase l) (unit * h.unit)
  let seen := s.outcomes c (fun i => s.tagPlace l h.rows (first + i))
  match seen.findIdx? (fun o => o = .corrupt) with
  | some i => loseUnit n unit (s.offerFault (laneFault .tagCorrupt n c (c.dbn + i)))
  | none =>
    forEach (fun (r : Nat × Nat) s => noteDamage n (first + r.1) r.2 .found s)
      (stretches (seen.map (fun o => o = .poisoned)) 0) s

/-- A source run has completed; with the last one the lane settles its lost units, or goes to the commit check of a
BROKEN watch (R97, R113). -/
def runCompleted (n unit : Nat) (c : Completion) (s : State) : State :=
  let s := if c.status = .good then checkRun n unit c.cmd s else loseUnit n unit s
  let l := s.lane n
  if l.commands = 0 then s.post (if l.broken then .commitCheck n else .settleLost n) else s

/-! ## Poison, reconstruction and parity (R114 to R116) -/

/-- The offsets of a source unit that lie in the part of a lane's row that is read. -/
def State.unitOffsets (s : State) (l : Lane) (unit : Nat) : List Nat :=
  let u := (s.set (s.homePlace l).set).unit
  ((List.range u).map (fun i => unit * u + i)).filter
    (fun o => decide (s.rowBase l ≤ o) && decide (o < s.rowStop l))

/-- Stage an offset of a lane's row as poison (R116). -/
def poisonOffset (n offset : Nat) (s : State) : State :=
  let l := s.lane n
  s.layBlock (l.position (offset - s.rowBase l)) (poisonBlock (s.tagPlace l (s.rowSet l).rows offset))

/-- Drop the noted ranges that lie within a stretch of VLBs. -/
def forgetDamage (first count : Nat) (ds : List Damage) : List Damage :=
  ds.filter (fun d => !(decide (first ≤ d.first) && decide (d.stop ≤ first + count)))

/-- A lost unit that cannot be rebuilt is staged as poison and noted as damage (R115). -/
def poisonUnit (n unit : Nat) (s : State) : State :=
  let l := s.lane n
  match s.unitOffsets l unit with
  | [] => s
  | first :: rest =>
    let count := rest.length + 1
    let cause : DamageCause := if (s.set (s.homePlace l).set).state = .failed then .salvage else .sourceLost
    let s := forEach (poisonOffset n) (first :: rest) s
    let s := s.onMe (fun m => { m with counters := { m.counters with
      poisonedBlocks := bumpBy count m.counters.poisonedBlocks } })
    let s := s.onLane n (fun l => { l with work := { l.work with
      damage := forgetDamage (s.vlb l.slab first) count l.work.damage } })
    noteDamage n first count cause s

/-- The data units of a source row, numbered within the slab, that hold data and are not the given one. -/
def State.otherUnits (s : State) (l : Lane) (unit : Nat) : List Nat :=
  let h := s.set (s.homePlace l).set
  let d := h.width - 1
  ((List.range d).map (fun j => unit / d * d + j)).filter (fun v => v ≠ unit && decide (v * h.unit < s.slabBlocks))

/-- The units read for a reconstruction, in the order in which they are laid in the recovery pages: the other data units,
then parity (R114; the order: DESIGN CHOICE, log 43). -/
def State.survivors (s : State) (l : Lane) (unit : Nat) : List (Option Nat) := (s.otherUnits l unit).map some ++ [none]

/-- The member and first block of a unit of the source row that holds `unit`. -/
def State.survivorPlace (s : State) (l : Lane) (unit : Nat) (v : Option Nat) : Nat × Nat :=
  let h := s.set (s.homePlace l).set
  let d := h.width - 1
  let row := unit / d
  let position := match v with
    | none => parityPosition h.width row
    | some v => dataPosition h.width row (v % d)
  unitBlocks h (s.homePlace l).slot row position

/-- The recovery position of block i of the k-th unit read (R111, R114). -/
def recoveryPosition (unit k i : Nat) : Nat := Config.recoveryFirstPage * 16 + k * unit + i

/-- The recovery position of block i of the rebuilt unit: the last four recovery pages (R114). -/
def rebuiltPosition (i : Nat) : Nat := 252 * 16 + i

/-- Holding the recovery set, a lane reads the other units of the source row (R114). -/
def startRebuild (n : Nat) (s : State) : State :=
  let l := s.lane n
  match l.work.lost with
  | [] => s
  | unit :: _ =>
    let u := (s.set (s.homePlace l).set).unit
    let vs := s.survivors l unit
    let cmds := (List.range vs.length).map (fun k =>
      let v := vs.getD k none
      laneCmd n l (.rebuild v) .read (s.survivorPlace l unit v) ((List.range u).map (recoveryPosition u k)))
    let s := s.onLane n (fun l => { l with work := { l.work with rebuilding := some unit, badUnits := [],
                                                                 parityBad := false } })
    handOverAll n cmds s

/-- The recovery set has been granted to a waiting lane (R111). -/
def recoveryGranted (n : Nat) (s : State) : State :=
  if s.sp.holder = some n ∧ (s.lane n).state = .recovering ∧ (s.lane n).work.rebuilding = none then startRebuild n s else s

/-- A unit read for a reconstruction does not stand. -/
def failSurvivor (n : Nat) (v : Option Nat) (s : State) : State :=
  s.onLane n (fun l => { l with work := match v with
    | none => { l.work with parityBad := true }
    | some v => { l.work with badUnits := insertRising v l.work.badUnits } })

/-- The tag place of block i of a unit read for the reconstruction of `unit` (R114). -/
def State.survivorTag (s : State) (l : Lane) (unit : Nat) (v : Option Nat) (i : Nat) : TagPlace :=
  let h := s.set (s.homePlace l).set
  match v with
  | none => parityTagPlace (s.homePlace l).set (unit / (h.width - 1))
  | some v => s.tagPlace l h.rows (v * h.unit + i)

/-- The blocks of a unit read for a reconstruction are checked: data may be GOOD or POISONED, parity only GOOD (R114). The fault
names the first bad block (DEDUCED, log 42). -/
def checkSurvivor (n : Nat) (v : Option Nat) (c : Cmd) (s : State) : State :=
  let l := s.lane n
  match l.work.rebuilding with
  | none => s
  | some unit =>
    let seen := s.outcomes c (s.survivorTag l unit v)
    match seen.findIdx? (fun o => o = .corrupt) with
    | some i => failSurvivor n v (s.offerFault (laneFault .tagCorrupt n c (c.dbn + i)))
    | none => if v = none ∧ seen.any (fun o => o = .poisoned) then failSurvivor n v s else s

/-- The exclusive-or of the data of some staging positions. -/
def State.xorData (s : State) (positions : List Nat) : BlockData :=
  positions.foldl (fun d p => d ^^^ (s.staged p).data) 0

/-- Rebuild block i of a lost unit, and copy it into the row where its offset falls there: with its DATA tag, or as poison
where an entry of the Damage List holds its VLB (R114). -/
def rebuildBlock (n unit : Nat) (i : Nat) (s : State) : State :=
  let l := s.lane n
  let h := s.set (s.homePlace l).set
  let offset := unit * h.unit + i
  let place := s.tagPlace l h.rows offset
  let data := s.xorData ((List.range (s.survivors l unit).length).map (fun k => recoveryPosition h.unit k i))
  let s := s.layBlock (rebuiltPosition i) (taggedBlock data place)
  if s.rowBase l ≤ offset ∧ offset < s.rowStop l then
    if damageCovers (s.laneVolume l) (s.vlb l.slab offset) s.me.damage then
      (poisonOffset n offset s).onMe (fun m => { m with counters := { m.counters with
        poisonedBlocks := bump m.counters.poisonedBlocks } })
    else s.layBlock (l.position (offset - s.rowBase l)) (taggedBlock data place)
  else s

/-- A lost unit is rebuilt (R114). -/
def rebuildUnit (n unit : Nat) (s : State) : State :=
  let s := forEach (rebuildBlock n unit) (List.range (s.set (s.homePlace (s.lane n)).set).unit) s
  s.onMe (fun m => { m with counters := { m.counters with reconstructions := bump m.counters.reconstructions } })

/-- Units of a lane's row have been settled; the next lost unit is looked at. -/
def unitsSettled (n : Nat) (units : List Nat) (s : State) : State :=
  (s.onLane n (fun l => { l with work := { l.work with
    lost := l.work.lost.filter (fun v => !units.contains v), rebuilding := none, badUnits := [],
    parityBad := false } })).post (.settleLost n)

/-- The reads of a reconstruction have ended: the unit is rebuilt where every unit stands, else it is poison, and so is
every data unit of the row's span found lost by these reads (R114, R115). -/
def finishRebuild (n : Nat) (s : State) : State :=
  let w := (s.lane n).work
  match w.rebuilding with
  | none => s
  | some unit =>
    if w.parityBad = false ∧ w.badUnits = [] then
      unitsSettled n [unit] (releaseRecovery n (rebuildUnit n unit s))
    else
      let units := unit :: w.badUnits
      unitsSettled n units (releaseRecovery n (forEach (poisonUnit n) units s))

/-- A read of a reconstruction has completed. -/
def rebuildCompleted (n : Nat) (v : Option Nat) (c : Completion) (s : State) : State :=
  let s := if c.status = .good then checkSurvivor n v c.cmd s else failSurvivor n v s
  let l := s.lane n
  if l.commands = 0 then (if l.broken then s.post (.commitCheck n) else finishRebuild n s) else s

/-- The pad blocks of a lane's row are staged: zeros with their PAD tags (R22, R116). -/
def stagePad (n : Nat) (s : State) : State :=
  let l := s.lane n
  let e := s.rowSet l
  forEach (fun i s => s.layBlock (l.position i) (taggedBlock 0 (s.tagPlace l e.rows (s.rowBase l + i))))
    ((List.range (rowSpan e.width e.unit)).filter (fun i => decide (s.slabBlocks ≤ s.rowBase l + i))) s

/-- The parity unit of a lane's row is staged: the exclusive-or of its data units (R116). -/
def stageParity (n : Nat) (s : State) : State :=
  let l := s.lane n
  let e := s.rowSet l
  forEach
    (fun b s =>
      let data := s.xorData ((List.range (e.width - 1)).map (fun j => l.position (j * e.unit + b)))
      s.layBlock (l.position (rowSpan e.width e.unit + b))
        (taggedBlock data (parityTagPlace (s.writtenPlace l).set l.row)))
    (List.range e.unit) s

/-! ## Fill rows (R117) -/

/-- A FILL row is staged: zeros with DATA tags, pad, and parity of zeros (R117). -/
def stageFill (n : Nat) (s : State) : State :=
  let l := s.lane n
  let e := s.rowSet l
  let s := forEach (fun i s => s.layBlock (l.position i) (taggedBlock 0 (s.tagPlace l e.rows (s.rowBase l + i))))
    (List.range (rowSpan e.width e.unit)) s
  forEach (fun b s => s.layBlock (l.position (rowSpan e.width e.unit + b))
      (taggedBlock 0 (parityTagPlace (s.writtenPlace l).set l.row)))
    (List.range e.unit) s

/-! ## Writing and verifying (R118, R119) -/

/-- The command for the unit at a position of a lane's row (R118). -/
def State.unitCmd (s : State) (n : Nat) (l : Lane) (use : CmdUse) (op : DriveOp) (position : Nat) : Cmd :=
  let e := s.rowSet l
  let k := (unitAt e.width l.row position).getD (e.width - 1)
  laneCmd n l use op (unitBlocks e (s.writtenPlace l).slot l.row position)
    ((List.range e.unit).map (fun i => l.position (k * e.unit + i)))

/-- The member at a position of the set that a lane writes. -/
def State.positionMember (s : State) (l : Lane) (position : Nat) : Nat :=
  ((s.rowSet l).positions.getD position ⟨0, 0⟩).member

/-- The positions that a lane writes: a FILL row skips a failed position (R117). -/
def State.writtenPositions (s : State) (l : Lane) : List Nat :=
  (List.range (s.rowSet l).width).filter
    (fun p => l.moves || !decide ((s.member (s.positionMember l p)).state = .failed))

/-- A lane enters WRITING and issues its row's writes in ascending order of position (R118). -/
def issueWrites (n : Nat) (s : State) : State :=
  let l := s.lane n
  let ps := s.writtenPositions l
  let s := s.onLane n (fun l => { l with state := .writing, work := { l.work with unsettled := ps, failedOnce := [],
                                                                                  again := false } })
  if ps.isEmpty then s.post (.commitCheck n)
  else handOverAll n (ps.map (fun p => s.unitCmd n l (.write p) .write p)) s

/-- The lost units of a lane's row are settled one at a time, in ascending order; with none left the row is handed to the
Parity and Tag Unit and its writes are issued (R113 to R116). -/
def settleLost (n : Nat) (s : State) : State :=
  let l := s.lane n
  if (l.state = .reading ∨ l.state = .recovering) ∧ l.broken = false then
    match l.work.lost with
    | [] => issueWrites n (stageParity n (stagePad n s))
    | unit :: _ =>
      let h := s.set (s.homePlace l).set
      let d := h.width - 1
      let same := l.work.lost.filter (fun v => v / d = unit / d)
      let parity := (h.positions.getD (parityPosition h.width (unit / d)) ⟨0, 0⟩).member
      if 2 ≤ same.length then unitsSettled n same (forEach (poisonUnit n) same s)
      else if (s.member parity).state = .failed then unitsSettled n [unit] (poisonUnit n unit s)
      else askRecovery n s
  else s

/-- Whether a lane may issue a further command for its row (R97, R119). -/
def Lane.mayIssue (l : Lane) : Bool := !l.broken && !l.work.again

/-- A unit of the row is settled: passed or skipped. -/
def unitDone (n position : Nat) (s : State) : State :=
  s.onLane n (fun l => { l with work := { l.work with unsettled := l.work.unsettled.filter (fun p => p ≠ position) } })

/-- After a completion at the writes: the row is begun again, or its commit check is due, when nothing is left to wait
for (R97, R119). -/
def rowProgress (n : Nat) (s : State) : State :=
  let l := s.lane n
  if l.writes then
    if l.work.again then (if l.commands = 0 then s.post (.rowAgain n) else s)
    else if l.broken then (if l.commands = 0 then s.post (.commitCheck n) else s)
    else if l.work.unsettled = [] then s.post (.commitCheck n)
    else s
  else s

/-! ## The beginning of an abort (R85) -/

/-- The commands of a lane. -/
def ofLane (n : Nat) (c : Cmd) : Bool := decide (c.owner = .lane n)

/-- The commands of a lane that it waits for: not those of units that it has skipped (R117; log 38). -/
def awaitedBy (n : Nat) (c : Cmd) : Bool := ofLane n c && !decide (c.use = .skipped)

/-- A work that carries a FRONT record. -/
def Work.isFront (w : Work) : Bool :=
  match w.body with
  | .front .. => true
  | _ => false

/-- Drop works of a lane that wait for room; an owner left without works leaves the list. -/
def dropWorks (n : Nat) (p : Work → Bool) (s : State) : State :=
  let kept := s.jc.roomWait.map (fun e => if e.1 = .lane n then (e.1, e.2.filter (fun w => !p w)) else e)
  s.onJc (fun j => { j with roomWait := kept.filter (fun e => !e.2.isEmpty) })

/-- A lane gives up its row: its commands are cancelled, its pages, token place and recovery set are given up, and its
watch, lockout and back-off end (R85, R88). -/
def abandonRow (n : Nat) (s : State) : State :=
  let s := cancelCommands (ofLane n) s
  let s := s.onLane n (fun l => { l with commands := 0, watch := none, lockout := false, backoffEnd := none,
                                         work := RowWork.none })
  leaveTokens n (leaveRecovery n (releaseRecovery n (releasePages n (leavePageList n s))))

/-- An abort begins (R85). -/
def abortLane (n : Nat) (cause : AbortCause) (s : State) : State :=
  let l := s.lane n
  let s := abandonRow n (s.onLane n (fun l => { l with state := .aborting, cause := some cause }))
  let s := dropWorks n Work.isFront s
  let s := if l.lockout then s.post (.reevaluate l.slab) else s
  queueRecord (.lane n) (.jobAbort l.slab) s

/-! ## Unit outcomes (R119) -/

/-- A unit has failed a second time: the verify error is reported and faulted; a MOVE aborts with TARGET_VERIFY, a FILL row
is begun again (R88, R119). -/
def secondFailure (n : Nat) (c : Cmd) (s : State) : State :=
  let s := s.offerFault (laneFault .verifyMismatch n c c.dbn)
  let s := countFailure c.member s
  if (s.lane n).moves then abortLane n .targetVerify s
  else s.onLane n (fun l => { l with work := { l.work with again := true } })

/-- A unit has failed for the first time: it is rewritten once, unless the lane issues nothing more (R97, R119). -/
def firstFailure (n position : Nat) (s : State) : State :=
  let s := s.onLane n (fun l => { l with work := { l.work with failedOnce := l.work.failedOnce ++ [position] } })
  let s := s.onMe (fun m => { m with counters := { m.counters with verifyRewrites := bump m.counters.verifyRewrites } })
  let l := s.lane n
  if l.mayIssue then handOverAll n [s.unitCmd n l (.write position) .write position] s else s

/-- A unit's write or read-back has failed (R117 to R119). -/
def unitFailed (n position : Nat) (c : Cmd) (s : State) : State :=
  let l := s.lane n
  if (s.member c.member).state = .failed then (if l.moves then s else unitDone n position s)
  else if l.work.failedOnce.contains position then secondFailure n c s
  else firstFailure n position s

/-- A unit's WRITE has completed: GOOD is followed by its READ_TAGS (R118). -/
def writeCompleted (n position : Nat) (c : Completion) (s : State) : State :=
  let l := s.lane n
  rowProgress n
    (if c.status = .good then
      if l.mayIssue then
        handOverAll n [s.unitCmd n l (.verify position) .readTags position]
          (s.onLane n (fun l => { l with state := .verifying }))
      else s
    else unitFailed n position c.cmd s)

/-- A unit's READ_TAGS has completed: it passes, or it fails (R119, R135). -/
def verifyCompleted (n position : Nat) (c : Completion) (s : State) : State :=
  rowProgress n
    (if c.status = .good ∧ c.mismatch = false then (unitDone n position s).setErrorRun c.cmd.member 0
    else unitFailed n position c.cmd s)

/-- A completion counts against the commands that a lane still waits for. -/
def countCompleted (n : Nat) (s : State) : State := s.onLane n (fun l => { l with commands := l.commands - 1 })

/-- A lane's command has completed. A lane that has left the row takes nothing from it (R113, R133), nor from the command of a
unit that it has skipped (R117). -/
def laneCompleted (n : Nat) (c : Completion) (s : State) : State :=
  let t := countCompleted n s
  match c.cmd.use with
  | .run unit => if (s.lane n).state = .reading then runCompleted n unit c t else t
  | .rebuild v => if (s.lane n).state = .recovering then rebuildCompleted n v c t else t
  | .write position => if (s.lane n).writes then writeCompleted n position c t else t
  | .verify position => if (s.lane n).writes then verifyCompleted n position c t else t
  | .skipped => s
  | .label => t

/-! ## The watch (R95 to R97, R104) -/

/-- A MOVE lane sets its watch: from the Grant Unit's answer, or INTACT under a lockout (R95, R104). -/
def setWatch (n : Nat) (s : State) : State :=
  let l := s.lane n
  let e := s.rowSet l
  let intact := l.lockout || !s.writeOverlaps l.slab l.row e.width e.unit
  s.onLane n (fun l => { l with watch := some ⟨l.row, intact⟩ })

/-- A lane leaves WAIT_TOKEN: a FILL row is staged and written; a MOVE lane sets its watch and reads, or goes straight to
the commit check (R79, R95, R112, R117). -/
def rowStart (n : Nat) (s : State) : State :=
  let l := s.lane n
  if l.state = .waitToken ∧ s.me.tokenOrder.contains n = false then
    if l.moves then
      let s := setWatch n s
      if (s.lane n).broken then s.post (.commitCheck n) else issueReads n s
    else issueWrites n (stageFill n s)
  else s

/-- A granted range overlaps the row of a lane's INTACT watch: it becomes BROKEN, waiting commands are withdrawn, and with
no command outstanding the commit check follows (R96, R97, R129). -/
def breakWatch (n : Nat) (s : State) : State :=
  let withdrawn := (s.dp.waiting.filter (awaitedBy n)).length
  let s := leaveRecovery n (withdraw (ofLane n) s)
  let s := s.onLane n (fun l => { l with watch := l.watch.map (fun w => { w with intact := false }),
                                         commands := l.commands - withdrawn })
  if (s.lane n).commands = 0 then s.post (.commitCheck n) else s

/-- A mirrored grant is handed to the Move Engine: the watch it overlaps breaks (R51, R96). -/
def meetGrant (g first count : Nat) (s : State) : State :=
  match s.laneOf g with
  | none => s
  | some n =>
    let l := s.lane n
    let e := s.rowSet l
    match l.watch with
    | none => s
    | some w =>
      let offset := first - s.volumeSlab g * s.slabBlocks
      if w.intact ∧ overlapsRow e.width e.unit w.row offset (offset + count - 1) then breakWatch n s else s

/-! ## The commit check (R80, R98 to R103) -/

/-- A range of damage is added to the Damage List, with its notice (R121). -/
def addDamage (d : Damage) (s : State) : State :=
  let r := damageAdd d s.me.damage
  let s := s.onMe (fun m => { m with damage := r.1,
                                     lost := if r.1 = [] then false else m.lost || decide (0 < r.2),
                                     counters := { m.counters with
                                       damageOverflow := bumpBy r.2 m.counters.damageOverflow } })
  s.offerNotice (.damageAdded d (decide (0 < r.2)))

/-- A committed row's range goes to the journal and with its record to the list; in FROZEN to the list alone (R121, R122). -/
def commitDamage (n : Nat) (d : Damage) (s : State) : State :=
  if s.jc.state = .frozen then addDamage d s else queueRecord (.lane n) (.damageAdd d) s

/-- A record is the FRONT of a slab. -/
def Record.frontOf (r : Record) (g : Nat) : Bool :=
  match r.body with
  | .front g' _ => decide (g' = g)
  | _ => false

/-- A FRONT record is due (R80). -/
def State.frontDue (s : State) (g : Nat) : Bool :=
  let e := s.slab g
  decide (s.me.ckptRows ≤ e.front - e.persisted) && !s.jc.queue.any (fun r => r.frontOf g)
    && !decide (s.jc.state = .frozen)

/-- A lane whose front has reached the last row enters FINISHING and queues JOB_END (R82, R83). -/
def finishLane (n : Nat) (j : Job) (s : State) : State :=
  queueRecord (.lane n) (.jobEnd j.slab j.kind) (s.onLane n (fun l => { l with state := .finishing }))

/-- A lane goes on at its row: it finishes where no row of the geometry being written is left, and else begins an attempt (R79,
R80, R82, R83). A lane may find none left at the claim of a restart job too, where the last FRONT is durable and the JOB_END is
lost: it finishes at once (R18; DEDUCED, log 47). -/
def nextRow (n : Nat) (j : Job) (s : State) : State :=
  let l := s.lane n
  if l.row = (s.rowSet l).rows then finishLane n j s else startAttempt n s

/-- A row commits (R80, R98, R105, R121). -/
def commitRow (n : Nat) (j : Job) (s : State) : State :=
  let l := s.lane n
  let front := l.row + 1
  let s := releasePages n s
  let s := s.onLane n (fun l => { l with breaks := 0, watch := none, lockout := false, row := front,
                                         work := RowWork.none })
  let s := s.setSlab j.slab { s.slab j.slab with front := front }
  let s := if j.kind = .move then
      s.onMe (fun m => { m with counters := { m.counters with rowsCopied := bump m.counters.rowsCopied } })
    else s
  let s := forEach (commitDamage n) l.work.damage s
  let s := if s.frontDue j.slab then queueRecord (.lane n) (.front j.slab front) s else s
  let s := if l.lockout then s.post (.reevaluate j.slab) else s
  nextRow n j s

/-- The delay drawn from the shift register: its lowest k bits, in ms (R99). -/
def drawnDelay (register : BitVec 16) (breaks bits : Nat) : Nat := register.toNat % 2 ^ (min breaks bits)

/-- A row is discarded at a broken check: a lockout, a back-off, or a new attempt (R98 to R100, R103). -/
def breakRow (n : Nat) (s : State) : State :=
  let s := releasePages n (releaseRecovery n s)
  let s := s.onLane n (fun l => { l with watch := none, breaks := l.breaks + 1, work := RowWork.none })
  let s := s.onMe (fun m => { m with counters := { m.counters with watchBreaks := bump m.counters.watchBreaks } })
  let l := s.lane n
  if s.me.lockAfter ≤ l.breaks then
    let s := s.onLane n (fun l => { l with lockout := true, state := .lockoutWait })
    let s := s.onMe (fun m => { m with counters := { m.counters with lockouts := bump m.counters.lockouts } })
    if s.writeOverlaps l.slab l.row (s.rowSet l).width (s.rowSet l).unit then s else startAttempt n s
  else if s.me.paused then s.onLane n (fun l => { l with state := .paused })
  else
    let delay := drawnDelay s.clock.lfsr l.breaks s.me.backoffBits
    if delay = 0 then startAttempt n s
    else s.onLane n (fun l => { l with state := .backoff, backoffEnd := some (s.now + Config.ms delay) })

/-- The commit check of a row: a MOVE row by its watch, a FILL row always commits (R79, R98). -/
def commitCheck (n : Nat) (s : State) : State :=
  let l := s.lane n
  match l.job, l.watch with
  | some j, some w => if w.intact then commitRow n j s else breakRow n s
  | some j, none => if j.kind = .fill ∧ l.writes then commitRow n j s else s
  | none, _ => s

/-- A FILL row whose unit failed twice is begun again once its last command has completed (R119). -/
def rowAgain (n : Nat) (s : State) : State :=
  let l := s.lane n
  if l.writes ∧ l.work.again then startAttempt n (releasePages n s) else s

end Sys2Proof.Machine
end

