-- ==== Sys2Proof/Machine/Jobs.lean ====
section
/-! DEFINITION. Jobs of the Move Engine (spec/04): the Move Queue, claims, abort causes, changes of set state, the ends of jobs,
and the exchanges with the Grant Unit at a claim and in a lockout (R62, R64, R103). -/

namespace Sys2Proof.Machine

/-! ## The Move Queue (R71, R72) -/

def State.setMark (g : Nat) (mark : Bool) (s : State) : State := s.setSlab g { s.slab g with mark := mark }

def countMove (f : MoveCounters → MoveCounters) (s : State) : State :=
  s.onMe (fun m => { m with counters := f m.counters })

/-- The FILL part of a list of waiting jobs. -/
def fillPart (jobs : List Job) : List Job := jobs.takeWhile (fun j => j.kind = .fill)

/-- The MOVE part of a list of waiting jobs. -/
def movePart (jobs : List Job) : List Job := jobs.dropWhile (fun j => j.kind = .fill)

/-- A job is admitted to the tail of its part, and its slab is marked (R72, R94). -/
def admitJob (j : Job) (s : State) : State :=
  let jobs := if j.kind = .fill then fillPart s.me.jobs ++ [j] ++ movePart s.me.jobs else s.me.jobs ++ [j]
  let s := s.onMe (fun m => { m with jobs := jobs })
  countMove (fun c => { c with jobsAdmitted := bump c.jobsAdmitted }) (s.setMark j.slab true)

/-- The JOB_ABORTED notice of a slab (R74, R86). -/
def offerAborted (g : Nat) (kind : JobKind) (cause : AbortCause) (front : Nat) (s : State) : State :=
  s.offerNotice (.jobAborted (s.slab g).volume (s.volumeSlab g) g kind cause front)

/-- A waiting job is removed at a claim (R74). -/
def removeJob (j : Job) (cause : AbortCause) (s : State) : State :=
  let s := countMove (fun c => { c with jobsRemoved := bump c.jobsRemoved }) (s.setMark j.slab false)
  offerAborted j.slab j.kind cause 0 s

/-! ## The end of a lane's job (R73, R76, R82, R83, R86) -/

/-- The slots that a lane holds: the slab's home and, for a MOVE, its target. -/
def State.heldPlaces (s : State) (l : Lane) : List Place :=
  s.homePlace l :: (match l.target with
    | some t => [t]
    | none => [])

/-- A lane returns to IDLE: pages that it still holds are free again, its lane holds on the places named are cleared, and R12 is
evaluated for each (R73, R110). -/
def laneToIdle (n : Nat) (places : List Place) (s : State) : State :=
  let s := if (s.lane n).pages = [] then s.setLane n Lane.idle else releaseAs n Lane.idle s
  forEach State.releaseSlot places s

/-- An abandoned claim (R76): the pending record is dropped, the target is given up, the lane is IDLE. With a cause the job
is removed and JOB_ABORTED is offered; without one it returns to the head of the MOVE part. -/
def abandonClaim (n : Nat) (cause : Option AbortCause) (s : State) : State :=
  let l := s.lane n
  let places := s.heldPlaces l
  let s := dropWorks n (fun _ => true) s
  let s := match l.target with
    | none => s
    | some t => s.leavePlace t
  let s := laneToIdle n places s
  match l.job, cause with
  | none, _ => s
  | some j, some c => removeJob j c s
  | some j, none => s.onMe (fun m => { m with jobs := fillPart m.jobs ++ [j] ++ movePart m.jobs })

/-- An abort cause reaches a lane (R84). -/
def takeCause (n : Nat) (cause : AbortCause) (s : State) : State :=
  let l := s.lane n
  match l.state with
  | .claiming =>
    if l.cause.isSome then s
    else if l.beginQueued then s.onLane n (fun l => { l with cause := some cause })
    else abandonClaim n (some cause) s
  | .idle => s
  | .finishing => s
  | .aborting => s
  | .waitPages => abortLane n cause s
  | .waitToken => abortLane n cause s
  | .reading => abortLane n cause s
  | .recovering => abortLane n cause s
  | .writing => abortLane n cause s
  | .verifying => abortLane n cause s
  | .backoff => abortLane n cause s
  | .lockoutWait => abortLane n cause s
  | .paused => abortLane n cause s

/-- Whether a lane takes an abort cause now (R84, R92). -/
def Lane.takesCause (l : Lane) : Bool :=
  match l.state with
  | .claiming => l.cause.isNone
  | .idle => false
  | .finishing => false
  | .aborting => false
  | _ => true

/-- A FILL job returns to the head of the whole list: its home set has FAILED (R88). -/
def returnFill (n : Nat) (s : State) : State :=
  let l := s.lane n
  match l.job with
  | none => s
  | some j =>
    let places := s.heldPlaces l
    let s := dropWorks n (fun _ => true) (abandonRow n s)
    (laneToIdle n places s).onMe (fun m => { m with jobs := j :: m.jobs })

/-- A command that a lane waits for, that waits for a ring entry and addresses a FAILED member. -/
def State.waitsForFailed (s : State) (n : Nat) (c : Cmd) : Bool :=
  awaitedBy n c && decide ((s.member c.member).state = .failed)

/-- The lane waits no longer for the waiting commands of the units that it skips; they stand on the ring wait list until they reach
its head, and end there NO_DEVICE (R117, R134; DEDUCED, log 38). -/
def leaveSkipped (n : Nat) (s : State) : State :=
  let left := (s.dp.waiting.filter (s.waitsForFailed n)).length
  let waiting := s.dp.waiting.map (fun c => if s.waitsForFailed n c then { c with use := .skipped } else c)
  (s.onDp (fun d => { d with waiting := waiting })).onLane n (fun l => { l with commands := l.commands - left })

/-- The units of FAILED members are taken as skipped in a FILL row in flight (R117); their commands that still wait are left where
they stand (DEDUCED, log 38). -/
def skipFailed (n : Nat) (s : State) : State :=
  let l := s.lane n
  if l.writes then
    let kept := l.work.unsettled.filter (fun p => !decide ((s.member (s.positionMember l p)).state = .failed))
    let s := leaveSkipped n s
    rowProgress n (s.onLane n (fun l => { l with work := { l.work with unsettled := kept } }))
  else s

/-- A change of a set's state reaches a lane (R87, R88). -/
def laneSetChanged (t : Nat) (state : SetState) (n : Nat) (s : State) : State :=
  let l := s.lane n
  match l.job with
  | none => s
  | some j =>
    let home := (s.homePlace l).set
    match j.kind with
    | .fill =>
      if home = t then
        (if state = .failed then (if l.state = .finishing then s else returnFill n s)
        else if state = .degraded then skipFailed n s
        else s)
      else s
    | .move =>
      if (l.target.map Place.set) = some t ∧ state ≠ .online then takeCause n .targetDegraded s
      else if home = t ∧ state = .failed ∧ j.salvage = false then takeCause n .sourceFailed s
      else s

/-- The Placement Map has told of a set's change of state (R41, R88, spec/04 section G): lanes 0 to 3 react in this order, so of
several jobs that return the highest lane's stands first (DESIGN CHOICE, log 37). -/
def setChanged (t : Nat) (state : SetState) (s : State) : State :=
  forEach (laneSetChanged t state) (List.range Config.laneCount) s

/-! ## Claims (R74 to R78) -/

/-- A lane takes a job: it leaves the waiting list, and the lane holds its slots (R75, R77, R78). -/
def beginClaim (n : Nat) (j : Job) (target : Option Place) (state : LaneState) (s : State) : State :=
  let s := s.setLane n { Lane.idle with state := state, job := some j, target := target, row := (s.slab j.slab).front }
  let s := forEach (State.holdSlot n) (s.heldPlaces (s.lane n)) s
  countMove (fun c => { c with claims := bump c.claims }) s

/-- JOB_BEGIN of a lane in CLAIMING (R76). -/
def queueBegin (n : Nat) (s : State) : State :=
  let l := s.lane n
  match l.job, l.target with
  | some j, some t => queueRecord (.lane n) (.jobBegin j.slab t j.salvage) s
  | _, _ => s

/-- The claim of a MOVE job that takes a new target: CLAIMING, until the home-only write holds have ended (R75, R76). -/
def claimMove (n : Nat) (j : Job) (t : Place) (s : State) : State :=
  let s := beginClaim n j (some t) .claiming (s.takeSlot t .target j.slab)
  let awaited := s.homeOnlyWrites j.slab
  let s := s.onLane n (fun l => { l with awaitedHolds := awaited })
  if awaited = 0 then queueBegin n s else s

/-- The claim of a MOVE job queued at restart (R78); with a resume front past the last row it finishes (log 47). -/
def claimRetained (n : Nat) (j : Job) (t : Place) (s : State) : State :=
  let s := beginClaim n j (some t) .waitPages s
  match j.cause with
  | some c => abortLane n c s
  | none =>
    if (s.set t.set).state ≠ .online then abortLane n .targetDegraded s
    else if (s.set (s.slab j.slab).home.set).state = .failed ∧ j.salvage = false then abortLane n .sourceFailed s
    else nextRow n j s

/-- The claim of a FILL job as it stands (R77); with a resume front past the last row it finishes (log 47). -/
def claimFill (n : Nat) (j : Job) (s : State) : State := nextRow n j (beginClaim n j none .waitPages s)

/-- The claim of a FILL job with a re-placement of its slab (R77). -/
def claimReplaced (n : Nat) (j : Job) (p : Place) (s : State) : State :=
  let e := s.slab j.slab
  let s := (s.takeSlot p .home j.slab).freeSlot e.home
  let s := s.setSlab j.slab { e with home := p, front := 0, persisted := 0 }
  let s := beginClaim n { j with resume := none } none .waitPages s
  startAttempt n (queueRecord (.lane n) (.replace j.slab p) s)

/-- The candidates of a MOVE job, its slab's home set left out (R75). -/
def State.candidates (s : State) (j : Job) : BitVec 64 := j.candidates &&& ~~~(poolOf [(s.slab j.slab).home.set])

/-- The examination of the waiting jobs by a claim, from the head; `kept` are the jobs passed over so far (R74). -/
def claimScan (n : Nat) (kept : List Job) : List Job → State → State
  | [], s => s.onMe (fun m => { m with jobs := kept })
  | j :: rest, s =>
    let source := (s.set (s.slab j.slab).home.set).state
    let taken := s.onMe (fun m => { m with jobs := kept ++ rest })
    match j.kind, j.retained with
    | .fill, _ =>
      if source = .failed then
        match s.chooseSlot (s.volume (s.slab j.slab).volume).pool with
        | none => claimScan n (kept ++ [j]) rest s
        | some p => claimReplaced n j p taken
      else claimFill n j taken
    | .move, some t => claimRetained n j t taken
    | .move, none =>
      if source = .failed ∧ j.salvage = false then claimScan n kept rest (removeJob j .sourceFailed s)
      else
        match s.chooseSlot (s.candidates j) with
        | none => claimScan n kept rest (removeJob j .noTarget s)
        | some t => claimMove n j t taken

/-- A lane may claim: IDLE, the part READY, the pause mode off (R74). -/
def State.mayClaim (s : State) (n : Nat) : Bool :=
  decide ((s.lane n).state = .idle) && decide (s.part = .ready) && !s.me.paused

/-! ## Exchanges with the Grant Unit -/

/-- The end of a WRITE hold is reported to a lane: a lane in LOCKOUT_WAIT asks again, a lane in CLAIMING counts a home-only
hold down (R62, R64, R103). -/
def laneHoldEnded (g : Nat) (mirrored : Bool) (n : Nat) (s : State) : State :=
  let l := s.lane n
  if (l.job.map Job.slab) = some g then
    if l.state = .lockoutWait then
      let e := s.rowSet l
      if s.writeOverlaps g l.row e.width e.unit then s else startAttempt n s
    else if l.state = .claiming ∧ mirrored = false ∧ 0 < l.awaitedHolds then
      let s := s.onLane n (fun l => { l with awaitedHolds := l.awaitedHolds - 1 })
      if l.awaitedHolds = 1 then queueBegin n s else s
    else s
  else s

/-- The end of a WRITE hold is reported to the Move Engine (R62). -/
def holdEnded (g : Nat) (mirrored : Bool) (s : State) : State :=
  forEach (laneHoldEnded g mirrored) (List.range Config.laneCount) s

/-- A slab still names a slot as its target: in the Slab Map, or by the claim of a lane (R61). -/
def State.namesTarget (s : State) (g : Nat) (t : Place) : Bool :=
  decide ((s.slab g).target = some t) || decide (s.claimedTarget g = some t)

/-- An abort cause is recorded on a slab's waiting job with a retained target and no cause yet (R84, R92). -/
def State.markJob (g : Nat) (cause : AbortCause) (s : State) : State :=
  let mark (j : Job) : Job :=
    if j.slab = g ∧ j.retained.isSome ∧ j.cause = none then { j with cause := some cause } else j
  s.onMe (fun m => { m with jobs := m.jobs.map mark })

/-- An UNHOLD has named members of a mirrored hold: where one of them is a position of the target set and the slab still
names the slot as its target, its job is aborted with TARGET_WRITE (R61, R84). -/
def targetWrite (g : Nat) (t : Place) (members : List Nat) (s : State) : State :=
  if ((s.set t.set).positions.any (fun p => members.contains p.member)) && s.namesTarget g t then
    match s.laneOf g with
    | some n => takeCause n .targetWrite s
    | none => s.markJob g .targetWrite
  else s

/-! ## Durable records of the lanes -/

/-- JOB_BEGIN is durable: the slab is MOVING, and the lane starts its rows, or aborts with a recorded cause (R76). -/
def beginDurable (n g : Nat) (t : Place) (salvage : Bool) (s : State) : State :=
  let s := s.setSlab g { s.slab g with state := .moving, target := some t, front := 0, persisted := 0,
                                       salvage := salvage }
  match (s.lane n).cause with
  | some c => abortLane n c s
  | none => startAttempt n s

/-- A record is the REPLACE of a slab. -/
def RecordBody.replaceOf (b : RecordBody) (g : Nat) : Bool :=
  match b with
  | .replace g' _ => decide (g' = g)
  | _ => false

/-- A REPLACE of a slab is queued or waits to be queued. -/
def State.replacePending (s : State) (g : Nat) : Bool :=
  s.jc.queue.any (fun r => r.body.replaceOf g) || s.jc.roomWait.any (fun e => e.2.any (fun w => w.body.replaceOf g))

/-- FRONT is durable: the persisted front takes its value, unless the slab has since been re-placed (R77, R80). -/
def frontDurable (g value : Nat) (s : State) : State :=
  let e := s.slab g
  if s.replacePending g ∨ e.front < value then s else s.setSlab g { e with persisted := value }

/-- JOB_END of a MOVE is durable: the target is the home, the lane is IDLE (R82). -/
def moveCommitted (n g : Nat) (s : State) : State :=
  let e := s.slab g
  match e.target with
  | none => s
  | some t =>
    let s := s.setSlab g { e with state := .live, home := t, target := none, front := 0, persisted := 0,
                                  mark := false, salvage := false }
    let s := s.writeSlot t { s.slot t with state := .home }
    let s := laneToIdle n [e.home, t] (s.leavePlace e.home)
    countMove (fun c => { c with movesCommitted := bump c.movesCommitted }) s

/-- JOB_END of a FILL is durable: the slab is LIVE, the ready count is recomputed, the lane is IDLE (R83). -/
def fillCommitted (n g : Nat) (s : State) : State :=
  let e := s.slab g
  let s := s.setSlab g { e with state := .live, front := 0, persisted := 0, mark := false }
  let s := laneToIdle n [e.home] (s.recomputeReady e.volume)
  countMove (fun c => { c with fillsEnded := bump c.fillsEnded }) s

/-- JOB_ABORT is durable: the slab is LIVE on its home, the target is given up, the lane is IDLE (R86). -/
def abortDurable (n g : Nat) (s : State) : State :=
  let e := s.slab g
  let cause := (s.lane n).cause.getD .cancelled
  let s := s.setSlab g { e with state := .live, target := none, front := 0, persisted := 0, mark := false,
                                salvage := false }
  let s := match e.target with
    | none => laneToIdle n [e.home] s
    | some t => laneToIdle n [e.home, t] (s.leavePlace t)
  let s := countMove (fun c => { c with movesAborted := bump c.movesAborted }) s
  offerAborted g .move cause e.front s

/-- A lane's record is durable (R151). -/
def laneRecordDurable (n : Nat) (body : RecordBody) (s : State) : State :=
  match body with
  | .jobBegin g t salvage => beginDurable n g t salvage s
  | .front g value => frontDurable g value s
  | .jobEnd g .move => moveCommitted n g s
  | .jobEnd g .fill => fillCommitted n g s
  | .jobAbort g => abortDurable n g s
  | _ => s

/-- A lane's record has been queued (R151); the lane's page request follows its last pending record (R77, R80). -/
def laneRecordQueued (n : Nat) (body : RecordBody) (s : State) : State :=
  match body with
  | .jobBegin .. => s.onLane n (fun l => { l with beginQueued := true })
  | .jobEnd g .move => s.setSlab g { s.slab g with state := .committing }
  | .replace .. => askPages n (countMove (fun c => { c with replacements := bump c.replacements }) s)
  | .damageAdd d => askPages n (addDamage d s)
  | _ => askPages n s

/-- A record that a lane waited to enter is not made: the journal is FROZEN (R80, R122, R158). -/
def laneRecordUnmade (n : Nat) (body : RecordBody) (s : State) : State :=
  match body with
  | .damageAdd d => askPages n (addDamage d s)
  | _ => askPages n s

/-- The journal has entered FROZEN: a lane in CLAIMING abandons its claim (R76). -/
def laneFrozen (n : Nat) (s : State) : State :=
  let l := s.lane n
  if l.state = .claiming then abandonClaim n l.cause s else s

/-! ## Pause and resume (R93) -/

/-- PAUSE_JOBS reaches a lane. -/
def pauseLane (n : Nat) (s : State) : State :=
  let l := s.lane n
  if (l.state = .waitPages ∨ l.state = .waitToken ∨ l.state = .backoff) ∧ l.lockout = false then
    let s := s.onLane n (fun l => { l with state := .paused, backoffEnd := none })
    leaveTokens n (releasePages n (leavePageList n s))
  else s

/-- RESUME_JOBS reaches a lane. -/
def resumeLane (n : Nat) (s : State) : State :=
  if (s.lane n).state = .paused then startAttempt n s else s

end Sys2Proof.Machine
end

