-- ==== Sys2Proof/Machine/Grants.lean ====
section
/-! DEFINITION. The Grant Unit (spec/03): where a MAP is placed, the grant, the end of a hold, deferral and re-evaluation. -/

namespace Sys2Proof.Machine

def countGrant (f : GrantCounters → GrantCounters) (s : State) : State :=
  s.onGu (fun g => { g with counters := f g.counters })

/-! ## Where a MAP is placed (R51) -/

/-- The result of placing a MAP: the home alone, a mirrored grant (handed to the Move Engine or not), or deferral. -/
inductive Placing where
  | home
  | mirrored (target : Place) (handed : Bool)
  | deferred
  deriving DecidableEq, Repr

/-- A range of VLBs overlaps the row on which a lockout of its slab is in force (R52, R102). -/
def State.overlapsLocked (s : State) (g first count : Nat) : Bool :=
  match s.laneOf g with
  | none => false
  | some n =>
    let l := s.lane n
    let e := s.rowSet l
    let offset := first - s.volumeSlab g * s.slabBlocks
    l.lockout && overlapsRow e.width e.unit l.row offset (offset + count - 1)

/-- A write on a slab in motion: deferred under an overlapping lockout, else mirrored onto the Slab Map target (R51). -/
def State.placingInMotion (s : State) (g first count : Nat) : Placing :=
  if s.overlapsLocked g first count then .deferred
  else
    match (s.slab g).target with
    | some t => .mirrored t true
    | none => .home

/-- The placement of a MAP that has passed its checks (R51). -/
def State.placing (s : State) (g : Nat) (access : Access) (first count : Nat) : Placing :=
  match access with
  | .read => .home
  | .write =>
    match (s.slab g).state with
    | .moving => s.placingInMotion g first count
    | .committing => s.placingInMotion g first count
    | .live =>
      match s.claimedTarget g with
      | some t => .mirrored t false
      | none => .home
    | .unused => .home
    | .filling => .home

/-! ## Grants (R53, R54) -/

/-- A MAP as it is granted or deferred. -/
structure MapAsk where
  tag : ReqTag
  volume : Nat
  first : Nat
  count : Nat
  slab : Nat
  access : Access
  deriving DecidableEq, Repr

/-- The counter of a grant (R69). -/
def countGranted (access : Access) (target : Option Place) (s : State) : State :=
  match access, target with
  | .read, _ => countGrant (fun c => { c with readGrants := bump c.readGrants }) s
  | .write, none => countGrant (fun c => { c with writeGrants := bump c.writeGrants }) s
  | .write, some _ => countGrant (fun c => { c with mirroredGrants := bump c.mirroredGrants }) s

/-- The hold of a grant made now (R53). -/
def State.newHold (s : State) (a : MapAsk) (h : Nat) (target : Option Place) : Hold :=
  { state := .live, generation := ((s.hold h).generation + 1) % 65536, volume := a.volume, first := a.first,
    count := a.count, slab := a.slab, access := a.access, home := (s.slab a.slab).home, target := target,
    lifetime := s.gu.holdLife * 1000, deadline := s.now + Config.seconds s.gu.holdLife }

/-- The reply to a granted MAP (R54). -/
def State.grantReply (s : State) (h : Nat) (e : Hold) : GrantReply :=
  { hold := h, generation := e.generation, volume := e.volume, first := e.first, count := e.count, slab := e.slab,
    home := e.home, homeState := (s.set e.home.set).state, target := e.target.map (fun t => (t, (s.set t.set).state)),
    lifetime := e.lifetime }

/-- The slots that a hold names. -/
def Hold.places (e : Hold) : List Place :=
  e.home :: (match e.target with
    | some t => [t]
    | none => [])

/-- A grant: the head of the free order becomes LIVE, the counts of the slots named rise, and the reply is sent (R53). -/
def grantMap (a : MapAsk) (target : Option Place) (s : State) : State :=
  match s.gu.freeOrder with
  | [] => s
  | h :: rest =>
    let e := s.newHold a h target
    let s := (s.onGu (fun g => { g with freeOrder := rest })).setHold h e
    let s := countGranted a.access target (forEach State.raiseRef e.places s)
    s.answer a.tag .ok (.grant (s.grantReply h e))

/-- A placed MAP is granted; a mirrored grant on a slab in motion is handed to the Move Engine (R51, R53). -/
def grantPlaced (a : MapAsk) (p : Placing) (s : State) : State :=
  match p with
  | .home => grantMap a none s
  | .mirrored t handed =>
    let s := grantMap a (some t) s
    if handed then meetGrant a.slab a.first a.count s else s
  | .deferred => s

/-! ## The end of a hold (R57, R59, R62) -/

/-- A hold's entry becomes FREE and joins the tail of the free order; the counts of its slots fall (R57, R59). -/
def freeHold (h : Nat) (s : State) : State :=
  let e := s.hold h
  let s := (s.setHold h (Hold.free e.generation)).onGu (fun g => { g with freeOrder := g.freeOrder ++ [h] })
  forEach State.lowerRef e.places s

/-- The end of a WRITE hold is reported to the Move Engine with its slab, its range and whether it named a target (R62). -/
def reportEnd (e : Hold) (s : State) : State :=
  if e.access = .write then s.post (.holdEnded e.slab e.first e.count e.target.isSome) else s

/-! ## The Deferral Queue (R65, R66) -/

/-- A WRITE MAP enters the Deferral Queue and gives up its place in the request queue, or is answered BUSY (R65, R170). -/
def deferMap (a : MapAsk) (s : State) : State :=
  if s.gu.deferred.length < Config.maxDeferred then
    let d : Deferred := ⟨a.tag, a.volume, a.first, a.count, a.slab, s.now + Config.seconds s.gu.holdLife⟩
    let s := s.onGu (fun g => { g with deferred := g.deferred ++ [d] })
    let s := s.onMp (fun m => { m with requests := m.requests.filter (fun r => r.tag ≠ a.tag) })
    countGrant (fun c => { c with deferrals := bump c.deferrals }) s
  else countGrant (fun c => { c with deferralRefusals := bump c.deferralRefusals }) (s.refuse a.tag .busy)

def dropDeferred (tag : ReqTag) (s : State) : State :=
  s.onGu (fun g => { g with deferred := g.deferred.filter (fun d => d.tag ≠ tag) })

/-- One deferred MAP is placed again: answered BUSY with a full Hold Table, granted, or left in its place (R66). -/
def reevaluateOne (d : Deferred) (s : State) : State :=
  if s.gu.freeOrder = [] then
    countGrant (fun c => { c with deferralRefusals := bump c.deferralRefusals }) ((dropDeferred d.tag s).refuse d.tag .busy)
  else
    match s.placing d.slab .write d.first d.count with
    | .deferred => s
    | p => grantPlaced ⟨d.tag, d.volume, d.first, d.count, d.slab, .write⟩ p (dropDeferred d.tag s)

/-- The deferred MAPs of a slab are placed again, in the order of the queue (R66). -/
def reevaluate (g : Nat) (s : State) : State :=
  forEach reevaluateOne (s.gu.deferred.filter (fun d => d.slab = g)) s

end Sys2Proof.Machine
end

