-- ==== Sys2Proof/Machine/Members.lean ====
section
/-! DEFINITION. Members, sets and growth at the Placement Map (spec/02): reports of drives, the failure of a member, admission
and its label, what a durable record of the map does, and what the entry into FROZEN undoes. -/

namespace Sys2Proof.Machine

/-! ## Changes of a member's state -/

/-- Change a member's entry; MEMBER_STATE is offered where its state changes (spec/02 section B). -/
def changeMember (id : Nat) (m : Member) (s : State) : State :=
  let old := (s.member id).state
  let s := s.setMember id m
  if old = m.state then s else s.offerNotice (.memberState id old m.state)

/-- Queue a record of the Placement Map. -/
def pmRecord (body : RecordBody) (s : State) : State := queueRecord .pm body s

/-- Queue a record of the Placement Map that a request waits for. -/
def pmWork (tag : ReqTag) (body : RecordBody) (s : State) : State := queueWork .pm ⟨body, some tag⟩ s

def setBusy (w : Option PmWork) (s : State) : State := s.onPm (fun p => { p with busy := w })

/-! ## The failure of a member (R36) -/

/-- A set counts one more FAILED position, and its state is evaluated again (R7, R36). -/
def countFailed (t : Nat) (s : State) : State :=
  let e := s.set t
  s.setSet t { e with failedCount := e.failedCount + 1, state := setStateOf (e.failedCount + 1) }

/-- The sets of a band list whose state a further FAILED position changes, in the order of the list (R36). -/
def State.changedSets (s : State) (bands : List Band) : List Nat :=
  (bands.map Band.set).filter (fun t => (s.set t).state ≠ setStateOf ((s.set t).failedCount + 1))

/-- Tell the Move Engine of a set's new state (R41). -/
def postSetChange (t : Nat) (s : State) : State := s.post (.setChanged t (s.set t).state)

/-- The SET_STATE notice of a set that has left a state (R36). -/
def offerSetState (old : State) (t : Nat) (s : State) : State :=
  s.offerNotice (.setState t (old.set t).state (s.set t).state (s.set t).failedCount)

/-- The MEMBER record of a failure: held through start-up, not made in FROZEN (R36, R164). -/
def recordFailure (id : Nat) (reply : Option ReqTag) (s : State) : State :=
  if s.part = .starting then s.onPm (fun p => { p with held := p.held ++ [id] })
  else queueWork .pm ⟨.member id .failed, reply⟩ s

/-- A member in AVAILABLE or ACTIVE fails (R36). R36 gives its parts no order: the notices of its part 5 are placed ahead of the
faults of its part 2 (DEDUCED, log 24), and its MEMBER record is queued before the lanes hear of the sets, so ahead of any JOB_ABORT
that they queue at the same event (DESIGN CHOICE, log 59). -/
def failMember (id : Nat) (reply : Option ReqTag) (s : State) : State :=
  let old := s
  let m := s.member id
  let changed := s.changedSets m.bands
  let s := s.setMember id { m with state := .failed }
  let s := forEach (fun (b : Band) s => countFailed b.set s) m.bands s
  let s := forEach postSetChange changed s
  let s := s.offerNotice (.memberState id m.state .failed)
  let s := forEach (offerSetState old) changed s
  recordFailure id reply (endCommands (fun c => decide (c.member = id)) s)

/-- A cause of failure names a member (R35). -/
def memberCause (id : Nat) (s : State) : State :=
  let st := (s.member id).state
  if st = .available ∨ st = .active then failMember id none s else s

/-! ## Admission (R31 to R33) -/

/-- The MEMBER record that admits a member, as the entry stands. -/
def State.joinRecord (s : State) (id : Nat) : RecordBody :=
  .member id (.admission (s.member id).capacity (s.member id).formatOk)

/-- A label command of an admission. -/
def joinCmd (id : Nat) (op : DriveOp) (label : Option Block) : Cmd :=
  { owner := .admission, use := .label, member := id, op := op, dbn := 0, count := 1, pages := .label none, context := none,
    labelBlock := label }

/-- The admitting record has its number q: the label carrying it is written (R31). -/
def joinNumbered (tag : ReqTag) (id q : Nat) (durable : Bool) (s : State) : State :=
  let s := setBusy (some (.joining tag id (some q) false durable)) s
  handOver (joinCmd id .write (some (taggedBlock (labelData s.pm.arrayId id q) (labelPlace id)))) s

/-- The label is verified and the record durable: the member is AVAILABLE with label_seq q (R32). -/
def joinComplete (tag : ReqTag) (id q : Nat) (s : State) : State :=
  let s := changeMember id { s.member id with state := .available, labelSeq := some q } s
  (setBusy none s).answer tag .ok (.labelSeq q)

/-- An admission fails: the entry leaves JOINING, and a second MEMBER record is queued (R33). -/
def joinFail (tag : ReqTag) (id : Nat) (m : Member) (s : State) : State :=
  pmWork tag (.member id .unadmitted) (setBusy (some (.joinFailed tag id)) (changeMember id m s))

/-- A label command of an admission has completed (R32). It is matched by its member, so one that still waited from an earlier
admission of that member counts for the one under way (DEDUCED, log 40). -/
def joinCompleted (c : Completion) (s : State) : State :=
  match s.pm.busy with
  | some (.joining tag id (some q) _ durable) =>
    if c.cmd.member = id then
      let failed := joinFail tag id { s.member id with state := .present } s
      if c.status ≠ .good then failed
      else if c.cmd.op = .write then handOver (joinCmd id .read none) s
      else if labelAgrees (c.labelRead.getD Block.zero) s.pm.arrayId id q then
        if durable then joinComplete tag id q s
        else setBusy (some (.joining tag id (some q) true durable)) s
      else failed
    else s
  | _ => s

/-! ## Reports of drives (R29, R30) -/

/-- A drive has appeared in a bay (R29, R135). -/
def driveAppeared (id capacity : Nat) (formatOk : Bool) (s : State) : State :=
  let m := s.member id
  match m.state with
  | .absent => changeMember id { m with state := .present, capacity := capacity, formatOk := formatOk } (s.setErrorRun id 0)
  | .present => s.setMember id { m with capacity := capacity, formatOk := formatOk }
  | .joining => s
  | .available => s
  | .active => s
  | .failed => s

/-- The tag of the admission of a member. -/
def State.joiningTag (s : State) (id : Nat) : Option ReqTag :=
  match s.pm.busy with
  | some (.joining tag id' _ _ _) => if id' = id then some tag else none
  | _ => none

/-- A drive has gone from a bay (R30, R33, R134). A label command of its admission that waits on the ring wait list is not
withdrawn (DEDUCED, log 40). An entry that leaves JOINING for ABSENT has capacity 0 and format_ok no: R30 and R33 give these
only for a PRESENT entry (DESIGN CHOICE, log 50). Its MEMBER_STATE is placed ahead of the fault of its label command (R33, R134; DESIGN
CHOICE, log 56). -/
def driveGone (id : Nat) (s : State) : State :=
  let m := s.member id
  match m.state with
  | .absent => s
  | .present => changeMember id Member.absent s
  | .joining =>
    match s.joiningTag id with
    | none => changeMember id Member.absent s
    | some tag =>
      endCommands (fun c => decide (c.member = id) && decide (c.owner = .admission)) (joinFail tag id Member.absent s)
  | .available => failMember id none s
  | .active => failMember id none s
  | .failed => s

/-! ## The start-up label checks (R164) -/

/-- A label READ of the start-up check. -/
def checkCmd (id : Nat) : Cmd :=
  { owner := .startCheck, use := .label, member := id, op := .read, dbn := 0, count := 1, pages := .label none,
    context := none, labelBlock := none }

/-- A label READ of the start-up check has completed (R164). -/
def checkCompleted (c : Completion) (s : State) : State :=
  let id := c.cmd.member
  let m := s.member id
  let s := s.onPm (fun p => { p with checks := p.checks.filter (fun k => k ≠ id) })
  if c.status = .good ∧ labelAgrees (c.labelRead.getD Block.zero) s.pm.arrayId id (m.labelSeq.getD 0) then s
  else memberCause id s

/-! ## Durable records of the map (R40, R42, R43, R46) -/

/-- A band joins a member's list; an AVAILABLE member becomes ACTIVE, with its record (R34, R40). -/
def joinBand (t : Nat) (p : Position) (s : State) : State :=
  let m := s.member p.member
  let s := changeMember p.member (m.addBand ⟨t, p.start⟩) s
  if m.state = .available then pmRecord (.member p.member .active) s else s

/-- A band leaves a member's list; an ACTIVE member without bands becomes AVAILABLE, with its record (R34, R42). -/
def leaveBand (t : Nat) (p : Position) (s : State) : State :=
  let m := s.member p.member
  let m' := m.dropBand t
  let s := changeMember p.member m' s
  if m.state = .active ∧ m'.state = .available then pmRecord (.member p.member .available) s else s

/-- SET_DEFINE is durable: the set is established (R40). Its members change in the order of its positions, each with its notice and
its record (R34; the order: DESIGN CHOICE, log 57). -/
def setEstablished (tag : ReqTag) (t : Nat) (s : State) : State :=
  let e := s.set t
  let s := forEach (joinBand t) e.positions s
  let failed := s.failedPositions e.positions
  let s := s.setSet t { e with failedCount := failed, state := setStateOf failed }
  let s := s.offerNotice (.setState t .pending (setStateOf failed) failed)
  (setBusy none s).answer tag .ok (.setDefined t e.rows e.slots)

/-- SET_RETIRE is durable: the set is UNUSED (R42). Its members change in the order of its positions, each with its notice and its
record (R34; the order: DESIGN CHOICE, log 57). -/
def setRetired (tag : ReqTag) (t : Nat) (s : State) : State :=
  let e := s.set t
  let s := forEach (leaveBand t) e.positions s
  let s := (s.setSet t SetEntry.unused).offerNotice (.setState t e.state .unused 0)
  (setBusy none (s.post (.setChanged t .unused))).answer tag .ok .empty

/-- VOLUME_CREATE is durable: the volume is ONLINE (R43). -/
def volumeOnline (tag : ReqTag) (v : Nat) (s : State) : State :=
  let e := s.volume v
  let s := s.setVolume v { e with state := .online, count := 0, ready := 0 }
  (setBusy none s).answer tag .ok (.mapBase e.base)

/-- A new slab of a growth is FILLING on its home, with its FILL job (R46). -/
def growSlab (volume : Nat) (p : Placement) (s : State) : State :=
  let s := s.setSlab p.slab { Slab.unused with state := .filling, volume := volume, home := p.place, mark := true }
  admitJob { kind := .fill, slab := p.slab, candidates := 0, salvage := false, resume := none, retained := none,
             cause := none } s

/-- GROW_CLOSE is durable: the growth takes effect (R46). -/
def growthEffect (w : GrowWork) (s : State) : State :=
  let s := forEach (growSlab w.volume) w.homes (setBusy none s)
  let s := s.setVolume w.volume { s.volume w.volume with count := w.new }
  let s := s.recomputeReady w.volume
  s.answer w.tag .ok (.grown w.new (s.volume w.volume).ready)

/-- The slab size takes a value (R19). -/
def State.setSlabSize (v : Nat) (s : State) : State := s.onPm (fun p => { p with slabSize := v })

/-- A record of the Placement Map is durable (R151). -/
def pmDurable (r : Record) (s : State) : State :=
  match s.pm.busy, r.body with
  | some (.joining tag id seq verified _), .member id' (.admission _ _) =>
    if id' = id then
      match seq, verified with
      | some q, true => joinComplete tag id q s
      | _, _ => setBusy (some (.joining tag id seq verified true)) s
    else s
  | some (.joinFailed tag id), .member id' .unadmitted =>
    if id' = id then (setBusy none s).refuse tag .driveError else s
  | some (.releasing tag _ _), .member _ .unadmitted =>
    if r.reply = some tag then (setBusy none s).answer tag .ok .empty else s
  | some (.failing tag _), .member _ .failed =>
    if r.reply = some tag then (setBusy none s).answer tag .ok .empty else s
  | some (.defining tag t), .setDefine .. => setEstablished tag t s
  | some (.retiring tag t), .setRetire _ => setRetired tag t s
  | some (.creating tag v), .volumeCreate .. => volumeOnline tag v s
  | some (.growing w), .growClose _ => growthEffect w s
  | some (.slabSize tag), .param .slabSize v => (setBusy none (s.setSlabSize v)).answer tag .ok .empty
  | _, _ => s

/-- A record of the Placement Map has its number (R31). -/
def pmQueued (r : Record) (s : State) : State :=
  match s.pm.busy, r.body with
  | some (.joining tag id none _ durable), .member id' (.admission _ _) =>
    if id' = id then joinNumbered tag id r.seq durable s else s
  | _, _ => s

/-! ## What the entry into FROZEN undoes (R28) -/

/-- An admission ends as the journal freezes (R33). Where the drive is gone, the entry is ABSENT with capacity 0 and format_ok no
(DESIGN CHOICE, log 50). -/
def joinFrozen (id : Nat) (s : State) : State :=
  let s := cancelCommands (fun c => decide (c.owner = .admission)) s
  if (s.bay id).present then changeMember id { s.member id with state := .present } s else changeMember id Member.absent s

/-- A growth is abandoned: its homes are FREE again and the old pool is restored (R47). -/
def abandonGrowth (w : GrowWork) (s : State) : State :=
  let s := forEach (fun (p : Placement) s => s.freeSlot p.place) w.homes s
  s.setVolume w.volume { s.volume w.volume with pool := w.oldPool }

/-- Undo what a waiting configuration request has changed (R28, R33, R37, R38, R40, R42, R43, R47). A set that is UNUSED again
offers no SET_STATE: this event is not in the list of R41 (DESIGN CHOICE, log 39). -/
def undoWork (w : PmWork) (s : State) : State :=
  match w with
  | .joining _ id _ _ _ => joinFrozen id s
  | .joinFailed _ _ => s
  | .releasing _ id was => changeMember id was s
  | .failing _ _ => s
  | .defining _ t => s.setSet t SetEntry.unused
  | .retiring _ t => s.setSet t { s.set t with retiring := false }
  | .creating _ v => s.setVolume v Volume.unused
  | .growing g => abandonGrowth g s
  | .slabSize _ => s

/-- The tag of a waiting configuration request. -/
def PmWork.tag : PmWork → ReqTag
  | .joining tag _ _ _ _ => tag
  | .joinFailed tag _ => tag
  | .releasing tag _ _ => tag
  | .failing tag _ => tag
  | .defining tag _ => tag
  | .retiring tag _ => tag
  | .creating tag _ => tag
  | .growing w => w.tag
  | .slabSize tag => tag

/-- The journal has entered FROZEN: the waiting configuration request is undone and answered JOURNAL_DOWN (R28). -/
def pmFrozen (s : State) : State :=
  match s.pm.busy with
  | none => s
  | some w => (undoWork w (setBusy none s)).refuse w.tag .journalDown

end Sys2Proof.Machine
end

