-- ==== Sys2Proof/Machine/StartUp.lean ====
section
/-! DEFINITION. Restart (spec/10): the cold path, the scan of the map store and the replay, what the replay leaves in memory,
the first shelf round, the fix-ups and the entry into service; and the resets and the end of a FORMAT (R160). -/

namespace Sys2Proof.Machine

/-! ## The cold path (R162, R163) -/

/-- The state that a restart leaves: every block at its values after a cold or warm restart, STARTING, the scan begun. Time,
the waiting commands and the log of sent messages are the model's own; an exchange open on the management bus is left
behind (R137). -/
def restarted (s : State) : State :=
  { State.reset with
    clock := ⟨s.clock.now, 1⟩,
    dp := { DrivePort.reset with sent := s.dp.sent },
    sm := { ShelfMonitor.reset with abandoned := s.sm.abandoned || s.sm.transaction.isSome },
    jc := Journal.reset s.clock.now,
    agenda := [],
    pending := s.pending }

/-! ## Poll rounds (R137, R139) -/

/-- A STATE_POLL transaction begins; an exchange left open by a restart is ended before it (R137, R145). -/
def beginPoll (address : Nat) (s : State) : State :=
  s.onSm (fun m => { m with transaction := some (address, s.now), abandoned := false,
                            counters := { m.counters with polls := bump m.counters.polls } })

/-- A round begins (R139). -/
def beginRound (s : State) : State := beginPoll 0 (s.onSm (fun m => { m with roundStart := some s.now }))

/-! ## Reading the store (R163) -/

/-- A valid page: its number, sequence number and record. -/
structure ValidPage where
  page : Nat
  seq : Nat
  body : RecordBody
  deriving DecidableEq, Repr

/-- The valid pages of a scan (R147, R163). -/
def validPages : List (Nat × List Byte) → List ValidPage
  | [] => []
  | (n, bytes) :: rest =>
    match judgePage bytes with
    | .valid seq body => ⟨n, seq, body⟩ :: validPages rest
    | .erased => validPages rest
    | .bad => validPages rest

/-- The page that carries a number. -/
def pageWith (vs : List ValidPage) (seq : Nat) : Option ValidPage := vs.find? (fun v => v.seq = seq)

/-- The largest number that valid pages carry. -/
def largestSeq (vs : List ValidPage) : Nat := (vs.map ValidPage.seq).foldl max 0

/-- How many blocks the ring goes forward from one block to another. -/
def ringForward (a b : Nat) : Nat := (b + 64 - a % 64) % 64

/-- The block of the newest valid page, the head (R154). Where the newest number stands on several pages, the page written later is
the one farther forward, in the ring, from a page of the number before it, which was written before them all (R147; DEDUCED,
log 20). -/
def scannedHead (vs : List ValidPage) : Nat :=
  let newest := largestSeq vs
  let candidates := (vs.filter (fun v => v.seq = newest)).map (fun v => v.page / 256)
  let older := vs.filter (fun v => decide (v.seq < newest))
  let from' := match pageWith older (largestSeq older) with
    | some v => v.page / 256
    | none => candidates.headD 0
  candidates.foldl (fun best b => if ringForward from' best < ringForward from' b then b else best) (candidates.headD 0)

/-- Of two pages, whether the second was written later: the ring runs from the block after the head to the head (R147, R154). -/
def writtenLater (head a b : Nat) : Bool :=
  if a / 256 = b / 256 then decide (a < b) else decide (ringDistance head (a / 256) < ringDistance head (b / 256))

/-- Keep for each number the page written later (R147). -/
def keepPage (head : Nat) (v : ValidPage) : List ValidPage → List ValidPage
  | [] => [v]
  | w :: rest =>
    if w.seq = v.seq then (if writtenLater head w.page v.page then v :: rest else w :: rest) else w :: keepPage head v rest

def distinctPages (vs : List ValidPage) : List ValidPage :=
  vs.foldl (fun kept v => keepPage (scannedHead vs) v kept) []

/-- A complete image: its IMAGE_BEGIN, the number of its IMAGE_END, and the records numbered between them (R163). -/
structure FoundImage where
  start : ValidPage
  endSeq : Nat
  between : List RecordBody
  deriving DecidableEq, Repr

def RecordBody.partBytes : RecordBody → Option (List Byte)
  | .imagePart bytes => some bytes
  | _ => none

/-- The records numbered from `seq` on, `n` of them, none missing. -/
def recordsFrom (vs : List ValidPage) : Nat → Nat → Option (List RecordBody)
  | _, 0 => some []
  | seq, n + 1 =>
    match pageWith vs seq, recordsFrom vs (seq + 1) n with
    | some v, some rest => some (v.body :: rest)
    | _, _ => none

/-- The image that an IMAGE_END completes (R163). -/
def imageOf (vs : List ValidPage) (v : ValidPage) : Option FoundImage :=
  match v.body with
  | .imageEnd beginSeq parts =>
    match pageWith vs beginSeq with
    | none => none
    | some start =>
      match start.body, recordsFrom vs (beginSeq + 1) (v.seq - beginSeq - 1) with
      | .imageBegin .., some between =>
        if beginSeq < v.seq ∧ (between.filterMap RecordBody.partBytes).length = parts then some ⟨start, v.seq, between⟩
        else none
      | _, _ => none
  | _ => none

/-- Of two images the newer one. -/
def newerImage (best : Option FoundImage) (f : FoundImage) : Option FoundImage :=
  match best with
  | none => some f
  | some b => if b.endSeq < f.endSeq then some f else some b

/-- The newest complete image (R163). -/
def newestImage (vs : List ValidPage) : Option FoundImage := (vs.filterMap (imageOf vs)).foldl newerImage none

/-- The account that an image holds, with the BLOCK_RETIRE records of its interval (R163). -/
def imageAccount (f : FoundImage) : Account :=
  match f.start.body with
  | .imageBegin arrayId params bad lost counts =>
    let a := readImage arrayId params bad lost counts (f.between.filterMap RecordBody.partBytes)
    forEach (fun (b : RecordBody) a => match b with
      | .blockRetire n => applyRecord 0 (.blockRetire n) a
      | _ => a) f.between a
  | _ => .fresh

/-- Replay the records numbered from `seq` on, up to the first number that no valid page carries: the account, and the first
number not replayed (R163). -/
def replay (vs : List ValidPage) : Nat → Nat → Account → Account × Nat
  | 0, seq, a => (a, seq)
  | n + 1, seq, a =>
    match pageWith vs seq with
    | none => (a, seq)
    | some v => replay vs n (seq + 1) (applyRecord seq v.body a)

/-! ## The ring after a restart (R154) -/

/-- The page written last of the newest record. -/
def newestPage (vs : List ValidPage) : Option ValidPage :=
  vs.foldl (fun best v => match best with
    | none => some v
    | some b => if b.seq < v.seq then some v else some b) none

/-- The pages of a block that are not erased. -/
def writtenPages (pages : List (Nat × List Byte)) (b : Nat) : List Nat :=
  (pages.filter (fun p => decide (p.1 / 256 = b) && !pageErased p.2)).map (fun p => p.1 % 256)

/-- The condition of a block after the scan (R154). -/
def scannedCondition (pages : List (Nat × List Byte)) (bad : BitVec 64) (head imageBlock b : Nat) : BlockCond :=
  if bad.getLsbD b then .bad
  else if b = head then .head
  else if writtenPages pages b = [] then .erased
  else if ringDistance head b < ringDistance head imageBlock then .awaiting
  else .written

/-- The scan sets the ring, the numbers and the newest image (R148, R154, R163). -/
def setRing (pages : List (Nat × List Byte)) (a : Account) (f : FoundImage) (next head : Nat) (s : State) : State :=
  let imageBlock := f.start.page / 256
  let s := forEach (fun b s => s.setStoreBlock b ⟨scannedCondition pages a.bad head imageBlock b, 0⟩)
    (List.range Config.storeBlocks) s
  let last := (writtenPages pages head).foldl max 0
  moveSpentHead (s.onJc (fun j => { j with head := some head, nextPage := last + 1, nextSeq := next, durable := a,
                                           newestImage := some (f.start.seq, imageBlock) }))

/-! ## What the replay leaves in memory (R2, R8, R14, R16) -/

/-- A set is rebuilt with its requested fields and derived geometry; its failed count comes from the member states that the
replay leaves (R8). -/
def loadSet (e : Nat × Option SetDef) (s : State) : State :=
  match e.2 with
  | none => s
  | some d =>
    let n := newSet .online s.slabBlocks d.unit d.bandLength d.positions
    let failed := s.failedPositions d.positions
    s.setSet e.1 { n with failedCount := failed, state := setStateOf failed }

/-- A slab is loaded, its front equal to its persisted front; its home and target slots are taken (R8, R16). -/
def loadSlab (e : Nat × Slab) (s : State) : State :=
  let b := e.2
  let s := s.setSlab e.1 { b with front := b.persisted, mark := false }
  let s := s.takeSlot b.home .home e.1
  match b.target with
  | none => s
  | some t => s.takeSlot t .target e.1

/-- A volume is rebuilt, and its ready count recomputed (R14, R15). -/
def loadVolume (e : Nat × Volume) (s : State) : State :=
  let s := s.setVolume e.1 e.2
  s.setVolume e.1 { e.2 with ready := s.readyCount e.1 }

/-- The parameters take their journaled values (R174). -/
def loadParams (p : Params) (s : State) : State :=
  let s := s.onPm (fun m => { m with slabSize := p.slabSize })
  let s := s.onGu (fun g => { g with holdLife := p.holdLife })
  let s := s.onDp (fun d => { d with driveTmo := p.driveTmo })
  let s := s.onSm (fun m => { m with pollPeriod := p.pollPeriod })
  s.onMe (fun m => { m with backoffBits := p.backoffBits, lockAfter := p.lockAfter, ckptRows := p.ckptRows,
                            moveRate := p.moveRate })

/-- The lasting state that the replay leaves becomes the account in memory. -/
def loadAccount (a : Account) (s : State) : State :=
  let s := loadParams a.params s
  let s := s.onPm (fun m => { m with arrayId := a.arrayId, members := a.members })
  let s := forEach loadSet a.sets s
  let s := forEach loadSlab a.slabs s
  let s := forEach loadVolume a.volumes s
  s.onMe (fun m => { m with damage := a.damage, lost := a.lost })

/-! ## The end of the scan (R163, R164) -/

/-- After the scan the flush is sent and the first shelf round begins (R164). -/
def firstRound (s : State) : State :=
  let s := sendFlush { s with stage := .firstRound }
  beginRound (s.onJc (fun j => { j with op := none }))

/-- The part becomes BLANK, and PART_STATE is offered; the start-up goes on to the shelf round (R163). Every store block stays
WRITTEN, and none is bad, also after a scan that found blocks wholly erased (DESIGN CHOICE, log 7). -/
def becomeBlank (cause : Option BlankCause) (s : State) : State :=
  let s := { s with part := .blank cause }
  (firstRound s).offerNotice (.partState (.blank cause))

/-- The scan has ended: the newest complete image is applied and the later records replayed, or the part is BLANK. -/
def scanEnded (pages : List (Nat × List Byte)) (s : State) : State :=
  let vs := distinctPages (validPages pages)
  match newestImage vs, newestPage vs with
  | some f, some newest =>
    let r := replay vs vs.length (f.endSeq + 1) (imageAccount f)
    firstRound (setRing pages r.1 f r.2 (newest.page / 256) (loadAccount r.1 s))
  | _, _ => becomeBlank none s

/-- The store does not answer (R163). -/
def scanFailed (s : State) : State :=
  becomeBlank (some .storeFault) (s.offerFault (FaultOffer.bare .storeTimeout))

/-! ## The label checks (R164) -/

/-- An admitted member that the replay left AVAILABLE or ACTIVE is checked: it fails where its drive is not present, else
its label is read. -/
def checkMember (id : Nat) (s : State) : State :=
  if (s.bay id).present then handOver (checkCmd id) (s.onPm (fun p => { p with checks := p.checks ++ [id] }))
  else s.post (.memberCause id)

/-- The members to check, in ascending order of their ids (R164; the order: DESIGN CHOICE, log 49). -/
def State.membersToCheck (s : State) : List Nat :=
  (List.range 256).filter (fun id => decide ((s.member id).state = .available) || decide ((s.member id).state = .active))

/-! ## Fix-ups and the entry into service (R165, R166) -/

/-- The job that a restart queues for a slab (R165). -/
def restartJob (g : Nat) (e : Slab) : Option Job :=
  match e.state with
  | .filling =>
    some { kind := .fill, slab := g, candidates := 0, salvage := false, resume := some e.persisted, retained := none,
           cause := none }
  | .moving =>
    some { kind := .move, slab := g, candidates := poolOf ((e.target.map Place.set).toList), salvage := e.salvage,
           resume := some e.persisted, retained := e.target, cause := none }
  | .committing =>
    some { kind := .move, slab := g, candidates := poolOf ((e.target.map Place.set).toList), salvage := e.salvage,
           resume := some e.persisted, retained := e.target, cause := none }
  | .unused => none
  | .live => none

/-- The repair of a slab's entry (R165): COMMITTING becomes MOVING, the front is the persisted front, and the mark is set
where a job is queued. -/
def repairSlab (e : Slab) : Slab :=
  { e with state := if e.state = .committing then .moving else e.state, front := e.persisted,
           mark := decide (e.state = .filling ∨ e.state = .moving ∨ e.state = .committing) }

/-- The repairs of R165 and the restart jobs, FILL jobs first, each part in ascending slab order (R72, R165). -/
def repair (s : State) : State :=
  let jobs := s.pm.slabs.filterMap (fun e => restartJob e.1 e.2)
  let s := s.onMe (fun m => { m with jobs := jobs.filter (fun j => j.kind = .fill) ++ jobs.filter (fun j => j.kind = .move) })
  let s := forEach (fun (e : Nat × Slab) s => s.setSlab e.1 (repairSlab e.2)) s.pm.slabs s
  forEach (fun (e : Nat × Volume) s => s.setVolume e.1 { e.2 with ready := s.readyCount e.1 }) s.pm.volumes s

/-- The first rate window begins (R81). -/
def beginWindows (s : State) : State :=
  s.onMe (fun m => { m with windowStart := some s.now, tokens := m.moveRate })

/-- The part becomes READY: the held records are queued, the rate window and the erasures begin, and PART_STATE is offered
(R157, R166). A head that the scan found full with no ERASED block after it freezes the journal here and not at the scan, behind
PART_STATE of READY (R154; DESIGN CHOICE, log 54). -/
def enterReady (s : State) : State :=
  let held := s.pm.held
  let s := { s with part := .ready, stage := .service }
  let s := s.onJc (fun j => { j with state := .writing, cause := none, admission := true })
  let s := beginWindows (s.onPm (fun p => { p with held := [] }))
  let s := s.offerNotice (.partState .ready)
  kickStore (forEach (fun id s => pmRecord (.member id .failed) s) held s)

/-- The part enters service (R166). A part that is BLANK stays so. -/
def enterService (s : State) : State :=
  match s.part with
  | .starting =>
    if 16 ≤ s.usableBlocks then enterReady s
    else
      let s := enterFrozen .fewBlocks { s with stage := .service }
      (s.onPm (fun p => { p with held := [] })).offerNotice (.partState .frozen)
  | .blank _ => { s with stage := .service }
  | .ready => s
  | .frozen => s

/-! ## FORMAT (R160) -/

/-- A deferred MAP is answered WRONG_STATE by FORMAT (R68). -/
def refuseDeferred (d : Deferred) (s : State) : State := s.refuse d.tag .wrongState

/-- Every block takes its values after FORMAT; the counters, the notice mask, the flags and the fault record stay (R160). -/
def formatReset (s : State) : State :=
  let s := forEach refuseDeferred s.gu.deferred s
  let s := forEach cancelEntry (s.entriesWhere (fun _ => true)) s
  let holds := s.gu.holds.map (fun e => (e.1, Hold.free e.2.generation))
  { s with
    stage := .service,
    pm := PlacementMap.reset,
    gu := { GrantUnit.reset with holds := holds.filter (fun e => e.2 ≠ Hold.free 0), counters := s.gu.counters },
    me := { MoveEngine.reset with counters := s.me.counters },
    sp := { StagingPool.reset with memory := s.sp.memory },
    dp := { DrivePort.reset with labels := s.dp.labels, counters := s.dp.counters, sent := s.dp.sent },
    sm := { ShelfMonitor.reset with abandoned := s.sm.abandoned || s.sm.transaction.isSome, counters := s.sm.counters },
    jc := { Journal.reset s.now with op := none, counters := s.jc.counters },
    agenda := [] }

/-- A FORMAT is accepted: STARTING, every block reset, the flush sent, the next poll round begun, and the erasing of the
64 blocks begun (R140, R160). -/
def beginFormat (tag : ReqTag) (arrayId : BitVec 64) (s : State) : State :=
  let s := formatReset { s with part := .starting }
  let s := s.onJc (fun j => { j with format := some ⟨tag, arrayId, false⟩, op := some (.erase s.now 0) })
  beginRound (sendFlush s)

/-- A FORMAT has failed: BLANK with cause FEW_BLOCKS, answered JOURNAL_DOWN (R160); on entry to BLANK every Member Table entry
is ABSENT (R2). -/
def failFormat (tag : ReqTag) (s : State) : State :=
  let s := s.onJc (fun j => { j with format := none, op := none, head := none, nextPage := 0, nextSeq := 0, queue := [],
                                     storePlace := [], imageRecord := none, imageStart := none, durable := .fresh })
  let s := s.onPm (fun p => { p with members := [] })
  { s with part := .blank (some .fewBlocks) }.refuse tag .journalDown

/-- The erasing of a FORMAT has ended: the fresh image is written to the lowest usable block (R160). -/
def writeFormatImage (f : FormatWork) (s : State) : State :=
  match s.blocksIn .erased with
  | [] => failFormat f.tag s
  | head :: _ =>
    let a : Account := { Account.fresh with arrayId := f.arrayId, bad := s.badFlags }
    let first : Record := ⟨1, .imageBegin a.arrayId a.params a.bad a.lost a.imageCounts, .jc, none⟩
    let s := s.condition head .head
    kickStore (s.onJc (fun j => { j with format := some { f with erased := true }, head := some head, nextPage := 0,
                                         nextSeq := 2, imageRecord := some first, durable := a }))

/-- An erase of a FORMAT has ended: the next block is erased, or with the last one the image is written, or the FORMAT
fails (R160). -/
def formatErased (f : FormatWork) (block : Nat) (s : State) : State :=
  if block + 1 < Config.storeBlocks then s.onJc (fun j => { j with op := some (.erase s.now (block + 1)) })
  else if (s.blocksIn .erased).length < 16 then failFormat f.tag (s.onJc (fun j => { j with op := none }))
  else writeFormatImage f (s.onJc (fun j => { j with op := none }))

/-- IMAGE_END of a FORMAT is durable: WRITING, READY, PART_STATE, OK (R160). -/
def formatComplete (f : FormatWork) (s : State) : State :=
  let s := s.onJc (fun j => { j with format := none, state := .writing, newestImage := j.imageStart, imageStart := none })
  let s := { s with part := .ready }
  let s := beginWindows (s.onPm (fun p => { p with arrayId := f.arrayId }))
  (s.offerNotice (.partState .ready)).answer f.tag .ok .empty

/-- A record of the journal's own is durable. -/
def jcDurable (r : Record) (s : State) : State :=
  match s.jc.format, r.body with
  | some f, .imageEnd .. => formatComplete f s
  | _, _ => s

end Sys2Proof.Machine
end

