-- ==== Sys2Proof/Machine/Settle.lean ====
section
/-! DEFINITION. The exchanges between the blocks within one step: each is taken as an event of its own, depth first, until none
is left (spec/95: a step is "whole and indivisible"), and how a command concludes. -/

namespace Sys2Proof.Machine

/-- The completion of a drive command reaches its owner (R131). -/
def takeCompletion (c : Completion) (s : State) : State :=
  match c.cmd.owner with
  | .lane n => laneCompleted n c s
  | .admission => joinCompleted c s
  | .startCheck => checkCompleted c s

/-- The value of a PARAM record takes effect at its owner (R55, R80, R81, R101, R132, R139). A MOVE_RATE of 0 leaves the token count
as it stands until the next window begins (DESIGN CHOICE, log 58). -/
def paramDurable (p : Param) (v : Nat) (s : State) : State :=
  match p with
  | .slabSize => s
  | .arrayId => s
  | .holdLife => s.onGu (fun g => { g with holdLife := v })
  | .driveTmo => s.onDp (fun d => { d with driveTmo := v })
  | .pollPeriod => s.onSm (fun m => { m with pollPeriod := v })
  | .backoffBits => s.onMe (fun m => { m with backoffBits := v })
  | .lockAfter => s.onMe (fun m => { m with lockAfter := v })
  | .ckptRows => s.onMe (fun m => { m with ckptRows := v })
  | .moveRate =>
    let s := s.onMe (fun m => { m with moveRate := v })
    if v = 0 then passTokens s else s

/-- Answer the request that waits for a record, where there is one. -/
def answerWaiting (reply : Option ReqTag) (result : Result) (s : State) : State :=
  match reply with
  | none => s
  | some tag => s.refuse tag result

/-- A record is durable: its owner acts (R151). -/
def ownerDurable (r : Record) (s : State) : State :=
  match r.owner with
  | .pm => pmDurable r s
  | .lane n => laneRecordDurable n r.body s
  | .jc => jcDurable r s
  | _ =>
    match r.body with
    | .param p v => answerWaiting r.reply .ok (paramDurable p v s)
    | _ => answerWaiting r.reply .ok s

/-- A record is queued: its owner acts (R151). -/
def ownerQueued (r : Record) (s : State) : State :=
  match r.owner with
  | .pm => pmQueued r s
  | .lane n => laneRecordQueued n r.body s
  | _ => s

/-- A record of the Placement Map will not be durable: the configuration request that waits for it, where there is one, is undone
and answered (R28, R158). -/
def mapRecordLost (reply : Option ReqTag) (s : State) : State := if reply.isSome then pmFrozen s else s

/-- A lane's record will not be durable: a lane in CLAIMING abandons its claim on the loss of JOB_BEGIN (R76, R158). -/
def laneRecordLost (n : Nat) (body : RecordBody) (s : State) : State :=
  match body with
  | .jobBegin .. => laneFrozen n s
  | _ => s

/-- A queued record is discarded as the journal freezes: its owner acts (R158). -/
def ownerDiscarded (r : Record) (s : State) : State :=
  match r.owner with
  | .pm => mapRecordLost r.reply s
  | .lane n => laneRecordLost n r.body s
  | .jc => s
  | _ => answerWaiting r.reply .journalDown s

/-- A record that waited for room is not made (R158). -/
def ownerUnmade (owner : JOwner) (w : Work) (s : State) : State :=
  match owner with
  | .pm => mapRecordLost w.reply s
  | .lane n => laneRecordUnmade n w.body (laneRecordLost n w.body s)
  | .jc => s
  | _ => answerWaiting w.reply .journalDown s

/-- One exchange is taken. -/
def handle (i : Internal) (s : State) : State :=
  match i with
  | .freeze cause => freezeJournal cause s
  | .completed c => takeCompletion c s
  | .memberCause id => memberCause id s
  | .driveAppeared id capacity formatOk => driveAppeared id capacity formatOk s
  | .driveGone id => driveGone id s
  | .setChanged t state => setChanged t state s
  | .holdEnded g _ _ mirrored => holdEnded g mirrored s
  | .targetWrite g t members => targetWrite g t members s
  | .reevaluate g => reevaluate g s
  | .pagesGranted n => enterToken n s
  | .rowStart n => rowStart n s
  | .recoveryGranted n => recoveryGranted n s
  | .commitCheck n => commitCheck n s
  | .settleLost n => settleLost n s
  | .rowAgain n => rowAgain n s
  | .recordQueued r => ownerQueued r s
  | .recordDurable r => ownerDurable r s
  | .roomServe => serveRoom s
  | .storeNext => kickStore s
  | .recordDiscarded r => ownerDiscarded r s
  | .recordUnmade owner w => ownerUnmade owner w s
  | .laneFrozen n => laneFrozen n s
  | .pmFrozen => pmFrozen s

/-- Take the exchanges of a step, depth first: what an exchange posts is taken before what was posted ahead of it. -/
def settle : Nat → State → State
  | 0, s => s
  | n + 1, s =>
    match s.agenda with
    | [] => s
    | i :: rest =>
      let t := handle i { s with agenda := [] }
      settle n { t with agenda := t.agenda ++ rest }

/-- The model's own bound on the exchanges of one step (log 2). Exchanges beyond it stay on the agenda and are taken with the
next command. -/
def settleBound : Nat := 1000000

/-- JOBS_IDLE is offered where the step has left no job and every lane IDLE, and it was not so before (R94). -/
def offerIdle (s t : State) : State := if t.jobsIdle && !s.jobsIdle then t.offerNotice .jobsIdle else t

/-- The end of a step: the exchanges have been taken; time and the queue of commands stand as they were. -/
def closeStep (s t : State) : State := { t with clock := s.clock, pending := s.pending }

/-- The state in which a command that has changed `s` to `t` ends: its exchanges are taken. -/
def finish (s t : State) : State := closeStep s (offerIdle s (settle settleBound t))

/-- The state in which a restart or a FORMAT ends: as for any command, with the shift register at 1 and JOBS_IDLE armed
afresh (R94, R99). -/
def finishReset (s t : State) : State :=
  { settle settleBound t with clock := ⟨s.clock.now, 1⟩, pending := s.pending }

/-- How a command that has changed `s` to `t` concludes. -/
def conclude (s t : State) : Answer := .next (finish s t)

/-- How a restart or a FORMAT concludes. -/
def concludeReset (s t : State) : Answer := .next (finishReset s t)

end Sys2Proof.Machine
end

