-- ==== Sys2Proof/Machine/Link.lean ====
section
/-! DEFINITION. Restart and the control link: COLD_RESET, INBOUND_HEADER, INBOUND_FRAME, INBOUND_FIFO_FULL, FRAME_BYTE_TIMEOUT,
ACCEPT_REQUEST and OUTBOUND_FRAME_SENT (R162, R167 to R171), and how an owner takes a request (R170). -/

namespace Sys2Proof.Machine

/-! ## Cold reset (R162) -/

/-- COLD_RESET: the cold path begins at once. -/
def execColdReset (s : State) : Answer := concludeReset s (restarted s)

/-! ## The receiver (R167, R168) -/

def countLink (f : LinkCounters → LinkCounters) (s : State) : State :=
  s.onMp (fun m => { m with counters := f m.counters })

def setReceiver (r : Receiver) (s : State) : State := s.onMp (fun m => { m with receiver := r })

/-- The bytes that a complete frame takes in the FIFO (spec/11). -/
def Frame.size (f : Frame) : Nat := 11 + f.payload.length

/-- The bytes of the complete frames in the FIFO. -/
def MsgPort.used (m : MsgPort) : Nat := (m.fifo.map Frame.size).sum

/-- The header check and the length of six header bytes (R167, spec/12 section B). -/
def headerGood (h : List Byte) : Bool :=
  decide (h.getD 5 0 = complementSum (h.take 5)) && decide (fieldAt h 0 2 ≤ 1024)

/-- A start byte has arrived, with bytes after it; where they fill the FIFO, or find it full, the frame is overrun (R168). -/
def startHeader (got : List Byte) (s : State) : State :=
  if s.mp.used + 1 + got.length < Config.fifoBytes then setReceiver (.header got false) s
  else countLink (fun c => { c with overruns := bump c.overruns }) (setReceiver (.header got true) s)

/-- Six header bytes have been collected: the receiver passes to PAYLOAD, or counts an overrun frame out, or rejects the
header and hunts on from the byte after the start byte (R167, R168). -/
def judgeHeader (h : List Byte) (overrun : Bool) (s : State) : State :=
  if headerGood h then
    setReceiver (if overrun then .discarding (fieldAt h 0 2 + 4) else .payload h []) s
  else
    let s := countLink (fun c => { c with headerErrors := bump c.headerErrors }) s
    match h.dropWhile (fun b => b ≠ 0xC3#8) with
    | [] => setReceiver .hunting s
    | _ :: rest => startHeader rest s

/-- A frame is bad: counted, faulted, and its bytes leave the FIFO (R167, R168). -/
def badFrame (s : State) : State :=
  (countLink (fun c => { c with badFrames := bump c.badFrames }) (setReceiver .hunting s)).offerFault
    (FaultOffer.bare .linkFrame)

/-- A frame is good: it stands in the FIFO, unless a RESET drains the part (R162, R168). -/
def goodFrame (f : Frame) (s : State) : State :=
  let s := countLink (fun c => { c with framesReceived := bump c.framesReceived }) (setReceiver .hunting s)
  if s.draining then s else s.onMp (fun m => { m with fifo := m.fifo ++ [f] })

/-- The frame of a header and a payload. -/
def frameOf (h payload : List Byte) : Frame := ⟨BitVec.ofNat 16 (fieldAt h 2 2), h.getD 4 0, payload⟩

/-- The payload and its check have been collected (R167). -/
def judgePayload (h got : List Byte) (s : State) : State :=
  let length := fieldAt h 0 2
  if fieldAt got length 4 = crc32 (got.take length) then goodFrame (frameOf h (got.take length)) s else badFrame s

/-- A byte of a header: no frame is complete with it, so that the byte that fills the FIFO overruns the frame (R168). The header
is collected and judged all the same (DEDUCED, log 17). -/
def headerByte (got : List Byte) (overrun : Bool) (b : Byte) (s : State) : State :=
  let full := decide (Config.fifoBytes ≤ s.mp.used + 2 + got.length)
  let s := if full && !overrun then countLink (fun c => { c with overruns := bump c.overruns }) s else s
  let got := got ++ [b]
  if got.length = 6 then judgeHeader got (overrun || full) s else setReceiver (.header got (overrun || full)) s

/-- The room that the FIFO offers to a frame: all its bytes to one that is complete, one less to one that is not, since that
one is rewound by the byte that fills the FIFO (R168). -/
def fifoRoom (complete : Bool) : Nat := if complete then Config.fifoBytes else Config.fifoBytes - 1

/-- A byte of a payload or its check: where it fills the FIFO and does not complete the frame, the frame is rewound at this byte
and its remaining bytes are discarded (R168). -/
def payloadByte (h got : List Byte) (b : Byte) (s : State) : State :=
  let total := fieldAt h 0 2 + 4
  let got := got ++ [b]
  if s.mp.used + 7 + got.length ≤ fifoRoom (decide (got.length = total)) then
    if got.length = total then judgePayload h got s else setReceiver (.payload h got) s
  else
    let left := total - got.length
    countLink (fun c => { c with overruns := bump c.overruns })
      (setReceiver (if left = 0 then .hunting else .discarding left) s)

/-- One byte arrives on the inbound line (R167, R168). -/
def receiveByte (b : Byte) (s : State) : State :=
  let s := s.onMp (fun m => { m with lastByte := s.now })
  match s.mp.receiver with
  | .hunting => if b = 0xC3#8 then startHeader [] s else s
  | .header got overrun => headerByte got overrun b s
  | .payload h got => payloadByte h got b s
  | .discarding left => setReceiver (if left ≤ 1 then .hunting else .discarding (left - 1)) s

/-- Bytes arrive, in order. -/
def receive (bytes : List Byte) (s : State) : State := forEach receiveByte bytes s

/-- INBOUND_HEADER: bytes up to the judgement of a header. -/
def execInboundHeader (bytes : List Byte) (s : State) : Answer := conclude s (receive bytes s)

/-- INBOUND_FRAME: the bytes that end a frame. -/
def execInboundFrame (bytes : List Byte) (s : State) : Answer := conclude s (receive bytes s)

/-- INBOUND_FIFO_FULL: the byte with which the FIFO is full and the frame it belongs to is not complete (R168). -/
def execInboundFifoFull (b : Byte) (s : State) : Answer := conclude s (receiveByte b s)

/-- The receiver is within a frame. -/
def Receiver.inFrame : Receiver → Bool
  | .hunting => false
  | .header .. => true
  | .payload .. => true
  | .discarding _ => true

/-- FRAME_BYTE_TIMEOUT: 10 ms have passed since the last byte of an incomplete frame (R167). -/
def execFrameByteTimeout (s : State) : Answer :=
  if s.mp.receiver.inFrame ∧ s.mp.lastByte + Config.ms 10 ≤ s.now then conclude s (badFrame s) else .next s

/-! ## Acceptance (R169) -/

/-- A reply place is neither in use nor reserved (R171). -/
def State.replyFree (s : State) : Bool :=
  decide (replyCount s.mp.outbound + s.mp.openTags.length < Config.maxReplies)

/-- The result of the part's state for a request kind (R162, R163, R169). -/
def State.stateRefusal (s : State) (k : ReqKind) : Option Result :=
  match s.part with
  | .starting => if k = .inquire ∨ k = .status then none else some .starting
  | .blank _ => if k = .inquire ∨ k = .status ∨ k = .format then none else some .wrongState
  | .ready => none
  | .frozen => none

/-- The first check that a frame fails (R169). -/
def State.acceptCheck (s : State) (f : Frame) : Option Result :=
  if f.tag = 0 then some .badField
  else if s.mp.openTags.contains f.tag then some .dupTag
  else
    match ReqKind.ofCode f.kind.toNat with
    | none => some .badKind
    | some k =>
      if !lengthAllowed k f.payload.length then some .badLength
      else
        match s.stateRefusal k with
        | some r => some r
        | none => if s.mp.requests.length < Config.maxRequests then none else some .busy

/-- The reply kind of a frame: its request kind with 0x80 added (R177). A kind that is no request kind is answered with 0x80:
R177 says so of a BAD_KIND refusal; that it holds of a BAD_FIELD (tag 0) or DUP_TAG refusal too is a DESIGN CHOICE (log 55). -/
def Frame.replyKind (f : Frame) : Nat := ((ReqKind.ofCode f.kind.toNat).map ReqKind.replyCode).getD 0x80

/-- A frame is refused: its reply is placed at once, and nothing else changes (R169). -/
def refuseFrame (f : Frame) (r : Result) (s : State) : State :=
  (countLink (fun c => { c with refused := bump c.refused }) s).placeFrame (.reply f.tag f.replyKind r .empty)

/-- A frame is accepted: its tag is open, and it takes a place in the request queue (R169). -/
def acceptFrame (f : Frame) (s : State) : State :=
  match ReqKind.ofCode f.kind.toNat with
  | none => s
  | some k =>
    let s := countLink (fun c => { c with accepted := bump c.accepted }) s
    s.onMp (fun m => { m with openTags := m.openTags ++ [f.tag],
                              requests := m.requests ++ [⟨f.tag, k, f.payload, false⟩] })

/-- The frame at the head of the FIFO is judged. -/
def judgeFrame (f : Frame) (s : State) : State :=
  match s.acceptCheck f with
  | some r => refuseFrame f r s
  | none => acceptFrame f s

/-- ACCEPT_REQUEST: the frame at the head of the FIFO is accepted or refused, once a reply place is free (R169). -/
def execAcceptRequest (s : State) : Answer :=
  match s.mp.fifo with
  | [] => .next s
  | f :: rest =>
    if s.replyFree ∧ s.draining = false then conclude s (judgeFrame f (s.onMp (fun m => { m with fifo := rest })))
    else .next s

/-! ## Sending (R162, R171) -/

/-- The reply OK of a RESET. -/
def OutFrame.resetReply : OutFrame → Bool
  | .reply _ kind result _ => decide (kind = ReqKind.reset.replyCode) && decide (result = .ok)
  | .notice _ => false

/-- A frame has left the outbound queue (R171, R176). -/
def countSent (f : OutFrame) (s : State) : State :=
  if f.isReply then countLink (fun c => { c with repliesSent := bump c.repliesSent }) s
  else countLink (fun c => { c with noticesSent := bump c.noticesSent }) s

/-- OUTBOUND_FRAME_SENT: the last byte of the head frame is sent. With the reply of a RESET the drain ends: every issued
command is cancelled, and the cold path begins (R162). -/
def execOutboundFrameSent (s : State) : Answer :=
  match s.mp.outbound with
  | [] => .next s
  | f :: rest =>
    let t := countSent f (s.onMp (fun m => { m with outbound := rest }))
    if s.draining ∧ f.resetReply then
      concludeReset s (restarted (forEach cancelEntry (t.entriesWhere (fun _ => true)) t))
    else conclude s t

/-! ## Taking a request (R170) -/

/-- An owner has a request that it has taken and not answered. -/
def State.ownerBusy (s : State) (o : ReqOwner) : Bool := s.mp.requests.any (fun r => r.taken && decide (r.owner = o))

/-- The first request of an owner that it has not taken. -/
def State.firstWaiting (s : State) (o : ReqOwner) : Option Request :=
  s.mp.requests.find? (fun r => !r.taken && decide (r.owner = o))

/-- The first TABLE_READ at the Placement Map that it has not taken. -/
def State.firstMapRead (s : State) : Option Request :=
  s.mp.requests.find? (fun r => !r.taken && decide (r.kind = .tableRead) && decide (r.owner = .pm))

/-- A request is taken now (R170): it is the first one of its owner, and the owner waits for no record; or it is the first
TABLE_READ at the Placement Map, which waits for records of a configuration request (R173; DEDUCED, log 18). -/
def State.turnOf (s : State) (r : Request) : Bool :=
  if s.ownerBusy r.owner then
    decide (r.kind = .tableRead) && decide (r.owner = .pm) && decide (s.firstMapRead = some r)
  else decide (s.firstWaiting r.owner = some r)

/-- The request that a command names, where its owner takes it now (R170, R173). -/
def State.takeable (s : State) (k : ReqKind) (tag : ReqTag) : Option Request :=
  match s.mp.requests.find? (fun r => decide (r.tag = tag) && decide (r.kind = k)) with
  | none => none
  | some r => if s.turnOf r then some r else none

/-- A request taken by its owner: answered by the part's state, or served (R170). -/
def serveRequest (k : ReqKind) (r : Request) (f : List Byte → State → State) (s : State) : State :=
  match s.stateRefusal k with
  | some result => s.refuse r.tag result
  | none => f r.payload s

/-- A command that names a request: taken where its owner takes it now. -/
def takeRequest (k : ReqKind) (tag : ReqTag) (f : List Byte → State → State) (s : State) : Answer :=
  match s.takeable k tag with
  | none => .next s
  | some r => conclude s (serveRequest k r f s)

end Sys2Proof.Machine
end

