-- ==== Sys2Proof/Machine/Requests.lean ====
section
/-! DEFINITION. The requests of the Message Port and of the whole part: INQUIRE, STATUS, TABLE_READ, SET_PARAM, NOTICE_MASK,
FAULT_READ, FAULT_CLEAR, RESET and FORMAT (spec/11, R160, R162). -/

namespace Sys2Proof.Machine

/-! ## INQUIRE and STATUS (R172) -/

def serveInquire (tag : ReqTag) (_p : List Byte) (s : State) : State :=
  s.answer tag .ok (.inquire Config.vendorCode Config.partCode Config.revision Config.capacities)

/-- INQUIRE. -/
def execInquire (tag : ReqTag) (s : State) : Answer := takeRequest .inquire tag (serveInquire tag) s

def State.holdsIn (s : State) (st : HoldState) : Nat := tableCount (fun h : Hold => decide (h.state = st)) s.gu.holds

def State.issuedCount (s : State) : Nat := (s.entriesWhere (fun _ => true)).length

/-- STATUS PART. The ring wait list's length does not count the label commands that wait for a label place (DEDUCED, log 45). -/
def State.partStatus (s : State) : PartStatus :=
  { state := s.part, frozenCause := s.jc.cause, link := s.mp.counters, noticesLost := s.mp.noticesLost,
    fault := s.mp.fault.map (fun c => c.offer.kind), grants := s.gu.counters, liveHolds := s.holdsIn .live,
    expiredHolds := s.holdsIn .expired, deferred := s.gu.deferred.length, drive := s.dp.counters,
    ringIssued := s.issuedCount, ringWaiting := s.dp.waiting.length, shelf := s.sm.counters }

/-- How many slabs of a volume are in a state. -/
def State.slabsIn (s : State) (v : Nat) (st : SlabState) : Nat :=
  tableCount (fun b : Slab => decide (b.volume = v) && decide (b.state = st)) s.pm.slabs

/-- STATUS VOLUME. -/
def State.volumeStatus (s : State) (v : Nat) : VolumeStatus :=
  ⟨s.volume v, s.slabsIn v .filling, s.slabsIn v .live, s.slabsIn v .moving, s.slabsIn v .committing⟩

/-- STATUS JOBS (R94, R107, R108, R111, R125). -/
def State.jobsStatus (s : State) : JobsStatus :=
  { paused := s.me.paused, waitingFill := (s.me.jobs.filter (fun j => j.kind = .fill)).length,
    waitingMove := (s.me.jobs.filter (fun j => j.kind = .move)).length, freePlaces := s.freePlaces,
    tokens := s.me.tokens, moveRate := s.me.moveRate,
    lanes := (List.range Config.laneCount).map (fun n => (s.lane n).state), counters := s.me.counters,
    freePages := s.sp.free.length, pageWaiters := s.sp.waiting.length, recoveryHolder := s.sp.holder,
    recoveryWaiters := s.sp.recoveryWait.length }

/-- The head block and its next page. -/
def Journal.headPage (j : Journal) : Option (Nat × Nat) := j.head.map (fun h => (h, j.nextPage))

/-- The cause of BLANK, where the part is BLANK. -/
def PartState.blankCause : PartState → Option (Option BlankCause)
  | .blank cause => some cause
  | .starting => none
  | .ready => none
  | .frozen => none

/-- STATUS JOURNAL; in BLANK it gives no head, no image, and a next number of 0 (R161). -/
def State.journalStatus (s : State) : JournalStatus :=
  let blank := s.part.blankCause
  { state := s.jc.state, frozenCause := s.jc.cause, blank := blank,
    head := if blank.isSome then none else s.jc.headPage, nextSeq := if blank.isSome then 0 else s.jc.nextSeq,
    queued := s.jc.queue.length, waiting := s.jc.roomWait.length, erased := (s.blocksIn .erased).length,
    awaitingErase := (s.blocksIn .awaiting).length, bad := (s.blocksIn .bad).length, badBlocks := s.blocksIn .bad,
    image := if blank.isSome then none else s.jc.newestImage, counters := s.jc.counters }

/-- STATUS: PART 0, VOLUME 1, JOBS 2, JOURNAL 3; a STATUS PART reply clears the notices-lost flag (R171, R172). -/
def serveStatus (tag : ReqTag) (p : List Byte) (s : State) : State :=
  match byteAt p 0 with
  | 0 => (s.answer tag .ok (.statusPart s.partStatus)).onMp (fun m => { m with noticesLost := false })
  | 1 => if byteAt p 1 ≤ 3 then s.answer tag .ok (.statusVolume (s.volumeStatus (byteAt p 1))) else s.refuse tag .badField
  | 2 => s.answer tag .ok (.statusJobs s.jobsStatus)
  | 3 => s.answer tag .ok (.statusJournal s.journalStatus)
  | _ => s.refuse tag .badField

/-- STATUS. -/
def execStatus (tag : ReqTag) (s : State) : Answer := takeRequest .status tag (serveStatus tag) s

/-! ## TABLE_READ (R70, R94, R144, R173) -/

/-- The record that a lane waits to place, damage ranges apart (R73). A last row that makes FRONT due leaves two where there is
no room, FRONT and the record of the job's end; the first is shown (DESIGN CHOICE, log 51). -/
def State.pendingRecord (s : State) (n : Nat) : Option RecordBody :=
  let works := ((s.jc.roomWait.find? (fun e => e.1 = .lane n)).map Prod.snd).getD []
  (works.map Work.body).find? (fun b => match b with
    | .damageAdd _ => false
    | _ => true)

/-- What TABLE_READ of LANE reports; outstanding are the lane's commands in the ring (R73, R94). A lane without a job has no slab: its
front and its persisted front are reported as 0 (DESIGN CHOICE, log 61). -/
def State.laneView (s : State) (n : Nat) : LaneView :=
  let l := s.lane n
  { lane := l, outstanding := (s.entriesWhere (ofLane n)).length, recoverySetHeld := decide (s.sp.holder = some n),
    pending := s.pendingRecord n,
    backoffLeft := l.backoffEnd.map (fun t => Config.reportedMs (t - s.now)),
    front := if l.job.isSome then (s.slab l.slab).front else 0,
    persisted := if l.job.isSome then (s.slab l.slab).persisted else 0 }

/-- The time left to a hold's deadline, for a hold that is not FREE (R70). -/
def State.holdTimeLeft (s : State) (h : Hold) : Option Nat :=
  if h.state = .free then none else some (Config.reportedMs (h.deadline - s.now))

/-- Answer with a list's entry, or NOT_FOUND beyond it. -/
def answerFound (tag : ReqTag) (body : Option ReplyBody) (s : State) : State :=
  match body with
  | some b => s.answer tag .ok b
  | none => s.refuse tag .notFound

/-- TABLE_READ of SLOT: NOT_FOUND for an UNUSED set or a slot at or above N (R173). -/
def State.slotView (s : State) (t k : Nat) : Option ReplyBody :=
  if (s.set t).state = .unused ∨ (s.set t).slots ≤ k then none else some (.slot (s.slot ⟨t, k⟩))

/-- Answer where the index lies in its range, else BAD_FIELD (R173). -/
def answerInRange (tag : ReqTag) (inRange : Bool) (body : ReplyBody) (s : State) : State :=
  if inRange then s.answer tag .ok body else s.refuse tag .badField

def serveTableRead (tag : ReqTag) (p : List Byte) (s : State) : State :=
  let i := fieldAt p 2 2
  match View.ofCode (byteAt p 0) with
  | none => s.refuse tag .badField
  | some .member => answerInRange tag (decide (i < 256)) (.member (s.member i) (s.errorRun i)) s
  | some .set => answerInRange tag (decide (i < 64)) (.set (s.set i)) s
  | some .slot => if i < 64 then answerFound tag (s.slotView i (fieldAt p 4 2)) s else s.refuse tag .badField
  | some .slab => answerInRange tag (decide (i < 16384)) (.slab (s.slab i)) s
  | some .hold => answerInRange tag (decide (i < 512)) (.hold (s.hold i) (s.holdTimeLeft (s.hold i))) s
  | some .job => answerFound tag ((s.me.jobs[i]?).map .job) s
  | some .lane => answerInRange tag (decide (i < 4)) (.lane (s.laneView i)) s
  | some .shelf =>
    answerInRange tag (decide (i < 16))
      (.shelf (s.shelf i) ((s.shelf i).lastGood.map (fun t => Config.reportedMs (s.now - t)))) s
  | some .damage =>
    if i < 1024 then answerFound tag ((s.me.damage[i]?).map .damage) s else s.refuse tag .badField

/-- TABLE_READ. -/
def execTableRead (tag : ReqTag) (s : State) : Answer := takeRequest .tableRead tag (serveTableRead tag) s

/-! ## SET_PARAM (R19, R55, R80, R81, R101, R132, R139, R174) -/

/-- The journal owner of a parameter other than the Placement Map's. -/
def Param.journalOwner : Param → JOwner
  | .slabSize => .pm
  | .arrayId => .pm
  | .holdLife => .gu
  | .driveTmo => .dp
  | .pollPeriod => .sm
  | .backoffBits => .me
  | .lockAfter => .me
  | .ckptRows => .me
  | .moveRate => .me

/-- A SET_PARAM at the Placement Map (R19, R27). -/
def setPmParam (tag : ReqTag) (q : Param) (v : Nat) (s : State) : State :=
  if s.part = .frozen then s.refuse tag .journalDown
  else if !paramInRange q v then s.refuse tag .badField
  else if s.pm.sets.any (fun e => e.2.state ≠ .unused) then s.refuse tag .wrongState
  else pmWork tag (.param q v) (setBusy (some (.slabSize tag)) (s.markTaken tag))

/-- A SET_PARAM at another owner. -/
def setOwnParam (tag : ReqTag) (q : Param) (v : Nat) (s : State) : State :=
  if !paramInRange q v then s.refuse tag .badField
  else if s.part = .frozen then s.refuse tag .journalDown
  else queueWork q.journalOwner ⟨.param q v, some tag⟩ (s.markTaken tag)

def serveSetParam (tag : ReqTag) (p : List Byte) (s : State) : State :=
  match Param.ofCode (byteAt p 0) with
  | none => s.refuse tag .badField
  | some q =>
    let v := fieldAt p 4 4
    if q.owner = .pm then setPmParam tag q v s else setOwnParam tag q v s

/-- SET_PARAM. -/
def execSetParam (tag : ReqTag) (s : State) : Answer := takeRequest .setParam tag (serveSetParam tag) s

/-! ## The notice mask and the fault record (R171, R175) -/

def serveNoticeMask (tag : ReqTag) (p : List Byte) (s : State) : State :=
  (s.answer tag .ok (.mask s.mp.mask)).onMp (fun m => { m with mask := maskOf p })

/-- NOTICE_MASK. -/
def execNoticeMask (tag : ReqTag) (s : State) : Answer := takeRequest .noticeMask tag (serveNoticeMask tag) s

def serveFaultRead (tag : ReqTag) (_p : List Byte) (s : State) : State := s.answer tag .ok (.fault s.mp.fault)

/-- FAULT_READ. -/
def execFaultRead (tag : ReqTag) (s : State) : Answer := takeRequest .faultRead tag (serveFaultRead tag) s

def serveFaultClear (tag : ReqTag) (_p : List Byte) (s : State) : State :=
  (s.answer tag .ok (.fault s.mp.fault)).onMp (fun m => { m with fault := none })

/-- FAULT_CLEAR. -/
def execFaultClear (tag : ReqTag) (s : State) : Answer := takeRequest .faultClear tag (serveFaultClear tag) s

/-! ## RESET and FORMAT (R160, R162) -/

/-- RESET taken in READY or FROZEN: the drain begins, the frames in the FIFO are discarded, the reply OK is placed (R162). -/
def serveReset (tag : ReqTag) (_p : List Byte) (s : State) : State :=
  ({ s with draining := true }.onMp (fun m => { m with fifo := [] })).answer tag .ok .empty

/-- RESET. -/
def execReset (tag : ReqTag) (s : State) : Answer := takeRequest .reset tag (serveReset tag) s

/-- The result that refuses a FORMAT (R160). -/
def State.formatRefusal (s : State) (arrayId : Nat) : Option Result :=
  match s.part with
  | .starting => some .starting
  | .ready => some .wrongState
  | .blank (some .storeFault) => some .wrongState
  | .blank (some .fewBlocks) => if arrayId = 0 then some .badField else none
  | .blank none => if arrayId = 0 then some .badField else none
  | .frozen => if arrayId = 0 then some .badField else none

/-- FORMAT. -/
def execFormat (tag : ReqTag) (s : State) : Answer :=
  match s.takeable .format tag with
  | none => .next s
  | some r =>
    let arrayId := fieldAt r.payload 0 8
    match s.formatRefusal arrayId with
    | some result => conclude s (s.refuse tag result)
    | none => concludeReset s (beginFormat tag (BitVec.ofNat 64 arrayId) (s.markTaken tag))

end Sys2Proof.Machine
end

