-- ==== Sys2Proof/Machine/Configure.lean ====
section
/-! DEFINITION. The configuration requests of the Placement Map: ADMIT, RELEASE_MEMBER, FAIL_MEMBER, DEFINE_SET, RETIRE_SET,
CREATE_VOLUME and GROW (spec/02). -/

namespace Sys2Proof.Machine

/-- A configuration request in FROZEN is answered JOURNAL_DOWN (R27); in READY it is checked and accepted. -/
def configure (tag : ReqTag) (f : State → State) (s : State) : State :=
  if s.part = .frozen then s.refuse tag .journalDown else f s

/-! ## Members (R31, R37, R38) -/

/-- ADMIT is accepted: JOINING, and the MEMBER record is queued; the label follows with its number (R31). -/
def beginJoin (tag : ReqTag) (id : Nat) (s : State) : State :=
  let s := setBusy (some (.joining tag id none false false)) (s.markTaken tag)
  let s := changeMember id { s.member id with state := .joining } s
  pmWork tag (s.joinRecord id) s

def serveAdmit (tag : ReqTag) (p : List Byte) (s : State) : State :=
  configure tag (fun s =>
    let id := byteAt p 0
    let m := s.member id
    if m.state ≠ .present ∨ m.formatOk = false then s.refuse tag .wrongState
    else if m.capacity ≤ 2048 then s.refuse tag .noSpace
    else beginJoin tag id s) s

/-- ADMIT. -/
def execAdmit (tag : ReqTag) (s : State) : Answer := takeRequest .joinMember tag (serveAdmit tag) s

/-- The entry of a released member: PRESENT with its bay's values, or ABSENT (R38). -/
def State.releasedEntry (s : State) (id : Nat) : Member :=
  let b := s.bay id
  if b.present then { Member.absent with state := .present, capacity := b.capacity, formatOk := b.formatOk }
  else Member.absent

/-- RELEASE_MEMBER is accepted (R38). -/
def beginRelease (tag : ReqTag) (id : Nat) (s : State) : State :=
  let s := setBusy (some (.releasing tag id (s.member id))) (s.markTaken tag)
  let s := changeMember id (s.releasedEntry id) (s.setErrorRun id 0)
  pmWork tag (.member id .unadmitted) s

def serveReleaseMember (tag : ReqTag) (p : List Byte) (s : State) : State :=
  configure tag (fun s =>
    let id := byteAt p 0
    let m := s.member id
    if m.state = .available ∨ (m.state = .failed ∧ m.bands = []) then beginRelease tag id s
    else s.refuse tag .wrongState) s

/-- RELEASE_MEMBER. -/
def execReleaseMember (tag : ReqTag) (s : State) : Answer :=
  takeRequest .releaseMember tag (serveReleaseMember tag) s

def serveFailMember (tag : ReqTag) (p : List Byte) (s : State) : State :=
  configure tag (fun s =>
    let id := byteAt p 0
    let st := (s.member id).state
    if st = .available ∨ st = .active then
      failMember id (some tag) (setBusy (some (.failing tag id)) (s.markTaken tag))
    else s.refuse tag .wrongState) s

/-- FAIL_MEMBER. -/
def execFailMember (tag : ReqTag) (s : State) : Answer := takeRequest .failMember tag (serveFailMember tag) s

/-! ## Sets (R39, R40, R42) -/

/-- Whether no element of a list occurs twice. -/
def allDistinct : List Nat → Bool
  | [] => true
  | a :: rest => !rest.contains a && allDistinct rest

/-- A band starting at `start` overlaps a band on a member's list (R4, R39). -/
def State.bandOverlaps (s : State) (start length : Nat) (b : Band) : Bool :=
  decide (start < b.start + (s.set b.set).bandLength) && decide (b.start < start + length)

/-- The first check of R39 that a DEFINE_SET fails. -/
def State.defineRefusal (s : State) (f : DefineFields) : Option Result :=
  let members := f.positions.map (fun p => s.member p.member)
  if !(decide (f.set < 64) && (decide (f.unit = 16) || decide (f.unit = 32) || decide (f.unit = 64))
      && decide (1 ≤ f.bandLength) && decide (3 ≤ f.positions.length) && decide (f.positions.length ≤ 16)) then
    some .badField
  else if !allDistinct (f.positions.map Position.member) then some .badField
  else if f.positions.any (fun p => p.start < 2048) then some .badField
  else if (s.set f.set).state ≠ .unused then some .wrongState
  else if members.any (fun m => m.state ≠ .available ∧ m.state ≠ .active) then some .wrongState
  else if f.positions.any (fun p => (s.member p.member).capacity < p.start + f.bandLength) then some .noSpace
  else if f.positions.any (fun p => (s.member p.member).bands.any (s.bandOverlaps p.start f.bandLength)) then some .noSpace
  else if members.any (fun m => 4 ≤ m.bands.length) then some .noSpace
  else if slotCount s.slabBlocks f.positions.length f.unit f.bandLength = 0 then some .noSpace
  else none

/-- DEFINE_SET is accepted: PENDING, with its geometry and FREE slots, and its record queued (R40). No SET_STATE is offered
here: this event is not in the list of R41 (DESIGN CHOICE, log 39). -/
def beginDefine (tag : ReqTag) (f : DefineFields) (s : State) : State :=
  let s := setBusy (some (.defining tag f.set)) (s.markTaken tag)
  let s := s.setSet f.set (newSet .pending s.slabBlocks f.unit f.bandLength f.positions)
  pmWork tag (.setDefine f.set f.unit f.bandLength f.positions) s

def serveDefineSet (tag : ReqTag) (p : List Byte) (s : State) : State :=
  configure tag (fun s =>
    match s.defineRefusal (defineFields p) with
    | some r => s.refuse tag r
    | none => beginDefine tag (defineFields p) s) s

/-- DEFINE_SET. -/
def execDefineSet (tag : ReqTag) (s : State) : Answer := takeRequest .defineSet tag (serveDefineSet tag) s

/-- A set that RETIRE_SET may retire: durable, with every slot FREE (R42). -/
def SetEntry.retirable (e : SetEntry) : Bool :=
  (decide (e.state = .online) || decide (e.state = .degraded) || decide (e.state = .failed))
    && decide (e.freeCount = e.slots)

def serveRetireSet (tag : ReqTag) (p : List Byte) (s : State) : State :=
  configure tag (fun s =>
    let t := byteAt p 0
    if 64 ≤ t then s.refuse tag .badField
    else if !(s.set t).retirable then s.refuse tag .wrongState
    else
      let s := setBusy (some (.retiring tag t)) (s.markTaken tag)
      pmWork tag (.setRetire t) (s.setSet t { s.set t with retiring := true })) s

/-- RETIRE_SET. -/
def execRetireSet (tag : ReqTag) (s : State) : Answer := takeRequest .retireSet tag (serveRetireSet tag) s

/-! ## Volumes (R43) -/

/-- The sum of the limits of the ONLINE volumes: the first index after their ranges (R14, R43). -/
def State.limitSum (s : State) : Nat :=
  (s.pm.volumes.map (fun e => if e.2.state = .online then e.2.limit else 0)).sum

/-- CREATE_VOLUME is accepted (R43). -/
def beginCreate (tag : ReqTag) (v limit : Nat) (pool : BitVec 64) (s : State) : State :=
  let base := s.limitSum
  let s := setBusy (some (.creating tag v)) (s.markTaken tag)
  pmWork tag (.volumeCreate v base limit pool) (s.setVolume v ⟨.unused, base, limit, 0, 0, pool⟩)

def serveCreateVolume (tag : ReqTag) (p : List Byte) (s : State) : State :=
  configure tag (fun s =>
    let v := byteAt p 0
    let limit := fieldAt p 2 2
    if !(decide (v < 4) && decide (1 ≤ limit) && decide (limit ≤ 16384)) then s.refuse tag .badField
    else if (s.volume v).state ≠ .unused then s.refuse tag .wrongState
    else if Config.maxSlabs < s.limitSum + limit then s.refuse tag .noSpace
    else beginCreate tag v limit (poolAt p 4) s) s

/-- CREATE_VOLUME. -/
def execCreateVolume (tag : ReqTag) (s : State) : Answer := takeRequest .createVolume tag (serveCreateVolume tag) s

/-! ## Growth (R44, R45) -/

/-- The policy is applied once for each new slab, in ascending order; none where a slab finds no slot (R26, R45). -/
def growHomes (pool : BitVec 64) : List Nat → State → Option (List Placement × State)
  | [], s => some ([], s)
  | g :: rest, s =>
    match s.chooseSlot pool with
    | none => none
    | some p =>
      match growHomes pool rest (s.takeSlot p .home g) with
      | none => none
      | some (more, s) => some (⟨g, p⟩ :: more, s)

/-- Placements in groups of sixty (R45). -/
def groupsOfSixty : Nat → List Placement → List (List Placement)
  | 0, _ => []
  | _ + 1, [] => []
  | n + 1, ps => ps.take 60 :: groupsOfSixty n (ps.drop 60)

/-- The records of a growth, in order (R45). -/
def growRecords (v old new : Nat) (pool : BitVec 64) (homes : List Placement) : List RecordBody :=
  let parts := groupsOfSixty homes.length homes
  .growOpen v old new pool :: parts.map .growPart ++ [.growClose parts.length]

/-- GROW is accepted: the pool is in force, the homes are reserved, the records are queued (R44, R45). -/
def beginGrow (tag : ReqTag) (v new : Nat) (pool oldPool : BitVec 64) (homes : List Placement) (s : State) : State :=
  let e := s.volume v
  let s := setBusy (some (.growing ⟨tag, v, e.count, new, oldPool, homes⟩)) (s.markTaken tag)
  let s := s.setVolume v { e with pool := pool }
  forEach (fun b s => pmWork tag b s) (growRecords v e.count new pool homes) s

/-- The new pool of a GROW, in the 12-byte form only (spec/12 section G). -/
def growPool (p : List Byte) (old : BitVec 64) : BitVec 64 := if p.length = 12 then poolAt p 4 else old

def serveGrow (tag : ReqTag) (p : List Byte) (s : State) : State :=
  configure tag (fun s =>
    let v := byteAt p 0
    let new := fieldAt p 2 2
    let e := s.volume v
    let pool := growPool p e.pool
    if 4 ≤ v then s.refuse tag .badField
    else if e.state ≠ .online then s.refuse tag .wrongState
    else if !(decide (e.count < new) && decide (new ≤ e.limit)) then s.refuse tag .badField
    else if s.freePlaces < new - e.count then s.refuse tag .busy
    else
      match growHomes pool ((List.range (new - e.count)).map (fun i => e.base + e.count + i)) s with
      | none => s.refuse tag .noSpace
      | some (homes, t) => beginGrow tag v new pool e.pool homes t) s

/-- GROW. -/
def execGrow (tag : ReqTag) (s : State) : Answer := takeRequest .grow tag (serveGrow tag) s

end Sys2Proof.Machine
end

