-- ==== Sys2Proof/Machine/MapRequests.lean ====
section
/-! DEFINITION. MAP and UNHOLD, and the deadlines of holds and deferrals: HOLD_EXPIRY, QUARANTINE_END and DEFERRAL_DEADLINE
(spec/03). -/

namespace Sys2Proof.Machine

/-! ## MAP (R50, R51) -/

/-- The first check of R50 that a MAP fails. -/
def State.mapRefusal (s : State) (f : MapFields) : Option Result :=
  let e := s.volume f.volume
  let last := f.first + f.count - 1
  if !(decide (f.volume < 4) && decide (1 ≤ f.count) && decide (f.count ≤ 4096)) then some .badField
  else if f.first / s.slabBlocks ≠ last / s.slabBlocks then some .badField
  else if e.ready * s.slabBlocks ≤ last then some .outOfRange
  else if s.gu.freeOrder = [] then some .busy
  else none

/-- A MAP refused under R50: counted, and nothing else changes. -/
def refuseMap (tag : ReqTag) (r : Result) (s : State) : State :=
  countGrant (fun c => { c with refusals := bump c.refusals }) (s.refuse tag r)

/-- A MAP that has passed its checks is granted or deferred (R51). -/
def placeMap (a : MapAsk) (s : State) : State :=
  match s.placing a.slab a.access a.first a.count with
  | .deferred => deferMap a s
  | p => grantPlaced a p s

/-- The global slab index of a VLB of a volume (R20). -/
def State.slabOf (s : State) (v vlb : Nat) : Nat := (s.volume v).base + vlb / s.slabBlocks

def serveMap (tag : ReqTag) (p : List Byte) (s : State) : State :=
  let f := mapFields p
  match f.access with
  | none => refuseMap tag .badField s
  | some access =>
    match s.mapRefusal f with
    | some r => refuseMap tag r s
    | none => placeMap ⟨tag, f.volume, f.first, f.count, s.slabOf f.volume f.first, access⟩ s

/-- MAP. -/
def execMap (tag : ReqTag) (s : State) : Answer := takeRequest .map tag (serveMap tag) s

/-! ## UNHOLD (R58 to R61) -/

/-- The form of an UNHOLD (R58); its payload has `n` bytes. -/
def UnholdFields.formGood (f : UnholdFields) (n : Nat) : Bool :=
  decide (f.hold < 512) && decide (f.outcome ≤ 1) && decide (f.listCount ≤ 4) && decide (f.listCount + 6 = n)

/-- The outcome DONE or FAILED of an ended hold is counted; DONE only with OK (R69). -/
def countEnd (done : Bool) (result : Result) (s : State) : State :=
  if done then
    if result = .ok then countGrant (fun c => { c with endsDone := bump c.endsDone }) s else s
  else countGrant (fun c => { c with endsFailed := bump c.endsFailed }) s

/-- The listed members are passed to the Placement Map, in the order listed (R61). -/
def passMembers (members : List Nat) (s : State) : State :=
  forEach (fun id s => s.post (.memberCause id)) members s

/-- After the members of a known mirrored hold, the Move Engine is asked about TARGET_WRITE (R61). -/
def askTargetWrite (e : Hold) (members : List Nat) (s : State) : State :=
  match e.target with
  | none => s
  | some t => s.post (.targetWrite e.slab t members)

/-- An UNHOLD of correct form (R59). The report of an ended WRITE hold (R62) reaches the lanes before the listed members are passed on
(R61): no rule orders the two (DESIGN CHOICE, log 60). -/
def endHold (tag : ReqTag) (f : UnholdFields) (s : State) : State :=
  let e := s.hold f.hold
  if e.state = .free ∨ e.generation ≠ f.generation then
    let s := countGrant (fun c => { c with notFoundReplies := bump c.notFoundReplies }) s
    passMembers f.members (s.refuse tag .notFound)
  else if e.state = .live then
    let s := reportEnd e (freeHold f.hold s)
    let s := countEnd (decide (f.outcome = 0)) .ok (s.answer tag .ok .empty)
    askTargetWrite e f.members (passMembers f.members s)
  else
    let s := countGrant (fun c => { c with tooLateReplies := bump c.tooLateReplies }) s
    let s := countEnd (decide (f.outcome = 0)) .tooLate (s.refuse tag .tooLate)
    askTargetWrite e f.members (passMembers f.members s)

def serveUnhold (tag : ReqTag) (p : List Byte) (s : State) : State :=
  let f := unholdFields p
  if f.formGood p.length then endHold tag f s else s.refuse tag .badField

/-- UNHOLD. -/
def execUnhold (tag : ReqTag) (s : State) : Answer := takeRequest .unhold tag (serveUnhold tag) s

/-! ## Deadlines (R56, R57, R67) -/

/-- A LIVE hold expires (R56). -/
def expireHold (h : Nat) (e : Hold) (s : State) : State :=
  let s := s.setHold h { e with state := .expired, deadline := e.deadline + Config.ms e.lifetime }
  let s := countGrant (fun c => { c with expiries := bump c.expiries }) s
  reportEnd e (s.offerNotice (.holdExpired h e.generation e.volume e.first e.count e.slab e.access))

/-- HOLD_EXPIRY. -/
def execHoldExpiry (h : Nat) (s : State) : Answer :=
  let e := s.hold h
  if e.state = .live ∧ e.deadline ≤ s.now then conclude s (expireHold h e s) else .next s

/-- QUARANTINE_END. -/
def execQuarantineEnd (h : Nat) (s : State) : Answer :=
  let e := s.hold h
  if e.state = .expired ∧ e.deadline ≤ s.now then conclude s (freeHold h s) else .next s

/-- A deferred MAP is answered BUSY at its deadline (R67). -/
def timeOutDeferred (tag : ReqTag) (s : State) : State :=
  countGrant (fun c => { c with deferralTimeouts := bump c.deferralTimeouts }) ((dropDeferred tag s).refuse tag .busy)

/-- DEFERRAL_DEADLINE. -/
def execDeferralDeadline (tag : ReqTag) (s : State) : Answer :=
  match s.gu.deferred.find? (fun d => d.tag = tag) with
  | none => .next s
  | some d => if d.deadline ≤ s.now then conclude s (timeOutDeferred tag s) else .next s

end Sys2Proof.Machine
end

