-- ==== Sys2Proof/Machine/JobRequests.lean ====
section
/-! DEFINITION. The requests of the Move Engine: REBALANCE, MOVE, CANCEL_JOB, PAUSE_JOBS, RESUME_JOBS, DAMAGE_READ and DAMAGE_CLEAR,
and the lanes' own events: LANE_CLAIM, RATE_WINDOW and BACKOFF_END (spec/04, spec/05, spec/06). -/

namespace Sys2Proof.Machine

/-! ## Admitting jobs (R90, R91) -/

/-- A MOVE job as REBALANCE and MOVE admit it. -/
def moveJob (g : Nat) (candidates : BitVec 64) (salvage : Bool) : Job :=
  { kind := .move, slab := g, candidates := candidates, salvage := salvage, resume := none, retained := none,
    cause := none }

/-- A slab that a REBALANCE takes: LIVE, without a job, its home set not in the list (R90). -/
def State.movable (s : State) (ids : List Nat) (g : Nat) : Bool :=
  let e := s.slab g
  decide (e.state = .live) && !e.mark && !ids.contains e.home.set

/-- The slabs are examined in ascending order; the jobs admitted and the slabs left out are counted (R90). -/
def admitMoves (ids : List Nat) (salvage : Bool) : List Nat → Nat → Nat → State → Nat × Nat × State
  | [], jobs, leftOut, s => (jobs, leftOut, s)
  | g :: rest, jobs, leftOut, s =>
    if s.movable ids g then
      if 0 < s.freePlaces then admitMoves ids salvage rest (jobs + 1) leftOut (admitJob (moveJob g (poolOf ids) salvage) s)
      else admitMoves ids salvage rest jobs (leftOut + 1) s
    else admitMoves ids salvage rest jobs leftOut s

/-- The global slab indices of a volume's slabs, in ascending order. -/
def Volume.slabIndices (e : Volume) : List Nat := (List.range e.count).map (fun k => e.base + k)

def serveRebalance (tag : ReqTag) (p : List Byte) (s : State) : State :=
  let v := byteAt p 0
  let ids := bytesFrom p 2
  let e := s.volume v
  if !(decide (v < 4) && flagOk (byteAt p 1) && decide (1 ≤ ids.length) && decide (ids.length ≤ 16)
      && ids.all (fun t => decide (t < 64)) && allDistinct ids) then s.refuse tag .badField
  else if e.state ≠ .online then s.refuse tag .wrongState
  else
    let r := admitMoves ids (byteAt p 1 != 0) e.slabIndices 0 0 s
    r.2.2.answer tag .ok (.rebalanced r.1 r.2.1)

/-- REBALANCE. -/
def execRebalance (tag : ReqTag) (s : State) : Answer := takeRequest .rebalance tag (serveRebalance tag) s

/-- The first check of R91 that a MOVE fails. -/
def State.moveRefusal (s : State) (v t salvage k : Nat) : Option Result :=
  let e := s.volume v
  let b := s.slab (e.base + k)
  if !(decide (v < 4) && decide (t < 64) && flagOk salvage) then some .badField
  else if e.state ≠ .online then some .wrongState
  else if e.count ≤ k then some .outOfRange
  else if b.state = .filling ∨ b.mark = true then some .wrongState
  else if b.home.set = t then some .wrongState
  else if s.freePlaces = 0 then some .busy
  else none

def serveMove (tag : ReqTag) (p : List Byte) (s : State) : State :=
  let v := byteAt p 0
  let t := byteAt p 1
  let k := fieldAt p 4 2
  match s.moveRefusal v t (byteAt p 2) k with
  | some r => s.refuse tag r
  | none =>
    let g := (s.volume v).base + k
    (admitJob (moveJob g (poolOf [t]) (byteAt p 2 != 0)) s).answer tag .ok (.moved g)

/-- MOVE. -/
def execMove (tag : ReqTag) (s : State) : Answer := takeRequest .move tag (serveMove tag) s

/-! ## CANCEL_JOB (R92) -/

/-- A waiting MOVE job is cancelled. -/
def cancelWaiting (tag : ReqTag) (j : Job) (s : State) : State :=
  if j.retained.isNone then
    let s := s.onMe (fun m => { m with jobs := removeFirst j m.jobs })
    (s.setMark j.slab false).answer tag .ok .empty
  else if j.cause.isSome then s.refuse tag .wrongState
  else (s.markJob j.slab .cancelled).answer tag .ok .empty

/-- A MOVE job in a lane is cancelled; the reply OK does not wait for JOB_ABORT. -/
def cancelInLane (tag : ReqTag) (n : Nat) (s : State) : State :=
  if (s.lane n).takesCause then takeCause n .cancelled (s.answer tag .ok .empty) else s.refuse tag .wrongState

/-- A job of a slab is cancelled according to where it stands. -/
def cancelSlab (tag : ReqTag) (g : Nat) (s : State) : State :=
  match s.me.jobs.find? (fun j => j.slab = g), s.laneOf g with
  | some j, _ => if j.kind = .fill then s.refuse tag .wrongState else cancelWaiting tag j s
  | none, some n => if (s.lane n).moves then cancelInLane tag n s else s.refuse tag .wrongState
  | none, none => s.refuse tag .notFound

def serveCancelJob (tag : ReqTag) (p : List Byte) (s : State) : State :=
  let v := byteAt p 0
  let k := fieldAt p 2 2
  let e := s.volume v
  if 4 ≤ v then s.refuse tag .badField
  else if e.state ≠ .online then s.refuse tag .wrongState
  else if e.count ≤ k then s.refuse tag .outOfRange
  else if (s.slab (e.base + k)).mark = false then s.refuse tag .notFound
  else cancelSlab tag (e.base + k) s

/-- CANCEL_JOB. -/
def execCancelJob (tag : ReqTag) (s : State) : Answer := takeRequest .cancelJob tag (serveCancelJob tag) s

/-! ## Pause and resume (R93) -/

/-- Every lane is told in ascending order, and the request is answered (R93; DESIGN CHOICE, log 37). -/
def servePauseJobs (tag : ReqTag) (_p : List Byte) (s : State) : State :=
  let s := s.onMe (fun m => { m with paused := true })
  (forEach pauseLane (List.range Config.laneCount) s).answer tag .ok .empty

/-- PAUSE_JOBS. -/
def execPauseJobs (tag : ReqTag) (s : State) : Answer := takeRequest .pauseJobs tag (servePauseJobs tag) s

/-- Every PAUSED lane asks for its pages, the lowest lane first (R93; the order: DESIGN CHOICE, log 37). -/
def serveResumeJobs (tag : ReqTag) (_p : List Byte) (s : State) : State :=
  let s := s.onMe (fun m => { m with paused := false })
  (forEach resumeLane (List.range Config.laneCount) s).answer tag .ok .empty

/-- RESUME_JOBS. -/
def execResumeJobs (tag : ReqTag) (s : State) : Answer := takeRequest .resumeJobs tag (serveResumeJobs tag) s

/-! ## The Damage List (R123, R124) -/

def serveDamageRead (tag : ReqTag) (p : List Byte) (s : State) : State :=
  let start := fieldAt p 0 2
  let count := byteAt p 2
  if !(decide (start < 1024) && decide (1 ≤ count) && decide (count ≤ 64)) then s.refuse tag .badField
  else
    s.answer tag .ok
      (.damageList s.me.damage.length s.me.lost s.me.counters.damageOverflow ((s.me.damage.drop start).take count))

/-- DAMAGE_READ. -/
def execDamageRead (tag : ReqTag) (s : State) : Answer := takeRequest .damageRead tag (serveDamageRead tag) s

def serveDamageClear (tag : ReqTag) (p : List Byte) (s : State) : State :=
  let v := byteAt p 0
  let first := fieldAt p 4 8
  let count := fieldAt p 12 4
  if !(decide (v < 4) && decide (1 ≤ count)) then s.refuse tag .badField
  else if s.part = .frozen then s.refuse tag .journalDown
  else if damageSplits v first count s.me.damage && decide (Config.maxDamage ≤ s.me.damage.length) then
    s.refuse tag .noSpace
  else if !damageTouches v first count s.me.damage then s.answer tag .ok .empty
  else queueWork .me ⟨.damageClear v first count, some tag⟩ (s.markTaken tag)

/-- DAMAGE_CLEAR. -/
def execDamageClear (tag : ReqTag) (s : State) : Answer := takeRequest .damageClear tag (serveDamageClear tag) s

/-! ## Claims, rate windows and the end of a back-off (R74, R81, R100) -/

/-- LANE_CLAIM: an IDLE lane examines the waiting jobs. -/
def execLaneClaim (n : Nat) (s : State) : Answer :=
  if n < Config.laneCount ∧ s.mayClaim n = true then conclude s (claimScan n [] s.me.jobs s) else .next s

/-- A rate window begins: the count is set to MOVE_RATE, and the waiting lanes are served in order (R81). The windows follow one
another also while MOVE_RATE is 0, and set the count to 0 then (DESIGN CHOICE, log 58). -/
def beginWindow (start : Nat) (s : State) : State :=
  serveTokens Config.laneCount (s.onMe (fun m => { m with windowStart := some start, tokens := m.moveRate }))

/-- RATE_WINDOW: 100 ms have passed since the window in progress began. -/
def execRateWindow (s : State) : Answer :=
  match s.me.windowStart with
  | none => .next s
  | some w => if w + Config.ms 100 ≤ s.now then conclude s (beginWindow (w + Config.ms 100) s) else .next s

/-- BACKOFF_END: the drawn delay has passed, and the lane begins a new attempt at its row (R100). -/
def execBackoffEnd (n : Nat) (s : State) : Answer :=
  let l := s.lane n
  match l.backoffEnd with
  | none => .next s
  | some t => if l.state = .backoff ∧ t ≤ s.now then conclude s (startAttempt n s) else .next s

end Sys2Proof.Machine
end

