-- ==== Sys2Proof/Machine/Fabric.lean ====
section
/-! DEFINITION. The messages of the drive fabric and the deadlines of the Drive Port: READ_DATA, PULL, TAGS, END_MESSAGE,
FLUSH_ANSWER, FLUSH_RETRY and COMMAND_TIMEOUT (R128, R130 to R132). -/

namespace Sys2Proof.Machine

/-! ## Live messages (R128, R130) -/

/-- The command that a command id names, where a message about it is live: the flush has been answered, the entry is ISSUED,
and the generations agree. -/
def State.liveCmd (s : State) (e generation : Nat) : Option Cmd :=
  if s.dp.flush = .answered ∧ (s.ring e).generation = generation then (s.ring e).cmd else none

/-- The same, for a message about one block: its index lies below the count, and the operation matches. -/
def State.liveBlock (s : State) (e generation block : Nat) (op : DriveOp) : Option Cmd :=
  match s.liveCmd e generation with
  | none => none
  | some c => if block < c.count ∧ c.op = op then some c else none

/-- A block of a command has arrived. -/
def markReceived (e block : Nat) (s : State) : State :=
  let r := s.ring e
  s.setRing e { r with received := r.received ||| (1#64 <<< block) }

/-- READ_DATA: a live block is laid in its page position; a late one is discarded. -/
def execReadData (e generation block : Nat) (data : BlockData) (blockTag : TagBits) (s : State) : Answer :=
  match s.liveBlock e generation block .read with
  | some c => conclude s (markReceived e block (layPage c block ⟨data, blockTag⟩ s))
  | none => conclude s (countLate s)

/-- PULL: a live pull is answered with the block and its staged tag; any other is refused. -/
def execPull (e generation block : Nat) (s : State) : Answer :=
  match s.liveBlock e generation block .write with
  | some c =>
    let b := s.pageOf c block
    conclude s (s.send (.pullAnswer e generation block b.data b.tag))
  | none => conclude s (countLate (s.send (.pullRefused e generation)))

/-- A returned tag is compared with the staged one; a difference sets the mismatch flag. -/
def compareTag (e : Nat) (c : Cmd) (block : Nat) (blockTag : TagBits) (s : State) : State :=
  if (s.pageOf c block).tag = blockTag then s
  else s.setRing e { s.ring e with mismatch := true }

/-- TAGS: a live stored tag is compared with the staged tag; a late one is discarded. -/
def execTags (e generation block : Nat) (blockTag : TagBits) (s : State) : Answer :=
  match s.liveBlock e generation block .readTags with
  | some c => conclude s (compareTag e c block blockTag (markReceived e block s))
  | none => conclude s (countLate s)

/-! ## Completion (R131) -/

/-- The first block of a READ or READ_TAGS that has not arrived. -/
def RingEntry.firstMissing (r : RingEntry) (c : Cmd) : Option Nat :=
  if c.op = .write then none else (List.range c.count).find? (fun i => !r.received.getLsbD i)

/-- The status and the first failed DBN with which an end message completes its command (R131). -/
def RingEntry.endOutcome (r : RingEntry) (c : Cmd) (status : EndStatus) : CmdStatus × Nat :=
  match status with
  | .media firstFailed => (.media, firstFailed)
  | .noDevice => (.noDevice, 0)
  | .good =>
    match r.firstMissing c with
    | some i => (.media, c.dbn + i)
    | none => (.good, 0)

/-- END_MESSAGE: a live end completes its command; a late one is discarded. The ring wait list is served before the owner and the
Placement Map act on the completion (DESIGN CHOICE, log 48). -/
def execEndMessage (e generation : Nat) (status : EndStatus) (s : State) : Answer :=
  match s.liveCmd e generation with
  | some c =>
    let o := (s.ring e).endOutcome c status
    conclude s (serveCommands (completeEntry e o.1 o.2 true s))
  | none => conclude s (countLate s)

/-! ## The flush (R128) -/

/-- FLUSH_ANSWER: the port begins to issue commands. -/
def execFlushAnswer (s : State) : Answer :=
  match s.dp.flush with
  | .waiting _ _ => conclude s (flushDone s)
  | .unsent => .next s
  | .answered => .next s

/-- The flush has not been answered within 1 s: it is sent again, or after the third the port goes on (R128). DRIVE_TIMEOUT is
offered before the commands held until then are served, so it is captured ahead of a fault of theirs (DESIGN CHOICE, log 52). -/
def retryFlush (tries : Nat) (s : State) : State :=
  if tries < 3 then (s.onDp (fun d => { d with flush := .waiting (tries + 1) s.now })).send .flush
  else flushDone (s.offerFault (FaultOffer.bare .driveTimeout))

/-- FLUSH_RETRY: 1 s has passed since the flush was last sent. -/
def execFlushRetry (s : State) : Answer :=
  match s.dp.flush with
  | .waiting tries sentAt =>
    if sentAt + Config.seconds 1 ≤ s.now then conclude s (retryFlush tries s) else .next s
  | .unsent => .next s
  | .answered => .next s

/-! ## Timeouts (R132) -/

/-- The command of an entry times out: counted, a cancel is sent, and it completes TIMEOUT; the ring wait list is served before
the owner acts (DESIGN CHOICE, log 48). -/
def timeOutEntry (e : Nat) (s : State) : State :=
  let s := s.onDp (fun d => { d with counters := { d.counters with timeouts := bump d.counters.timeouts } })
  serveCommands (completeEntry e .timeout 0 true (s.send (.cancel e (s.ring e).generation)))

/-- COMMAND_TIMEOUT: the deadline of an ISSUED entry is reached. -/
def execCommandTimeout (e : Nat) (s : State) : Answer :=
  if (s.ring e).cmd.isSome ∧ (s.ring e).deadline ≤ s.now then conclude s (timeOutEntry e s) else .next s

end Sys2Proof.Machine
end

