-- ==== Sys2Proof/Machine/Bus.lean ====
section
/-! DEFINITION. The management bus: POLL_ROUND_START, STATE_POLL_END and TRANSACTION_LIMIT (spec/08). -/

namespace Sys2Proof.Machine

def countShelf (f : ShelfCounters → ShelfCounters) (s : State) : State :=
  s.onSm (fun m => { m with counters := f m.counters })

/-! ## Answers (R137, R138) -/

/-- The bay record at an offset of an answer, with the adjustment of R138. The places of the three flags in their byte, and
the values of the condition byte, are the model's (DESIGN CHOICE, log 12). -/
def bayAt (answer : List Byte) (i : Nat) : Bay :=
  let flags := byteAt answer i
  let b : Bay := ⟨flags.testBit 0, flags.testBit 1, flags.testBit 2, fieldAt answer (i + 1) 6⟩
  if b.ready && !b.occupied then Bay.cleared else b

/-- A good answer: the condition and the sixteen bay records. -/
structure ShelfAnswer where
  faulted : Bool
  bays : List Bay
  deriving DecidableEq, Repr

def answerOf (answer : List Byte) : ShelfAnswer :=
  ⟨byteAt answer 0 != 0, (List.range 16).map (fun b => bayAt answer (1 + 7 * b))⟩

/-- The judgement of a transaction that has ended (R138). -/
inductive PollJudgement where
  | good (answer : ShelfAnswer)
  | badCheck
  | unanswered
  deriving DecidableEq, Repr

/-- The judgement of an answer that came within the limit, or not. -/
def judgeAnswer (a : PollAnswer) (inTime : Bool) : PollJudgement :=
  match a with
  | .noAck => .unanswered
  | .bytes answer =>
    if answer.length = 114 ∧ inTime = true then
      if answer.getD 113 0 = complementSum (answer.take 113) then .good (answerOf answer) else .badCheck
    else .unanswered

/-! ## Bays (R142) -/

/-- A BAY_CHANGE notice, counted (R145). -/
def offerBayChange (id : Nat) (old new : Bay) (s : State) : State :=
  (countShelf (fun c => { c with bayChanges := bump c.bayChanges }) s).offerNotice (.bayChange id old new)

/-- Whether a change of a bay record is noticed. -/
def bayChanged (old new : Bay) : Bool :=
  if old.present || new.present then
    decide (old.present ≠ new.present) || decide (old.capacity ≠ new.capacity) || decide (old.formatOk ≠ new.formatOk)
  else decide (old.occupied ≠ new.occupied) || decide (old.ready ≠ new.ready)

/-- The reports of a changed bay: gone, then appeared. -/
def reportBay (id : Nat) (old new : Bay) (s : State) : State :=
  let s := if old.present then s.post (.driveGone id) else s
  if new.present then s.post (.driveAppeared id new.capacity new.formatOk) else s

/-- One bay is compared (R142). -/
def compareBay (address : Nat) (held new : List Bay) (i : Nat) (s : State) : State :=
  let old := held.getD i Bay.cleared
  let now := new.getD i Bay.cleared
  if bayChanged old now then
    offerBayChange (address * 16 + i) old now (reportBay (address * 16 + i) old now s)
  else s

/-- How many of some bays have a drive present. -/
def presentCount (bays : List Bay) : Nat := (bays.filter Bay.present).length

/-! ## The Shelf Table (R141, R143) -/

/-- A good answer is taken (R141). -/
def takeAnswer (address : Nat) (a : ShelfAnswer) (s : State) : State :=
  let e := s.shelf address
  let s := s.setShelf address { state := .up, misses := 0, faulted := a.faulted, bays := a.bays, lastGood := some s.now }
  let s := if e.state = .up ∧ e.faulted = a.faulted then s
    else s.offerNotice (.shelfUp address a.faulted (presentCount a.bays))
  forEach (compareBay address e.bays a.bays) (List.range 16) s

/-- A bay of a lost shelf: reported gone; noticed where its record was not clear (R143). -/
def loseBay (address : Nat) (held : List Bay) (i : Nat) (s : State) : State :=
  let old := held.getD i Bay.cleared
  let s := s.post (.driveGone (address * 16 + i))
  if old.occupied || old.ready then offerBayChange (address * 16 + i) old Bay.cleared s else s

/-- A shelf is LOST (R143). -/
def loseShelf (address : Nat) (s : State) : State :=
  let e := s.shelf address
  let s := s.setShelf address { e with state := .lost, misses := 3, bays := List.replicate 16 Bay.cleared }
  let s := countShelf (fun c => { c with shelvesLost := bump c.shelvesLost }) s
  let s := s.offerNotice (.shelfLost address (presentCount e.bays))
  forEach (loseBay address e.bays) (List.range 16) s

/-- A miss is taken (R143). -/
def takeMiss (address : Nat) (s : State) : State :=
  let e := s.shelf address
  match e.state with
  | .unseen => s
  | .lost => s
  | .up => if 2 ≤ e.misses then loseShelf address s else s.setShelf address { e with misses := e.misses + 1 }

/-- A judged transaction is taken, with its counters (R145). -/
def takeJudgement (address : Nat) (j : PollJudgement) (s : State) : State :=
  match j with
  | .good a => takeAnswer address a s
  | .badCheck => takeMiss address (countShelf (fun c => { c with badChecks := bump c.badChecks }) s)
  | .unanswered => takeMiss address (countShelf (fun c => { c with unanswered := bump c.unanswered }) s)

/-! ## Rounds (R139) -/

/-- After a transaction the next address is polled, or the round has ended. -/
def nextPoll (address : Nat) (s : State) : State :=
  if address + 1 < Config.shelfCount then beginPoll (address + 1) s else s.onSm (fun m => { m with transaction := none })

/-- A transaction ends and is judged. -/
def endPoll (address : Nat) (j : PollJudgement) (s : State) : State := nextPoll address (takeJudgement address j s)

/-- The periodic rounds run from the end of the first round of a start-up on (R139). -/
def Stage.polls : Stage → Bool
  | .scan => false
  | .firstRound => false
  | .labelChecks => true
  | .service => true

/-- POLL_ROUND_START: POLL_PERIOD has passed since the beginning of the last round, and that round has ended. -/
def execPollRoundStart (s : State) : Answer :=
  match s.sm.roundStart with
  | none => .next s
  | some w =>
    if s.stage.polls = true ∧ s.sm.transaction = none ∧ w + Config.ms s.sm.pollPeriod ≤ s.now then
      conclude s (beginRound s)
    else .next s

/-- STATE_POLL_END: the transaction in progress ends. -/
def execStatePollEnd (answer : PollAnswer) (s : State) : Answer :=
  match s.sm.transaction with
  | none => .next s
  | some (address, start) =>
    conclude s (endPoll address (judgeAnswer answer (decide (s.now ≤ start + Config.ms 5))) s)

/-- TRANSACTION_LIMIT: the transaction in progress has lasted 5 ms, and the part ends it. -/
def execTransactionLimit (s : State) : Answer :=
  match s.sm.transaction with
  | none => .next s
  | some (address, start) =>
    if start + Config.ms 5 ≤ s.now then conclude s (endPoll address .unanswered s) else .next s

end Sys2Proof.Machine
end

