-- ==== Sys2Proof/Machine/Store.lean ====
section
/-! DEFINITION. The ends of operations on the map store: PAGE_PROGRAM_END, READ_BACK_END, STORE_OP_TIMEOUT and ERASE_END (R146,
R151 to R153, R157, R160). -/

namespace Sys2Proof.Machine

/-! ## After a failure (R152, R153, R158, R160) -/

/-- What follows a failed program or erase: in a FORMAT with fewer than 16 usable blocks its failure, in service the next
operation, or, where the journal is about to enter FROZEN, the head's move alone (R153). -/
def storeGoesOn (s : State) : State :=
  match s.jc.format with
  | some f => if s.usableBlocks < 16 then failFormat f.tag { s with agenda := [] } else kickStore s
  | none => if s.agenda = [] then kickStore s else moveSpentHead s

/-! ## Programs and read-backs (R151, R152) -/

/-- The store has reported the end of a program: the page is read back, or the program has failed. -/
def programEnded (success : Bool) (block page : Nat) (r : Record) (s : State) : State :=
  if success then s.onJc (fun j => { j with op := some (.readBack s.now block page r) })
  else storeGoesOn (programFailed .storeProgram block page s)

/-- PAGE_PROGRAM_END. -/
def execPageProgramEnd (success : Bool) (s : State) : Answer :=
  match s.jc.op with
  | some (.program _ block page r) => conclude s (programEnded success block page r s)
  | some (.readBack _ _ _ _) => .next s
  | some (.erase _ _) => .next s
  | some (.scan _) => .next s
  | none => .next s

/-- The read-back has brought a page: equal to the page as intended the record is durable, else the program has failed. -/
def readBackEnded (bytes : List Byte) (block page : Nat) (r : Record) (s : State) : State :=
  if bytes = pageBytes r.seq r.body then recordIsDurable block page r s
  else storeGoesOn (programFailed .storeProgram block page s)

/-- READ_BACK_END. -/
def execReadBackEnd (bytes : List Byte) (s : State) : Answer :=
  match s.jc.op with
  | some (.readBack _ block page r) => conclude s (readBackEnded bytes block page r s)
  | some (.program _ _ _ _) => .next s
  | some (.erase _ _) => .next s
  | some (.scan _) => .next s
  | none => .next s

/-! ## Erases (R157, R160) -/

/-- An erase of a FORMAT has failed: faulted and counted, and the block joins the bad-block list without a record. -/
def formatEraseFailed (kind : FaultKind) (block : Nat) (s : State) : State :=
  let s := s.offerFault (storeFault kind block)
  markBad block (s.onJc (fun j => { j with op := none,
                                           counters := { j.counters with eraseFailures := bump j.counters.eraseFailures } }))

/-- An erase has failed, in a FORMAT or in service. -/
def eraseLost (kind : FaultKind) (block : Nat) (s : State) : State :=
  match s.jc.format with
  | some f => formatErased f block (formatEraseFailed kind block s)
  | none => storeGoesOn (eraseFailed kind block s)

/-- An erase has succeeded, in a FORMAT or in service. -/
def eraseDone (block : Nat) (s : State) : State :=
  match s.jc.format with
  | some f => formatErased f block (eraseSucceeded block s)
  | none => kickStore (eraseSucceeded block s)

/-- ERASE_END. -/
def execEraseEnd (success : Bool) (s : State) : Answer :=
  match s.jc.op with
  | some (.erase _ block) => conclude s (if success then eraseDone block s else eraseLost .storeErase block s)
  | some (.program _ _ _ _) => .next s
  | some (.readBack _ _ _ _) => .next s
  | some (.scan _) => .next s
  | none => .next s

/-! ## Limits (R146, R163) -/

/-- When the operation under way reaches its limit: 2 s for an erase, 50 ms for the others. -/
def StoreOp.limit : StoreOp → Nat
  | .scan start => start + Config.ms 50
  | .program start _ _ _ => start + Config.ms 50
  | .readBack start _ _ _ => start + Config.ms 50
  | .erase start _ => start + Config.seconds 2

/-- The operation is ended by the JC at its limit. -/
def storeTimeOut (op : StoreOp) (s : State) : State :=
  match op with
  | .scan _ => scanFailed s
  | .program _ block page _ => storeGoesOn (programFailed .storeTimeout block page s)
  | .readBack _ block page _ => storeGoesOn (programFailed .storeTimeout block page s)
  | .erase _ block => eraseLost .storeTimeout block s

/-- STORE_OP_TIMEOUT. -/
def execStoreOpTimeout (s : State) : Answer :=
  match s.jc.op with
  | none => .next s
  | some op => if op.limit ≤ s.now then conclude s (storeTimeOut op s) else .next s

end Sys2Proof.Machine
end

