-- ==== Sys2Proof/Machine/Service.lean ====
section
/-! DEFINITION. The stages of a restart: JOURNAL_SCAN, FIRST_ROUND_END and FIX_UPS (R163 to R166). -/

namespace Sys2Proof.Machine

/-- JOURNAL_SCAN: the store has been read. The operand lists the pages that are not erased. -/
def execJournalScan (pages : List (Nat × List Byte)) (s : State) : Answer :=
  match s.jc.op with
  | some (.scan _) => conclude s (scanEnded pages s)
  | some (.program _ _ _ _) => .next s
  | some (.readBack _ _ _ _) => .next s
  | some (.erase _ _) => .next s
  | none => .next s

/-- The first shelf round has ended: the admitted members that the replay left AVAILABLE or ACTIVE are checked (R164). -/
def checkLabels (s : State) : State := forEach checkMember s.membersToCheck { s with stage := .labelChecks }

/-- FIRST_ROUND_END. -/
def execFirstRoundEnd (s : State) : Answer :=
  if s.stage = .firstRound ∧ s.sm.transaction = none then conclude s (checkLabels s) else .next s

/-- FIX_UPS: the label checks have ended; the state is repaired, and the part enters service (R165, R166). -/
def execFixUps (s : State) : Answer :=
  if s.stage = .labelChecks ∧ s.pm.checks = [] then conclude s (enterService (repair s)) else .next s

end Sys2Proof.Machine
end

