-- ==== Sys2Proof/Machine/Dispatch.lean ====
section
/-! DEFINITION. Which meaning each command has: one arm for each constructor of Instr. -/

namespace Sys2Proof.Machine

def exec (i : Instr) (s : State) : Host.Outcome State Fault Refusal :=
  match i with
  | .coldReset => Sys2Proof.Machine.execColdReset s
  | .inboundFrame bytes => Sys2Proof.Machine.execInboundFrame bytes s
  | .frameByteTimeout => Sys2Proof.Machine.execFrameByteTimeout s
  | .acceptRequest => Sys2Proof.Machine.execAcceptRequest s
  | .outboundFrameSent => Sys2Proof.Machine.execOutboundFrameSent s
  | .inquire tag => Sys2Proof.Machine.execInquire tag s
  | .status tag => Sys2Proof.Machine.execStatus tag s
  | .tableRead tag => Sys2Proof.Machine.execTableRead tag s
  | .setParam tag => Sys2Proof.Machine.execSetParam tag s
  | .noticeMask tag => Sys2Proof.Machine.execNoticeMask tag s
  | .faultRead tag => Sys2Proof.Machine.execFaultRead tag s
  | .faultClear tag => Sys2Proof.Machine.execFaultClear tag s
  | .reset tag => Sys2Proof.Machine.execReset tag s
  | .format tag => Sys2Proof.Machine.execFormat tag s
  | .map tag => Sys2Proof.Machine.execMap tag s
  | .unhold tag => Sys2Proof.Machine.execUnhold tag s
  | .admitMember tag => Sys2Proof.Machine.execAdmit tag s
  | .releaseMember tag => Sys2Proof.Machine.execReleaseMember tag s
  | .failMember tag => Sys2Proof.Machine.execFailMember tag s
  | .defineSet tag => Sys2Proof.Machine.execDefineSet tag s
  | .retireSet tag => Sys2Proof.Machine.execRetireSet tag s
  | .createVolume tag => Sys2Proof.Machine.execCreateVolume tag s
  | .grow tag => Sys2Proof.Machine.execGrow tag s
  | .rebalance tag => Sys2Proof.Machine.execRebalance tag s
  | .move tag => Sys2Proof.Machine.execMove tag s
  | .cancelJob tag => Sys2Proof.Machine.execCancelJob tag s
  | .pauseJobs tag => Sys2Proof.Machine.execPauseJobs tag s
  | .resumeJobs tag => Sys2Proof.Machine.execResumeJobs tag s
  | .damageRead tag => Sys2Proof.Machine.execDamageRead tag s
  | .damageClear tag => Sys2Proof.Machine.execDamageClear tag s
  | .readData entry generation block data blockTag => Sys2Proof.Machine.execReadData entry generation block data blockTag s
  | .pull entry generation block => Sys2Proof.Machine.execPull entry generation block s
  | .tags entry generation block blockTag => Sys2Proof.Machine.execTags entry generation block blockTag s
  | .endMessage entry generation endStatus => Sys2Proof.Machine.execEndMessage entry generation endStatus s
  | .flushAnswer => Sys2Proof.Machine.execFlushAnswer s
  | .flushRetry => Sys2Proof.Machine.execFlushRetry s
  | .commandTimeout entry => Sys2Proof.Machine.execCommandTimeout entry s
  | .pollRoundStart => Sys2Proof.Machine.execPollRoundStart s
  | .statePollEnd answer => Sys2Proof.Machine.execStatePollEnd answer s
  | .transactionLimit => Sys2Proof.Machine.execTransactionLimit s
  | .pageProgramEnd success => Sys2Proof.Machine.execPageProgramEnd success s
  | .readBackEnd page => Sys2Proof.Machine.execReadBackEnd page s
  | .storeOpTimeout => Sys2Proof.Machine.execStoreOpTimeout s
  | .eraseEnd success => Sys2Proof.Machine.execEraseEnd success s
  | .holdExpiry hold => Sys2Proof.Machine.execHoldExpiry hold s
  | .quarantineEnd hold => Sys2Proof.Machine.execQuarantineEnd hold s
  | .deferralDeadline tag => Sys2Proof.Machine.execDeferralDeadline tag s
  | .laneClaim lane => Sys2Proof.Machine.execLaneClaim lane s
  | .rateWindow => Sys2Proof.Machine.execRateWindow s
  | .backoffEnd lane => Sys2Proof.Machine.execBackoffEnd lane s
  | .journalScan pages => Sys2Proof.Machine.execJournalScan pages s
  | .firstRoundEnd => Sys2Proof.Machine.execFirstRoundEnd s
  | .fixUps => Sys2Proof.Machine.execFixUps s
  | .inboundHeader bytes => Sys2Proof.Machine.execInboundHeader bytes s
  | .inboundFifoFull byte => Sys2Proof.Machine.execInboundFifoFull byte s

end Sys2Proof.Machine
end

