-- ==== Sys2Proof/Machine/Step.lean ====
section
/-! DEFINITION. One step of the machine: the command at the front of the queue, or one microsecond on an empty queue; and the
placing of a command that a word spells. -/

namespace Sys2Proof.Machine

/-- One microsecond passes: the clock advances, and the shift register of R99 takes one step (log 3). -/
def tick (s : State) : State := { s with clock := ⟨s.clock.now + 1, lfsrStep s.clock.lfsr⟩ }

/-- The command at the front of the queue is taken and run on the state with the queue's rest; an empty queue lets one
microsecond pass. -/
def step (s : State) : Host.Outcome State Fault Refusal :=
  match s.pending with
  | [] => .next (tick s)
  | c :: rest => exec c { s with pending := rest }

/-- The state with the command that a word spells at the front of its queue; unchanged where the word spells none. -/
def State.withFetchWord (s : State) (nbits w : Nat) : State :=
  match Sys2Proof.decodeTableWord nbits w with
  | none => s
  | some c => { s with pending := c :: s.pending }

end Sys2Proof.Machine
end

