-- ==== Sys2Proof/Machine/Frames.lean ====
section
/-! DEFINITION. The bytes of the outbound frames (R54, R167, R177; spec/12 sections B, C and F): result and set-state values, notice
kinds, the payload of a granted MAP, and the whole frame with its checks. -/

namespace Sys2Proof.Config

/-! ## Free values: spec/12 lays out some payloads in no table -/

/-- The fields of a reply that spec/12 lays out in no table, after its result byte (log 36). -/
opaque replyFields : Machine.ReplyBody → List Byte

/-- The fields of a notice, for which spec/12 has no table (log 36). -/
opaque noticeFields : Machine.Notice → List Byte

end Sys2Proof.Config

namespace Sys2Proof.Machine

/-! ## Values (spec/12 sections C and F) -/

def Result.code : Result → Nat
  | .ok => 0
  | .busy => 1
  | .badKind => 2
  | .badLength => 3
  | .badField => 4
  | .wrongState => 5
  | .noSpace => 6
  | .notFound => 7
  | .tooLate => 8
  | .dupTag => 9
  | .outOfRange => 10
  | .starting => 11
  | .journalDown => 12
  | .driveError => 13

def SetState.code : SetState → Nat
  | .unused => 0
  | .pending => 1
  | .online => 2
  | .degraded => 3
  | .failed => 4

/-- The kind byte of a notice: 0x41 to 0x4D, in the order of the notice mask. -/
def Notice.kindCode (n : Notice) : Nat := 0x41 + n.bit

/-! ## Payloads -/

/-- The target fields of a granted MAP: 1, set, slot and set state, or zeros where it is not mirrored. -/
def targetBytes : Option (Place × SetState) → List Byte
  | some (p, state) => beBytes 1 1 ++ beBytes 1 p.set ++ beBytes 2 p.slot ++ beBytes 1 state.code
  | none => beBytes 5 0

/-- The 32 bytes of the reply to a granted MAP (R54; spec/12 section C). -/
def GrantReply.bytes (g : GrantReply) : List Byte :=
  beBytes 1 Result.ok.code ++ beBytes 2 g.hold ++ beBytes 2 g.generation ++ beBytes 1 g.volume ++ beBytes 8 g.first
    ++ beBytes 2 g.count ++ beBytes 2 g.slab ++ beBytes 1 g.home.set ++ beBytes 2 g.home.slot ++ beBytes 1 g.homeState.code
    ++ targetBytes g.target ++ beBytes 1 0 ++ beBytes 4 g.lifetime

/-- The payload of a reply: its first byte is the result code, and a reply that is not OK carries that byte alone (R177). -/
def replyPayload (result : Result) (body : ReplyBody) : List Byte :=
  if result = .ok then
    match body with
    | .empty => beBytes 1 result.code
    | .grant g => g.bytes
    | _ => beBytes 1 result.code ++ Config.replyFields body
  else beBytes 1 result.code

def OutFrame.payload : OutFrame → List Byte
  | .reply _ _ result body => replyPayload result body
  | .notice n => Config.noticeFields n

/-! ## Frames (R167; spec/12 section B) -/

/-- The kind byte of a frame. -/
def OutFrame.kindCode : OutFrame → Nat
  | .reply _ kind _ _ => kind
  | .notice n => n.kindCode

/-- The tag of a frame: 0 in a notice. -/
def OutFrame.tag : OutFrame → ReqTag
  | .reply tag _ _ _ => tag
  | .notice _ => 0

/-- A frame with its header check and its payload check: start byte, length, tag, kind, check, payload, CRC-32. -/
def frameBytes (tag : ReqTag) (kind : Nat) (payload : List Byte) : List Byte :=
  let fields := beBytes 2 payload.length ++ beBytes 2 tag.toNat ++ beBytes 1 kind
  0xC3#8 :: fields ++ [complementSum fields] ++ payload ++ beBytes 4 (crc32 payload)

def OutFrame.bytes (f : OutFrame) : List Byte := frameBytes f.tag f.kindCode f.payload

/-- What the transmitter sends now: the bytes of the frame at the head of the outbound queue, nothing where it is empty (R171). -/
def State.outboundBytes (s : State) : List Byte :=
  match s.mp.outbound with
  | [] => []
  | f :: _ => f.bytes

end Sys2Proof.Machine
end

