-- ==== Sys2Proof/Safety.lean ====
section
/-! DEFINITION. What the statements speak of: the invariants of the part, when a request is served, and when the journal takes a
record at once. -/

namespace Sys2Proof.Machine

/-! ## Invariants -/

/-- The Message Port's limits: at most 32 notices and, with the places reserved for the open tags, at most 96 replies in the
outbound queue (R171), at most 32 requests in the request queue (R169), no tag open twice, and the tag of every queued request
open (R170). -/
def MsgPort.sound (m : MsgPort) : Prop :=
  noticeCount m.outbound ≤ Config.maxNotices ∧ m.requests.length ≤ Config.maxRequests ∧ m.openTags.Nodup
    ∧ replyCount m.outbound + m.openTags.length ≤ Config.maxReplies ∧ ∀ r ∈ m.requests, r.tag ∈ m.openTags

/-- A range of damage stands before another one: in a volume before its, or in its volume and at an end before its beginning. -/
def Damage.before (a b : Damage) : Prop := a.volume < b.volume ∨ (a.volume = b.volume ∧ a.stop ≤ b.first)

/-- The form of the Damage List (R120): at most 1024 entries, none of them empty, ordered by volume and by first VLB, no two
overlapping. -/
def damageFormed (l : List Damage) : Prop :=
  l.length ≤ Config.maxDamage ∧ (∀ d ∈ l, 1 ≤ d.count) ∧ l.Pairwise Damage.before

/-- The pages that the lanes hold, lane after lane. -/
def pagesHeld (lanes : List (Nat × Lane)) : List Nat := lanes.flatMap (fun e => e.2.pages)

/-- The 192 general pages are divided between the free ones and the lanes: each of them is free or held by one lane, and a lane in
IDLE holds none (R73, R108). -/
def pagesDivided (free : List Nat) (lanes : List (Nat × Lane)) : Prop :=
  (free ++ pagesHeld lanes).Perm (List.range Config.generalPages) ∧ tableWf Lane.idle lanes = true
    ∧ ∀ n, (tableRead Lane.idle lanes n).state = .idle → (tableRead Lane.idle lanes n).pages = []

/-- The limits of the other collections and the forms of the registers: at most 64 deferred MAPs (R65), at most 32 records in the
Journal Queue (R150), staging memory in its canonical form, error runs of at most 3 (R135), and a back-off shift register
that is not 0 (R99). -/
def soundParts (deferred : List Deferred) (queue : List Record) (memory : List (Nat × Block)) (errorRuns : List (Nat × Nat))
    (register : BitVec 16) : Prop :=
  deferred.length ≤ Config.maxDeferred ∧ queue.length ≤ Config.journalRecords ∧ Memory.wf memory = true
    ∧ (∀ id, tableRead 0 errorRuns id ≤ 3) ∧ register ≠ 0

/-- The state keeps its limits and forms. -/
def State.sound (s : State) : Prop :=
  s.mp.sound ∧ soundParts s.gu.deferred s.jc.queue s.sp.memory s.dp.errorRuns s.clock.lfsr ∧ damageFormed s.me.damage
    ∧ pagesDivided s.sp.free s.me.lanes

/-! ## Laws between the tables -/

/-- How often the holds that are not FREE name a slot (R11). -/
def State.namings (s : State) (q : Place) : Nat :=
  ((s.gu.holds.filter (fun e => e.2.state ≠ .free)).map
    (fun e => (e.2.places.filter (fun p => slotKey p = slotKey q)).length)).sum

/-- Each slot's count is the number of the holds that name it (R11). -/
def State.refsMatch (s : State) : Prop := ∀ q, (s.slot q).refs = s.namings q

/-- The free count of each set is the number of its FREE slots (R8). -/
def State.freeMatches (s : State) : Prop :=
  ∀ t, (s.set t).freeCount = ((List.range (s.set t).slots).filter (fun k => (s.slot ⟨t, k⟩).state = .free)).length

/-- The slabs whose jobs stand in the Move Queue or in a lane. -/
def State.jobSlabs (s : State) : List Nat :=
  s.me.jobs.map Job.slab ++ (List.range Config.laneCount).filterMap (fun n => (s.lane n).job.map Job.slab)

/-- No slab has more than one job, a slab with a job is marked, and the waiting jobs, the jobs in lanes and the places reserved are
at most 1024 (R71). -/
def State.jobsLawful (s : State) : Prop :=
  s.jobSlabs.Nodup ∧ (∀ g ∈ s.jobSlabs, (s.slab g).mark = true)
    ∧ s.me.jobs.length + s.laneJobs + s.reservedPlaces ≤ Config.maxJobs

/-- The lasting state is one that the entries of an image can hold (R149, R156): its tables in their form, members admitted, slabs
FILLING, LIVE or MOVING, every field within the bytes of its entry, and a Damage List in its form with no two entries left unmerged
(R120, R121). -/
def Account.fitsImage (a : Account) : Prop :=
  (tableWf Member.absent a.members = true ∧ tableWf none a.sets = true ∧ tableWf Volume.unused a.volumes = true
      ∧ tableWf Slab.unused a.slabs = true)
    ∧ (∀ e ∈ a.members, e.1 < 256 ∧ (e.2.state = .available ∨ e.2.state = .active ∨ e.2.state = .failed)
        ∧ e.2.capacity < 2 ^ 48 ∧ e.2.bands.length ≤ 4 ∧ (∀ b ∈ e.2.bands, b.set < 256 ∧ b.start < 2 ^ 48)
        ∧ ∃ q, e.2.labelSeq = some q ∧ q < 2 ^ 32)
    ∧ (∀ e ∈ a.sets, ∀ d, e.2 = some d → e.1 < 256 ∧ d.unit < 256 ∧ d.bandLength < 2 ^ 48 ∧ d.positions.length ≤ 16
        ∧ ∀ p ∈ d.positions, p.member < 256 ∧ p.start < 2 ^ 48)
    ∧ (∀ e ∈ a.volumes, e.1 < 256 ∧ e.2.state = .online ∧ e.2.base < 65536 ∧ e.2.limit < 65536 ∧ e.2.count < 65536
        ∧ e.2.ready = 0)
    ∧ (∀ e ∈ a.slabs, e.1 < 65536 ∧ (e.2.state = .filling ∨ e.2.state = .live ∨ e.2.state = .moving) ∧ e.2.volume < 256
        ∧ (∀ p ∈ e.2.home :: e.2.target.toList, p.set < 256 ∧ p.slot < 65536) ∧ e.2.front = 0 ∧ e.2.persisted < 2 ^ 32
        ∧ e.2.mark = false)
    ∧ (damageFormed a.damage ∧ (∀ d ∈ a.damage, d.volume < 256 ∧ d.first < 2 ^ 64 ∧ d.count < 2 ^ 32)
        ∧ a.damage.Pairwise (fun d e => d.volume = e.volume → d.cause = e.cause → d.stop ≠ e.first))
    ∧ ∀ g, a.growth = some g → g.volume < 256 ∧ g.old < 65536 ∧ g.new < 65536
        ∧ ∀ placements ∈ g.parts, ∀ p ∈ placements, p.slab < 16384 ∧ p.place.set < 64 ∧ p.place.slot < 1024

/-! ## When a command has its full effect -/

/-- No exchange of an earlier command is left over (log 2). -/
def State.quiet (s : State) : Prop := s.agenda = []

/-- The owner takes the request that a command names (R170), and the part's state does not refuse it (R162, R163). -/
def State.serves (s : State) (k : ReqKind) (tag : ReqTag) (payload : List Byte) : Prop :=
  s.quiet ∧ s.takeable k tag = some ⟨tag, k, payload, false⟩ ∧ s.stateRefusal k = none

end Sys2Proof.Machine

namespace Sys2Proof

/-- The request that a command names: its kind and its tag. -/
def Instr.request : Instr → Option (Machine.ReqKind × ReqTag)
  | .inquire tag => some (.inquire, tag)
  | .status tag => some (.status, tag)
  | .tableRead tag => some (.tableRead, tag)
  | .setParam tag => some (.setParam, tag)
  | .noticeMask tag => some (.noticeMask, tag)
  | .faultRead tag => some (.faultRead, tag)
  | .faultClear tag => some (.faultClear, tag)
  | .reset tag => some (.reset, tag)
  | .format tag => some (.format, tag)
  | .map tag => some (.map, tag)
  | .unhold tag => some (.unhold, tag)
  | .admitMember tag => some (.joinMember, tag)
  | .releaseMember tag => some (.releaseMember, tag)
  | .failMember tag => some (.failMember, tag)
  | .defineSet tag => some (.defineSet, tag)
  | .retireSet tag => some (.retireSet, tag)
  | .createVolume tag => some (.createVolume, tag)
  | .grow tag => some (.grow, tag)
  | .rebalance tag => some (.rebalance, tag)
  | .move tag => some (.move, tag)
  | .cancelJob tag => some (.cancelJob, tag)
  | .pauseJobs tag => some (.pauseJobs, tag)
  | .resumeJobs tag => some (.resumeJobs, tag)
  | .damageRead tag => some (.damageRead, tag)
  | .damageClear tag => some (.damageClear, tag)
  | _ => none

end Sys2Proof

namespace Sys2Proof.Machine

/-- The checks of R50 that a MAP's fields pass, with the hold index at the head of the free order. -/
def State.mapPasses (s : State) (p : List Byte) (h : Nat) (rest : List Nat) : Prop :=
  byteAt p 0 < 4 ∧ 1 ≤ fieldAt p 2 2 ∧ fieldAt p 2 2 ≤ 4096 ∧ byteAt p 1 < 2
    ∧ fieldAt p 4 8 / s.slabBlocks = (fieldAt p 4 8 + fieldAt p 2 2 - 1) / s.slabBlocks
    ∧ fieldAt p 4 8 + fieldAt p 2 2 - 1 < (s.volume (byteAt p 0)).ready * s.slabBlocks
    ∧ s.gu.freeOrder = h :: rest

/-- The journal takes one more record at once: WRITING, room, no owner waiting, a sequence number left, and, where the store is
idle, a head block with a page for it (R148, R150, R154). -/
def State.journalOpen (s : State) : Prop :=
  s.jc.state = .writing ∧ s.jc.hasRoom = true ∧ s.jc.roomWait = [] ∧ s.jc.nextSeq ≤ Config.sequenceMax
    ∧ (s.jc.op.isSome = true ∨ s.headSpent = false)

/-- The store begins the program of the lowest-numbered record where it is idle (R151). -/
def Journal.started (now : Nat) (j : Journal) : Journal :=
  match j.op, j.nextRecord, j.head with
  | none, some r, some h => { j with op := some (.program now h j.nextPage r) }
  | _, _, _ => j

/-- The state with one more record in the Journal Queue, numbered with the next sequence number (R148, R150). -/
def State.withRecord (owner : JOwner) (body : RecordBody) (reply : Option ReqTag) (s : State) : State :=
  s.onJc (fun j => Journal.started s.now
    { j with queue := j.queue ++ [⟨j.nextSeq, body, owner, reply⟩], nextSeq := j.nextSeq + 1 })

end Sys2Proof.Machine
end

