-- ==== Sys2Proof/Certificates/Slice0/Obligations.lean ====
section
/-! DEFINITION. The statements for the provers, each from the numbered rules of spec/. Times are in microseconds; `s.quiet` says
that no exchange of an earlier command is left (log 2). -/

open Sys2Proof Sys2Proof.Machine

/-! ## The machine as a whole -/

/-- The command at the front of the queue is taken and run on the state with the queue's rest. -/
def Obligations.StepRunsFront : Prop :=
  ∀ (s : State) (c : Instr) (rest : List Instr), s.pending = c :: rest → step s = exec c { s with pending := rest }

/-- An empty queue lets one microsecond pass and moves the back-off shift register one place toward the most significant end,
the new lowest bit the exclusive-or of bits 15, 13, 12 and 10 (R99; that a step is one microsecond is the model's choice,
log 3). Nothing else changes. -/
def Obligations.IdleStepLetsTimePass : Prop :=
  ∀ s : State, s.pending = [] →
    ∃ register : BitVec 16,
      step s = .next { s with clock := { now := s.clock.now + 1, lfsr := register } }
        ∧ (∀ i, i < 15 → register.getLsbD (i + 1) = s.clock.lfsr.getLsbD i)
        ∧ register.getLsbD 0 = (s.clock.lfsr.getLsbD 15 ^^ s.clock.lfsr.getLsbD 13 ^^ s.clock.lfsr.getLsbD 12
            ^^ s.clock.lfsr.getLsbD 10)

/-- Every command answers a next state, and leaves the time and the queue of commands. These are the model's choices: that no command
stops is log 34, that a command takes no time is log 3, that the commands wait in a queue is log 1, and that a step's exchanges are
bounded is log 2. The exchanges of a step are taken one at a time from the head of the agenda, what one posts ahead of what was posted
before it; then JOBS_IDLE is offered where it is due (R94), and the step is closed (log 2). -/
def Obligations.EveryCommandCompletes : Prop :=
  (∀ (c : Instr) (s : State),
    ∃ t : State, exec c s = .next t ∧ t.pending = s.pending ∧ t.clock.now = s.clock.now)
    ∧ (∀ s t : State, finish s t = closeStep s (offerIdle s (settle settleBound t)))
    ∧ ∀ (k : Nat) (u : State), (u.agenda = [] → settle k u = u)
      ∧ (∀ i rest, u.agenda = i :: rest →
          let told := handle i { u with agenda := [] }
          settle (k + 1) u = settle k { told with agenda := told.agenda ++ rest })

/-- Every step keeps the limits and forms of `State.sound`. The outbound queue: at most 32 notices, and at most 96 replies with the
places reserved for the open tags, no tag open twice and the tag of every queued request open (R170, R171). At most 32 requests
(R169), 64 deferred MAPs (R65), 32 journal records (R150), error runs of at most 3 (R135), the shift register not 0 (R99), the
staging memory in its canonical form. The Damage List: at most 1024 entries, none empty, in order and none overlapping (R120).
The 192 general pages: each of them free or held by one lane, and a lane in IDLE holds none (R73, R108). -/
def Obligations.StepKeepsSound : Prop :=
  ∀ s t : State, s.sound → step s = .next t → t.sound

/-- The state after reset has the limits and forms. -/
def Obligations.ResetIsSound : Prop := State.reset.sound

/-- What a restart leaves (R162), whatever stood before: time goes on, the shift register is 1, the journal scan has begun at
the present time, an exchange open on the management bus is left behind (R137), and every block is as after a cold reset. The
log of sent messages, the clock and the queue of commands are the model's own and stay (log 6, log 3, log 1). -/
def Obligations.ColdResetRestarts : Prop :=
  ∀ s : State,
    exec .coldReset s = .next
      { clock := { now := s.clock.now, lfsr := 1 }, part := .starting, stage := .scan, draining := false,
        mp := MsgPort.reset, pm := PlacementMap.reset, gu := GrantUnit.reset, me := MoveEngine.reset,
        sp := StagingPool.reset, dp := { DrivePort.reset with sent := s.dp.sent },
        sm := { ShelfMonitor.reset with abandoned := s.sm.abandoned || s.sm.transaction.isSome },
        jc := Journal.reset s.clock.now, agenda := [], pending := s.pending }

/-! ## Replies, notices and faults (R170, R171, R175, R177) -/

/-- A request is answered: its reply joins the tail of the outbound queue under its kind with 0x80 added (under the MAP's, 0x89,
where the request is a deferred MAP, which stands in no place of the request queue), with the body where the result is OK and
with the result alone where it is not; its tag closes and its place in the request queue is free; nothing else changes (R170,
R177). A tag that is not open has no reply place, and nothing is placed (R171; log 46).
The bytes of a frame (spec/12 sections B, C and F): 0xC3, the payload's length, the tag, the kind, the ones' complement of the sum
of those five, the payload and its CRC-32; a notice has tag 0 and kind 0x41 to 0x4D. A payload begins with the result code; one
that is not OK is that byte alone; a granted MAP's has the 32 bytes of R54's table, with zeros in place of a target where it is
not mirrored (R177). The transmitter sends the frame at the head of the queue. -/
def Obligations.AnswerPlacesReply : Prop :=
  (∀ (s : State) (r : Request) (result : Result) (body : ReplyBody), s.request r.tag = some r → r.tag ∈ s.mp.openTags →
      s.answer r.tag result body =
        { s with mp := { s.mp with
            requests := s.mp.requests.filter (fun q => q.tag ≠ r.tag),
            openTags := s.mp.openTags.filter (fun t => t ≠ r.tag),
            outbound := s.mp.outbound
              ++ [.reply r.tag (r.kind.code + 0x80) result (if result = .ok then body else .empty)] } })
    ∧ (∀ (s : State) (tag : ReqTag) (result : Result) (body : ReplyBody), s.request tag = none → tag ∈ s.mp.openTags →
        s.answer tag result body =
          { s with mp := { s.mp with
              openTags := s.mp.openTags.filter (fun t => t ≠ tag),
              outbound := s.mp.outbound ++ [.reply tag 0x89 result (if result = .ok then body else .empty)] } })
    ∧ (∀ (s : State) (tag : ReqTag) (result : Result) (body : ReplyBody), tag ∉ s.mp.openTags →
        s.answer tag result body = s)
    ∧ (∀ (s : State) (f : OutFrame) (rest : List OutFrame), s.mp.outbound = f :: rest → s.outboundBytes = f.bytes)
    ∧ (∀ (tag : ReqTag) (kind : Nat) (payload : List Byte), kind < 256 → payload.length ≤ 1024 →
        let frame := frameBytes tag kind payload
        frame.length = 11 + payload.length ∧ frame.getD 0 0 = 0xC3#8 ∧ fieldAt frame 1 2 = payload.length
          ∧ fieldAt frame 3 2 = tag.toNat ∧ byteAt frame 5 = kind
          ∧ frame.getD 6 0 = complementSum ((frame.drop 1).take 5)
          ∧ (frame.drop 7).take payload.length = payload ∧ fieldAt frame (7 + payload.length) 4 = crc32 payload)
    ∧ (∀ (tag : ReqTag) (kind : Nat) (result : Result) (body : ReplyBody),
        (OutFrame.reply tag kind result body).bytes = frameBytes tag kind (replyPayload result body)
          ∧ byteAt (replyPayload result body) 0 = result.code
          ∧ (result ≠ .ok → replyPayload result body = [BitVec.ofNat 8 result.code]))
    ∧ (∀ n : Notice, (OutFrame.notice n).bytes = frameBytes 0 (0x41 + n.bit) (Config.noticeFields n) ∧ n.bit ≤ 12)
    ∧ (∀ g : GrantReply, g.hold < 512 → g.generation < 65536 → g.volume < 4 → g.first < 2 ^ 64 → g.count ≤ 4096 →
        g.slab < 16384 → g.home.set < 64 → g.home.slot < 1024 → g.lifetime < 2 ^ 32 →
        let p := replyPayload .ok (.grant g)
        p.length = 32 ∧ byteAt p 0 = 0 ∧ fieldAt p 1 2 = g.hold ∧ fieldAt p 3 2 = g.generation ∧ byteAt p 5 = g.volume
          ∧ fieldAt p 6 8 = g.first ∧ fieldAt p 14 2 = g.count ∧ fieldAt p 16 2 = g.slab ∧ byteAt p 18 = g.home.set
          ∧ fieldAt p 19 2 = g.home.slot ∧ byteAt p 21 = g.homeState.code ∧ byteAt p 27 = 0
          ∧ fieldAt p 28 4 = g.lifetime
          ∧ (g.target = none → ∀ i, 22 ≤ i → i ≤ 26 → byteAt p i = 0)
          ∧ (∀ t state, g.target = some (t, state) → t.set < 64 → t.slot < 1024 →
              byteAt p 22 = 1 ∧ byteAt p 23 = t.set ∧ fieldAt p 24 2 = t.slot ∧ byteAt p 26 = state.code))
    ∧ [SetState.unused, .pending, .online, .degraded, .failed].map SetState.code = [0, 1, 2, 3, 4]
    ∧ [Result.ok, .busy, .badKind, .badLength, .badField, .wrongState, .noSpace, .notFound, .tooLate, .dupTag, .outOfRange,
        .starting, .journalDown, .driveError].map Result.code = List.range 14

/-- A notice offered: discarded where its kind is disabled in the mask; queued at the tail where its kind is enabled and fewer
than 32 notices stand; else dropped, counted, and the notices-lost flag set (R171). -/
def Obligations.NoticeOffered : Prop :=
  ∀ (s : State) (n : Notice),
    (s.mp.mask.getLsbD n.bit = false → s.offerNotice n = s)
      ∧ (s.mp.mask.getLsbD n.bit = true → noticeCount s.mp.outbound < 32 →
          s.offerNotice n = { s with mp := { s.mp with outbound := s.mp.outbound ++ [.notice n] } })
      ∧ (s.mp.mask.getLsbD n.bit = true → 32 ≤ noticeCount s.mp.outbound →
          s.offerNotice n = { s with mp := { s.mp with
            noticesLost := true,
            counters := { s.mp.counters with noticesLost := min (s.mp.counters.noticesLost + 1) 4294967295 } } })

/-- A fault offered: into an empty record it becomes the capture, with extra count 0 and MORE clear, and a FAULT notice that
carries it is offered; over a held capture it raises the extra count, which stops at its largest value, and sets MORE, and
no notice is offered (R175). -/
def Obligations.FaultOffered : Prop :=
  ∀ (s : State) (o : FaultOffer),
    (s.mp.fault = none →
        s.offerFault o =
          State.offerNotice (.fault ⟨o, 0, false⟩) { s with mp := { s.mp with fault := some ⟨o, 0, false⟩ } })
      ∧ (∀ c, s.mp.fault = some c →
          s.offerFault o =
            { s with mp := { s.mp with fault := some ⟨c.offer, min (c.extra + 1) 4294967295, true⟩ } })

/-! ## The Message Port's requests -/

/-- INQUIRE is answered OK in every part state with the vendor code, the part code, the revision and the capacities (R172).
STATUS is answered in every part state by its scope: PART 0, VOLUME 1 with a volume id of 0 to 3, JOBS 2, JOURNAL 3; any
other scope or volume id is refused BAD_FIELD. The reply to PART clears the notices-lost flag, and nothing else changes
(R171, R172). -/
def Obligations.InquireAndStatusReply : Prop :=
  ∀ (s : State) (tag : ReqTag) (p : List Byte), s.quiet →
    (s.takeable .inquire tag = some ⟨tag, .inquire, p, false⟩ →
        exec (.inquire tag) s = .next
          (s.answer tag .ok (.inquire Config.vendorCode Config.partCode Config.revision Config.capacities)))
      ∧ (s.takeable .status tag = some ⟨tag, .status, p, false⟩ →
          (byteAt p 0 = 0 →
              exec (.status tag) s = .next
                ((s.answer tag .ok (.statusPart s.partStatus)).onMp (fun m => { m with noticesLost := false })))
            ∧ (byteAt p 0 = 1 → byteAt p 1 < 4 →
                exec (.status tag) s = .next (s.answer tag .ok (.statusVolume
                  ⟨s.volume (byteAt p 1), s.slabsIn (byteAt p 1) .filling, s.slabsIn (byteAt p 1) .live,
                    s.slabsIn (byteAt p 1) .moving, s.slabsIn (byteAt p 1) .committing⟩)))
            ∧ (byteAt p 0 = 2 → exec (.status tag) s = .next (s.answer tag .ok (.statusJobs s.jobsStatus)))
            ∧ (byteAt p 0 = 3 → exec (.status tag) s = .next (s.answer tag .ok (.statusJournal s.journalStatus)))
            ∧ ((byteAt p 0 = 1 ∧ 4 ≤ byteAt p 1) ∨ 4 ≤ byteAt p 0 →
                exec (.status tag) s = .next (s.answer tag .badField .empty)))

/-- TABLE_READ is answered with the entry as it stands, NOT_FOUND where the view has no entry, and BAD_FIELD for an unknown
view or an index outside the view's range; nothing else changes (R173, R70, R144). Of two records with which a lane
waits for room its LANE entry shows the first; of a lane without a job it shows 0 as front and persisted front (the model's choices, log
51 and 61). -/
def Obligations.TableReadReplies : Prop :=
  ∀ (s : State) (tag : ReqTag) (p : List Byte), s.serves .tableRead tag p →
    let view := byteAt p 0
    let i := fieldAt p 2 2
    let slot := fieldAt p 4 2
    let replies (result : Result) (body : ReplyBody) := exec (.tableRead tag) s = .next (s.answer tag result body)
    (view = 0 → i < 256 → replies .ok (.member (s.member i) (s.errorRun i)))
      ∧ (view = 1 → i < 64 → replies .ok (.set (s.set i)))
      ∧ (view = 2 → i < 64 → ((s.set i).state = .unused ∨ (s.set i).slots ≤ slot) → replies .notFound .empty)
      ∧ (view = 2 → i < 64 → (s.set i).state ≠ .unused → slot < (s.set i).slots →
          replies .ok (.slot (s.slot ⟨i, slot⟩)))
      ∧ (view = 3 → i < 16384 → replies .ok (.slab (s.slab i)))
      ∧ (view = 4 → i < 512 → replies .ok (.hold (s.hold i) (s.holdTimeLeft (s.hold i))))
      ∧ (view = 5 → ∀ j, s.me.jobs[i]? = some j → replies .ok (.job j))
      ∧ (view = 5 → s.me.jobs.length ≤ i → replies .notFound .empty)
      ∧ (view = 6 → i < 4 → replies .ok (.lane (s.laneView i)))
      ∧ ((s.lane i).job = none → (s.laneView i).front = 0 ∧ (s.laneView i).persisted = 0)
      ∧ (∀ j, (s.lane i).job = some j → (s.laneView i).front = (s.slab j.slab).front
          ∧ (s.laneView i).persisted = (s.slab j.slab).persisted)
      ∧ (view = 7 → i < 16 →
          replies .ok (.shelf (s.shelf i) ((s.shelf i).lastGood.map (fun t => Config.reportedMs (s.clock.now - t)))))
      ∧ (view = 8 → i < 1024 → ∀ d, s.me.damage[i]? = some d → replies .ok (.damage d))
      ∧ (view = 8 → i < 1024 → s.me.damage.length ≤ i → replies .notFound .empty)
      ∧ ((view = 0 ∧ 256 ≤ i) ∨ (view = 1 ∧ 64 ≤ i) ∨ (view = 2 ∧ 64 ≤ i) ∨ (view = 3 ∧ 16384 ≤ i)
            ∨ (view = 4 ∧ 512 ≤ i) ∨ (view = 6 ∧ 4 ≤ i) ∨ (view = 7 ∧ 16 ≤ i) ∨ (view = 8 ∧ 1024 ≤ i) ∨ 9 ≤ view →
          replies .badField .empty)

/-- NOTICE_MASK is answered OK with the mask it replaces, and its thirteen enables govern every offer from then on (R171, R177);
FAULT_READ is answered OK with the fault record as it stands; FAULT_CLEAR with the record as it stood, which is then empty
(R175). Nothing else changes. -/
def Obligations.MaskAndFaultRequests : Prop :=
  ∀ (s : State) (tag : ReqTag) (p : List Byte),
    (s.serves .noticeMask tag p →
        exec (.noticeMask tag) s = .next
          ((s.answer tag .ok (.mask s.mp.mask)).onMp (fun m => { m with mask := BitVec.ofNat 13 (fieldAt p 0 2) })))
      ∧ (s.serves .faultRead tag p → exec (.faultRead tag) s = .next (s.answer tag .ok (.fault s.mp.fault)))
      ∧ (s.serves .faultClear tag p →
          exec (.faultClear tag) s = .next
            ((s.answer tag .ok (.fault s.mp.fault)).onMp (fun m => { m with fault := none })))

/-- A request whose owner does not take it now changes nothing (log 1); one that the part's state refuses when its owner takes
it is answered with that state's result, FORMAT apart, which its own rule judges (R162, R163, R169, R170). -/
def Obligations.RequestsRefusedByState : Prop :=
  ∀ (c : Instr) (k : ReqKind) (tag : ReqTag) (s : State), c.request = some (k, tag) → s.quiet →
    (s.takeable k tag = none → exec c s = .next s)
      ∧ (∀ p, s.takeable k tag = some ⟨tag, k, p, false⟩ → k ≠ .format → k ≠ .inquire → k ≠ .status →
          (s.part = .starting → exec c s = .next (s.answer tag .starting .empty))
            ∧ (∀ cause, s.part = .blank cause → exec c s = .next (s.answer tag .wrongState .empty)))

/-- RESET taken in READY or FROZEN: the drain begins, the frames in the inbound FIFO are discarded, and the reply OK joins the
outbound queue behind what stands there; nothing else changes (R162). When that reply has been sent, every ISSUED command is
cancelled with a cancel message, and the cold path begins. The model's choices in this: the cancels go out in ascending order of entry
(log 24), and the log of sent messages, the clock and the queue of commands stay (log 6, log 3, log 1), and a
lane's row is 0 (log 62). -/
def Obligations.ResetDrainsAndRestarts : Prop :=
  (∀ (s : State) (tag : ReqTag) (p : List Byte), s.serves .reset tag p →
      exec (.reset tag) s = .next
        (State.answer tag .ok .empty { s with draining := true, mp := { s.mp with fifo := [] } }))
    ∧ (∀ (s : State) (tag : ReqTag) (rest : List OutFrame), s.draining = true →
        tableWf (RingEntry.free 0) s.dp.ring = true →
        s.mp.outbound = .reply tag 0x88 .ok .empty :: rest →
        exec .outboundFrameSent s = .next
          { State.reset with
            clock := { now := s.clock.now, lfsr := 1 },
            dp := { DrivePort.reset with
              sent := s.dp.sent
                ++ (s.entriesWhere (fun _ => true)).map (fun e => .cancel e (s.ring e).generation) },
            sm := { ShelfMonitor.reset with abandoned := s.sm.abandoned || s.sm.transaction.isSome },
            jc := Journal.reset s.clock.now,
            pending := s.pending })

/-! ## Acceptance, the receiver and the transmitter (R167 to R171, R176) -/

/-- ACCEPT_REQUEST with a frame at the head of the FIFO, a free reply place and no drain: the first failing check of R169 gives
the reply, which is placed at once under the frame's tag, and the refusal is counted; a frame that passes opens its tag,
takes a place in the request queue, and is counted. The frame leaves the FIFO; nothing else changes.
The reply kind is the request kind with 0x80 added, and 0x80 for a frame of no request kind (R177); that it is so where such a frame is
refused for its tag is the model's choice (log 55). -/
def Obligations.AcceptanceChecksInOrder : Prop :=
  ∀ (s : State) (f : Frame) (rest : List Frame), s.quiet → s.mp.fifo = f :: rest →
    replyCount s.mp.outbound + s.mp.openTags.length < 96 → s.draining = false →
    let refused (result : Result) :=
      exec .acceptRequest s = .next { s with mp := { s.mp with
        fifo := rest,
        counters := { s.mp.counters with refused := min (s.mp.counters.refused + 1) 4294967295 },
        outbound := s.mp.outbound ++ [.reply f.tag
          (((ReqKind.ofCode f.kind.toNat).map (fun k => k.code + 0x80)).getD 0x80) result .empty] } }
    (f.tag = 0 → refused .badField)
      ∧ (f.tag ≠ 0 → f.tag ∈ s.mp.openTags → refused .dupTag)
      ∧ (f.tag ≠ 0 → f.tag ∉ s.mp.openTags →
          (ReqKind.ofCode f.kind.toNat = none → refused .badKind)
            ∧ (∀ k, ReqKind.ofCode f.kind.toNat = some k →
                (lengthAllowed k f.payload.length = false → refused .badLength)
                  ∧ (lengthAllowed k f.payload.length = true →
                      (s.part = .starting → k ≠ .inquire → k ≠ .status → refused .starting)
                        ∧ (∀ cause, s.part = .blank cause → k ≠ .inquire → k ≠ .status → k ≠ .format →
                            refused .wrongState)
                        ∧ (s.stateRefusal k = none → 32 ≤ s.mp.requests.length → refused .busy)
                        ∧ (s.stateRefusal k = none → s.mp.requests.length < 32 →
                            exec .acceptRequest s = .next { s with mp := { s.mp with
                              fifo := rest,
                              counters := { s.mp.counters with
                                accepted := min (s.mp.counters.accepted + 1) 4294967295 },
                              openTags := s.mp.openTags ++ [f.tag],
                              requests := s.mp.requests ++ [⟨f.tag, k, f.payload, false⟩] } }))))

/-- The bytes of INBOUND_HEADER and INBOUND_FRAME are taken one after another. While HUNTING a byte other than 0xC3 is
discarded, and 0xC3 starts a header. The sixth header byte judges it: one whose check agrees and whose length is at most 1024
leads to PAYLOAD; any other is rejected and counted, and the receiver hunts on from the byte after the start byte, so that a 0xC3
among the rejected bytes starts the next header. In PAYLOAD the last byte judges the frame: with the CRC-32 agreeing it is counted
and joins the FIFO, or during the drain of a RESET is rewound (R162); else it is bad: counted, and a LINK_FRAME fault is
offered. The receiver then hunts (R167, R168, R176). A start byte, a header byte, or a payload byte of an incomplete
frame that fills the FIFO, or finds it full, is an overrun, counted once at that byte (R168), and after an overrun within the header
the frame is counted out behind its header; a frame that fills the FIFO with its last byte is judged (log 17). -/
def Obligations.ReceiverJudgesFrames : Prop :=
  ∀ (s : State) (b : Byte), s.quiet →
    let heard : State := { s with mp := { s.mp with lastByte := s.clock.now } }
    (∀ bytes : List Byte,
        exec (.inboundFrame (b :: bytes)) s = .next (receive bytes (receiveByte b s))
          ∧ exec (.inboundHeader (b :: bytes)) s = .next (receive bytes (receiveByte b s)))
      ∧ (s.mp.receiver = .hunting → b ≠ 0xC3#8 → receiveByte b s = heard)
      ∧ (s.mp.receiver = .hunting → b = 0xC3#8 → s.mp.used + 1 < 4096 →
          receiveByte b s = { s with mp := { s.mp with lastByte := s.clock.now, receiver := .header [] false } })
      ∧ (∀ got : List Byte, s.mp.receiver = .header got false → got.length < 5 → s.mp.used + 2 + got.length < 4096 →
          receiveByte b s =
            { s with mp := { s.mp with lastByte := s.clock.now, receiver := .header (got ++ [b]) false } })
      ∧ (∀ got : List Byte, s.mp.receiver = .header got false → got.length = 5 → s.mp.used + 7 < 4096 →
          b = complementSum got → fieldAt got 0 2 ≤ 1024 →
          receiveByte b s =
            { s with mp := { s.mp with lastByte := s.clock.now, receiver := .payload (got ++ [b]) [] } })
      ∧ (∀ (got : List Byte) (overrun : Bool), s.mp.receiver = .header got overrun → got.length = 5 →
          ¬(b = complementSum got ∧ fieldAt got 0 2 ≤ 1024) →
          let overruns : Nat :=
            if overrun = false ∧ 4096 ≤ s.mp.used + 7 then min (s.mp.counters.overruns + 1) 4294967295
            else s.mp.counters.overruns
          let rejected (receiver : Receiver) (overruns : Nat) : State :=
            { s with mp := { s.mp with
                lastByte := s.clock.now, receiver := receiver,
                counters := { s.mp.counters with
                  headerErrors := min (s.mp.counters.headerErrors + 1) 4294967295, overruns := overruns } } }
          (0xC3#8 ∉ got ++ [b] → receiveByte b s = rejected .hunting overruns)
            ∧ (∀ before rest : List Byte, got ++ [b] = before ++ 0xC3#8 :: rest → 0xC3#8 ∉ before →
                (s.mp.used + 1 + rest.length < 4096 →
                    receiveByte b s = rejected (.header rest false) overruns)
                  ∧ (4096 ≤ s.mp.used + 1 + rest.length →
                      receiveByte b s = rejected (.header rest true) (min (overruns + 1) 4294967295))))
      ∧ (let overran (receiver : Receiver) : State :=
          { s with mp := { s.mp with
              lastByte := s.clock.now, receiver := receiver,
              counters := { s.mp.counters with overruns := min (s.mp.counters.overruns + 1) 4294967295 } } }
        (s.mp.receiver = .hunting → b = 0xC3#8 → 4096 ≤ s.mp.used + 1 → receiveByte b s = overran (.header [] true))
          ∧ (∀ got : List Byte, s.mp.receiver = .header got false → got.length < 5 →
              4096 ≤ s.mp.used + 2 + got.length → receiveByte b s = overran (.header (got ++ [b]) true))
          ∧ (∀ got : List Byte, s.mp.receiver = .header got false → got.length = 5 → 4096 ≤ s.mp.used + 7 →
              b = complementSum got → fieldAt got 0 2 ≤ 1024 →
              receiveByte b s = overran (.discarding (fieldAt got 0 2 + 4))))
      ∧ (∀ got : List Byte, s.mp.receiver = .header got true →
          (got.length < 5 →
              receiveByte b s =
                { s with mp := { s.mp with lastByte := s.clock.now, receiver := .header (got ++ [b]) true } })
            ∧ (got.length = 5 → b = complementSum got → fieldAt got 0 2 ≤ 1024 →
                receiveByte b s = { s with mp := { s.mp with
                  lastByte := s.clock.now, receiver := .discarding (fieldAt got 0 2 + 4) } }))
      ∧ (∀ h got : List Byte, s.mp.receiver = .payload h got → s.mp.used + 8 + got.length < 4096 →
          got.length + 1 < fieldAt h 0 2 + 4 →
          receiveByte b s =
            { s with mp := { s.mp with lastByte := s.clock.now, receiver := .payload h (got ++ [b]) } })
      ∧ (∀ h got : List Byte, s.mp.receiver = .payload h got → 4096 ≤ s.mp.used + 8 + got.length →
          got.length + 1 < fieldAt h 0 2 + 4 →
          receiveByte b s = { s with mp := { s.mp with
            lastByte := s.clock.now,
            receiver := .discarding (fieldAt h 0 2 + 4 - got.length - 1),
            counters := { s.mp.counters with overruns := min (s.mp.counters.overruns + 1) 4294967295 } } })
      ∧ (∀ h got : List Byte, s.mp.receiver = .payload h got → s.mp.used + 8 + got.length ≤ 4096 →
          got.length + 1 = fieldAt h 0 2 + 4 →
          (fieldAt (got ++ [b]) (fieldAt h 0 2) 4 = crc32 ((got ++ [b]).take (fieldAt h 0 2)) → s.draining = true →
              receiveByte b s =
                { s with mp := { s.mp with
                    lastByte := s.clock.now,
                    receiver := .hunting,
                    counters := { s.mp.counters with
                      framesReceived := min (s.mp.counters.framesReceived + 1) 4294967295 } } }))
      ∧ (∀ h got : List Byte, s.mp.receiver = .payload h got → s.mp.used + 8 + got.length ≤ 4096 →
          got.length + 1 = fieldAt h 0 2 + 4 →
          (fieldAt (got ++ [b]) (fieldAt h 0 2) 4 = crc32 ((got ++ [b]).take (fieldAt h 0 2)) → s.draining = false →
              receiveByte b s =
                { s with mp := { s.mp with
                    lastByte := s.clock.now,
                    receiver := .hunting,
                    counters := { s.mp.counters with
                      framesReceived := min (s.mp.counters.framesReceived + 1) 4294967295 },
                    fifo := s.mp.fifo ++ [⟨BitVec.ofNat 16 (fieldAt h 2 2), h.getD 4 0,
                      (got ++ [b]).take (fieldAt h 0 2)⟩] } })
            ∧ (fieldAt (got ++ [b]) (fieldAt h 0 2) 4 ≠ crc32 ((got ++ [b]).take (fieldAt h 0 2)) →
                receiveByte b s =
                  State.offerFault (FaultOffer.bare .linkFrame) { s with mp := { s.mp with
                    lastByte := s.clock.now,
                    receiver := .hunting,
                    counters := { s.mp.counters with
                      badFrames := min (s.mp.counters.badFrames + 1) 4294967295 } } }))

/-- Frames that do not complete. INBOUND_FIFO_FULL: a payload byte with which the FIFO holds 4096 bytes and the frame is not complete: the
frame is rewound at this byte, the overruns counter rises by one, and the frame's remaining bytes are discarded as they arrive,
counted by its length; then the receiver hunts (R168): the bytes still to come, any that they are, change nothing but the time of the
last byte and the count of those left, and with the last of them the receiver hunts. FRAME_BYTE_TIMEOUT: 10 ms after the last byte of
an incomplete frame the frame is bad: it leaves the FIFO, the bad frames counter rises by one, a LINK_FRAME fault is offered, and the
receiver hunts (R167); that the limit holds also of a frame that is being counted out is the model's choice (log 17). Before that, and
while hunting, nothing happens (log 1). -/
def Obligations.IncompleteFramesEnd : Prop :=
  ∀ s : State, s.quiet →
    (∀ (b : Byte) (h got : List Byte), s.mp.receiver = .payload h got →
        s.mp.used + 8 + got.length = 4096 → got.length + 1 < fieldAt h 0 2 + 4 →
        exec (.inboundFifoFull b) s = .next { s with mp := { s.mp with
          lastByte := s.clock.now,
          receiver := .discarding (fieldAt h 0 2 + 4 - got.length - 1),
          counters := { s.mp.counters with overruns := min (s.mp.counters.overruns + 1) 4294967295 } } })
      ∧ (∀ (left : Nat) (b : Byte), s.mp.receiver = .discarding left →
          receiveByte b s = { s with mp := { s.mp with
            lastByte := s.clock.now, receiver := if left ≤ 1 then .hunting else .discarding (left - 1) } })
      ∧ (∀ bytes : List Byte, s.mp.receiver = .discarding bytes.length → 1 ≤ bytes.length →
          receive bytes s = { s with mp := { s.mp with lastByte := s.clock.now, receiver := .hunting } })
      ∧ (s.mp.receiver ≠ .hunting → s.mp.lastByte + 10000 ≤ s.clock.now →
          exec .frameByteTimeout s = .next
            (State.offerFault (FaultOffer.bare .linkFrame) { s with mp := { s.mp with
              receiver := .hunting,
              counters := { s.mp.counters with badFrames := min (s.mp.counters.badFrames + 1) 4294967295 } } }))
      ∧ (s.mp.receiver = .hunting ∨ s.clock.now < s.mp.lastByte + 10000 → exec .frameByteTimeout s = .next s)

/-- OUTBOUND_FRAME_SENT: the head frame leaves the outbound queue and is counted as a reply or a notice; nothing else changes
(R171, R176). (The reply of a RESET has a statement of its own.) -/
def Obligations.SentFrameLeavesQueue : Prop :=
  ∀ (s : State) (f : OutFrame) (rest : List OutFrame), s.quiet → s.mp.outbound = f :: rest →
    s.draining = false ∨ f.resetReply = false →
    (f.isReply = true →
        exec .outboundFrameSent s = .next { s with mp := { s.mp with
          outbound := rest,
          counters := { s.mp.counters with repliesSent := min (s.mp.counters.repliesSent + 1) 4294967295 } } })
      ∧ (f.isReply = false →
          exec .outboundFrameSent s = .next { s with mp := { s.mp with
            outbound := rest,
            counters := { s.mp.counters with noticesSent := min (s.mp.counters.noticesSent + 1) 4294967295 } } })

/-! ## The Grant Unit (R49 to R67) -/

/-- The overlap of a range with a row (R52): a range of offsets from o_first to o_last overlaps row r of a geometry of width w
and unit u, with d = w − 1, exactly when o_first ≤ (r + 1)·d·u − 1 and o_last ≥ r·d·u; and that is so exactly when the two
share an offset. -/
def Obligations.RangeOverlapsRow : Prop :=
  ∀ w u r first last : Nat, 2 ≤ w → 1 ≤ u → first ≤ last →
    (overlapsRow w u r first last = true ↔ first ≤ (r + 1) * ((w - 1) * u) - 1 ∧ r * ((w - 1) * u) ≤ last)
      ∧ (overlapsRow w u r first last = true ↔
          ∃ o, first ≤ o ∧ o ≤ last ∧ r * ((w - 1) * u) ≤ o ∧ o < (r + 1) * ((w - 1) * u))

/-- MAP is checked in the order of R50, and the first check that fails gives the reply; a refused MAP changes nothing but the
request, its tag and the refusals counter (R50, R69). -/
def Obligations.MapChecksInOrder : Prop :=
  ∀ (s : State) (tag : ReqTag) (p : List Byte), s.serves .map tag p →
    let volume := byteAt p 0
    let access := byteAt p 1
    let count := fieldAt p 2 2
    let first := fieldAt p 4 8
    let last := first + count - 1
    let refused (result : Result) :=
      exec (.map tag) s = .next ((s.answer tag result .empty).onGu (fun g =>
        { g with counters := { g.counters with refusals := min (g.counters.refusals + 1) 4294967295 } }))
    let check1 : Prop := volume < 4 ∧ 1 ≤ count ∧ count ≤ 4096 ∧ access < 2
    let check2 : Prop := first / s.slabBlocks = last / s.slabBlocks
    let check3 : Prop := last < (s.volume volume).ready * s.slabBlocks
    (¬check1 → refused .badField)
      ∧ (check1 → ¬check2 → refused .badField)
      ∧ (check1 → check2 → ¬check3 → refused .outOfRange)
      ∧ (check1 → check2 → check3 → s.gu.freeOrder = [] → refused .busy)

/-- A MAP that passes its checks and is a READ, or a WRITE on a LIVE slab whose job is in no lane in CLAIMING, is granted on the
home alone (R51): the head of the free order becomes LIVE with its generation raised and the fields of R53, the count of the
home slot rises by one, the grant is counted, and the reply carries the fields of R54. Every other hold, every other slot, the
sets, the volumes, the slabs and every other block stay. -/
def Obligations.MapGrantedOnHome : Prop :=
  ∀ (s : State) (tag : ReqTag) (p : List Byte) (h : Nat) (rest : List Nat), s.serves .map tag p → s.mapPasses p h rest →
    let v := byteAt p 0
    let g := (s.volume v).base + fieldAt p 4 8 / s.slabBlocks
    let home := (s.slab g).home
    let generation := ((s.hold h).generation + 1) % 65536
    let access : Access := if byteAt p 1 = 0 then .read else .write
    (byteAt p 1 = 0 ∨ ((s.slab g).state = .live ∧ s.claimedTarget g = none)) →
    ∃ t : State, exec (.map tag) s = .next t
      ∧ t.hold h = { state := .live, generation := generation, volume := v, first := fieldAt p 4 8,
                     count := fieldAt p 2 2, slab := g, access := access, home := home, target := none,
                     lifetime := s.gu.holdLife * 1000, deadline := s.clock.now + s.gu.holdLife * 1000000 }
      ∧ (∀ h', h' ≠ h → t.hold h' = s.hold h')
      ∧ t.gu.freeOrder = rest ∧ t.gu.deferred = s.gu.deferred
      ∧ t.gu.counters =
          (if byteAt p 1 = 0 then
            { s.gu.counters with readGrants := min (s.gu.counters.readGrants + 1) 4294967295 }
          else { s.gu.counters with writeGrants := min (s.gu.counters.writeGrants + 1) 4294967295 })
      ∧ t.slot home = { s.slot home with refs := (s.slot home).refs + 1 }
      ∧ (∀ q, slotKey q ≠ slotKey home → t.slot q = s.slot q)
      ∧ t.pm.sets = s.pm.sets ∧ t.pm.slabs = s.pm.slabs ∧ t.pm.volumes = s.pm.volumes ∧ t.pm.members = s.pm.members
      ∧ t.mp = (s.answer tag .ok (.grant
          { hold := h, generation := generation, volume := v, first := fieldAt p 4 8, count := fieldAt p 2 2, slab := g,
            home := home, homeState := (s.set home.set).state, target := none, lifetime := s.gu.holdLife * 1000 })).mp
      ∧ t.me = s.me ∧ t.sp = s.sp ∧ t.dp = s.dp ∧ t.sm = s.sm ∧ t.jc = s.jc ∧ t.part = s.part

/-- A WRITE MAP that passes its checks is granted mirrored, on the home and the claimed target of a LIVE slab whose MOVE job is
in a lane in CLAIMING, or on the home and the Slab Map target of a MOVING or COMMITTING slab, unless its range overlaps the row on
which a lockout is in force (R51, R53, R54): the hold names both, the count of each slot rises by one, and the grant is
counted and answered. A grant on a slab in motion is handed to the lane: where its range overlaps the row of an INTACT watch, that
watch is BROKEN, the lane's waiting commands are withdrawn, and with none of its commands outstanding the commit check follows
(R96, R97, R129); where it overlaps none, nothing more happens. That a waiting command of a skipped unit, which the lane waits for no
longer, is not counted again is the model's reading (log 38). -/
def Obligations.MapGrantedMirrored : Prop :=
  ∀ (s : State) (tag : ReqTag) (p : List Byte) (h : Nat) (rest : List Nat) (target : Place), s.serves .map tag p →
    s.mapPasses p h rest → byteAt p 1 = 1 →
    let v := byteAt p 0
    let first := fieldAt p 4 8
    let count := fieldAt p 2 2
    let g := (s.volume v).base + first / s.slabBlocks
    let home := (s.slab g).home
    let generation := ((s.hold h).generation + 1) % 65536
    let offset := first - s.volumeSlab g * s.slabBlocks
    let overlaps (n row : Nat) : Prop :=
      overlapsRow (s.rowSet (s.lane n)).width (s.rowSet (s.lane n)).unit row offset (offset + count - 1) = true
    let claimed : Prop := (s.slab g).state = .live ∧ s.claimedTarget g = some target
    let moves : Prop := ((s.slab g).state = .moving ∨ (s.slab g).state = .committing) ∧ (s.slab g).target = some target
      ∧ ∀ n, s.laneOf g = some n → ¬((s.lane n).lockout = true ∧ overlaps n (s.lane n).row)
    let breaks (n : Nat) (w : Watch) : Prop :=
      moves ∧ s.laneOf g = some n ∧ (s.lane n).watch = some w ∧ w.intact = true ∧ overlaps n w.row
    (claimed ∨ moves) → slotKey target ≠ slotKey home →
    ∃ t : State,
      t.hold h = { state := .live, generation := generation, volume := v, first := first, count := count, slab := g,
                   access := .write, home := home, target := some target, lifetime := s.gu.holdLife * 1000,
                   deadline := s.clock.now + s.gu.holdLife * 1000000 }
        ∧ (∀ h', h' ≠ h → t.hold h' = s.hold h')
        ∧ t.gu.freeOrder = rest ∧ t.gu.deferred = s.gu.deferred
        ∧ t.gu.counters = { s.gu.counters with mirroredGrants := min (s.gu.counters.mirroredGrants + 1) 4294967295 }
        ∧ t.slot home = { s.slot home with refs := (s.slot home).refs + 1 }
        ∧ t.slot target = { s.slot target with refs := (s.slot target).refs + 1 }
        ∧ (∀ q, slotKey q ≠ slotKey home → slotKey q ≠ slotKey target → t.slot q = s.slot q)
        ∧ t.pm.sets = s.pm.sets ∧ t.pm.slabs = s.pm.slabs ∧ t.pm.volumes = s.pm.volumes ∧ t.pm.members = s.pm.members
        ∧ t.mp = (s.answer tag .ok (.grant
            { hold := h, generation := generation, volume := v, first := first, count := count, slab := g,
              home := home, homeState := (s.set home.set).state, target := some (target, (s.set target.set).state),
              lifetime := s.gu.holdLife * 1000 })).mp
        ∧ t.me = s.me ∧ t.sp = s.sp ∧ t.dp = s.dp ∧ t.sm = s.sm ∧ t.jc = s.jc ∧ t.part = s.part
        ∧ ((∀ n w, ¬breaks n w) → exec (.map tag) s = .next t)
        ∧ (∀ n w, breaks n w →
            let withdrawn := (s.dp.waiting.filter (fun c => c.owner = .lane n ∧ c.use ≠ .skipped)).length
            let left := (s.lane n).commands - withdrawn
            ∃ u : State, exec (.map tag) s = .next (finish s u)
              ∧ u.lane n = { s.lane n with watch := some { w with intact := false }, commands := left }
              ∧ (∀ m, m ≠ n → u.lane m = s.lane m)
              ∧ u.agenda = (if left = 0 then [.commitCheck n] else [])
              ∧ u.dp.waiting = s.dp.waiting.filter (fun c => c.owner ≠ .lane n)
              ∧ u.dp.ring = s.dp.ring ∧ u.dp.sent = s.dp.sent
              ∧ u.sp = { s.sp with recoveryWait := s.sp.recoveryWait.filter (fun m => m ≠ n) }
              ∧ u.me.jobs = s.me.jobs ∧ u.gu = t.gu ∧ u.pm = t.pm ∧ u.mp = t.mp ∧ u.jc = s.jc)

/-- A WRITE MAP on a MOVING or COMMITTING slab whose range overlaps the row on which a lockout is in force is deferred (R51,
R65): its entry joins the tail of the Deferral Queue with its deadline, it gives up its place in the request queue, its tag
stays open, and the deferral is counted; with 64 entries it is answered BUSY instead. Nothing else changes. -/
def Obligations.MapDeferredByLockout : Prop :=
  ∀ (s : State) (tag : ReqTag) (p : List Byte) (h : Nat) (rest : List Nat) (n : Nat), s.serves .map tag p →
    s.mapPasses p h rest → byteAt p 1 = 1 →
    let v := byteAt p 0
    let first := fieldAt p 4 8
    let count := fieldAt p 2 2
    let g := (s.volume v).base + first / s.slabBlocks
    let offset := first - s.volumeSlab g * s.slabBlocks
    let geometry := s.rowSet (s.lane n)
    ((s.slab g).state = .moving ∨ (s.slab g).state = .committing) → s.laneOf g = some n → (s.lane n).lockout = true →
    overlapsRow geometry.width geometry.unit (s.lane n).row offset (offset + count - 1) = true →
    (s.gu.deferred.length < 64 →
        exec (.map tag) s = .next { s with
          gu := { s.gu with
            deferred := s.gu.deferred ++ [⟨tag, v, first, count, g, s.clock.now + s.gu.holdLife * 1000000⟩],
            counters := { s.gu.counters with deferrals := min (s.gu.counters.deferrals + 1) 4294967295 } },
          mp := { s.mp with requests := s.mp.requests.filter (fun r => r.tag ≠ tag) } })
      ∧ (64 ≤ s.gu.deferred.length →
          exec (.map tag) s = .next ((s.answer tag .busy .empty).onGu (fun u =>
            { u with counters := { u.counters with
                deferralRefusals := min (u.counters.deferralRefusals + 1) 4294967295 } })))

/-- UNHOLD is answered by the entry at its hold index (R58, R59): BAD_FIELD for a form that is not right; NOT_FOUND where the entry is
FREE or the generations differ; TOO_LATE where it is EXPIRED, which changes nothing of it; OK where it is LIVE, and then the entry is
FREE with its generation kept, it joins the tail of the free order, and the counts of its slots fall by one. The counters of R69 tell
the reply and the outcome. The members listed are passed on as causes of failure, in the order listed (R35, R61), and after them,
where the entry is known and names a target, the Move Engine is asked whether one of them is a position of the target set. The end of
a WRITE hold is reported to the lanes with its slab, its range and whether it named a target (R62), before that (the model's choice,
log 60). With none listed, and for a READ or a slab that no lane carries, nothing more happens.
What the report does: a lane in LOCKOUT_WAIT whose row no LIVE write hold overlaps now begins a new attempt (R103); a lane in CLAIMING
counts a home-only hold down, and with the last one queues JOB_BEGIN (R64, R76). What a listed member of the target set does while the
slab still names that target: its job is aborted with TARGET_WRITE, in its lane, or on the waiting job (R61, R84). A listed member
that is AVAILABLE or ACTIVE fails, and no other (R35). -/
def Obligations.UnholdAnswered : Prop :=
  ∀ (s : State) (tag : ReqTag) (p : List Byte), s.serves .unhold tag p →
    let h := fieldAt p 0 2
    let generation := fieldAt p 2 2
    let e := s.hold h
    let good : Prop := h < 512 ∧ byteAt p 4 < 2 ∧ byteAt p 5 ≤ 4 ∧ byteAt p 5 + 6 = p.length
    let counted (f : GrantCounters → GrantCounters) (t : State) : State := t.onGu (fun g => { g with counters := f g.counters })
    let members := (p.drop 6).map BitVec.toNat
    let asked (u : State) : State :=
      { u with
        agenda := u.agenda ++ members.map Internal.memberCause ++ (match e.target with
          | none => []
          | some q => [.targetWrite e.slab q members]) }
    let carries (u : State) (n : Nat) (g : Nat) : Prop := n < 4 ∧ (u.lane n).job.map Job.slab = some g
      ∧ ∀ m, m < 4 → m ≠ n → (u.lane m).job.map Job.slab ≠ some g
    (good →
        ((e.state = .free ∨ e.generation ≠ generation) →
            exec (.unhold tag) s = .next (finish s { (counted
              (fun c => { c with notFoundReplies := min (c.notFoundReplies + 1) 4294967295 })
              (s.answer tag .notFound .empty)) with agenda := members.map Internal.memberCause }))
          ∧ (e.state = .expired → e.generation = generation →
              exec (.unhold tag) s = .next (finish s (asked (counted
                (fun c => if byteAt p 4 = 0 then
                    { c with tooLateReplies := min (c.tooLateReplies + 1) 4294967295 }
                  else { c with tooLateReplies := min (c.tooLateReplies + 1) 4294967295,
                                endsFailed := min (c.endsFailed + 1) 4294967295 })
                (s.answer tag .tooLate .empty)))))
          ∧ (e.state = .live → e.generation = generation →
              ∃ t : State, exec (.unhold tag) s = .next (finish s (asked t))
                ∧ t.agenda = (if e.access = .write then [.holdEnded e.slab e.first e.count e.target.isSome] else [])
                ∧ t.hold h = Hold.free generation
                ∧ (∀ h', h' ≠ h → t.hold h' = s.hold h')
                ∧ t.gu.freeOrder = s.gu.freeOrder ++ [h]
                ∧ t.gu.counters = (if byteAt p 4 = 0 then
                    { s.gu.counters with endsDone := min (s.gu.counters.endsDone + 1) 4294967295 }
                  else { s.gu.counters with endsFailed := min (s.gu.counters.endsFailed + 1) 4294967295 })
                ∧ t.pm = (match e.target with
                    | none => (s.lowerRef e.home).pm
                    | some q => (State.lowerRef q (s.lowerRef e.home)).pm)
                ∧ t.mp = (s.answer tag .ok .empty).mp ∧ t.me = s.me ∧ t.sp = s.sp ∧ t.dp = s.dp ∧ t.jc = s.jc))
      ∧ (∀ (u : State) (n g first count : Nat) (mirrored : Bool), carries u n g →
          let l := u.lane n
          let told := handle (.holdEnded g first count mirrored) u
          (l.state = .lockoutWait →
              (u.writeOverlaps g l.row (u.rowSet l).width (u.rowSet l).unit = true → told = u)
                ∧ (u.writeOverlaps g l.row (u.rowSet l).width (u.rowSet l).unit = false → told = startAttempt n u))
            ∧ (l.state = .claiming → mirrored = false →
                (2 ≤ l.awaitedHolds → told = u.setLane n { l with awaitedHolds := l.awaitedHolds - 1 })
                  ∧ (l.awaitedHolds = 1 → told = queueBegin n (u.setLane n { l with awaitedHolds := 0 }))
                  ∧ (l.awaitedHolds = 0 → told = u))
            ∧ (l.state = .claiming → mirrored = true → told = u)
            ∧ (l.state ≠ .lockoutWait → l.state ≠ .claiming → told = u))
      ∧ (∀ (u : State) (g : Nat) (q : Place) (ids : List Nat),
          let told := handle (.targetWrite g q ids) u
          let touched : Prop := (∃ x ∈ (u.set q.set).positions, x.member ∈ ids)
            ∧ ((u.slab g).target = some q ∨ u.claimedTarget g = some q)
          (¬touched → told = u)
            ∧ (touched → ∀ n, u.laneOf g = some n → told = takeCause n .targetWrite u)
            ∧ (touched → u.laneOf g = none → told = { u with me := { u.me with jobs := u.me.jobs.map (fun j =>
                if j.slab = g ∧ j.retained.isSome = true ∧ j.cause = none then { j with cause := some .targetWrite }
                else j) } }))
      ∧ (∀ (u : State) (id : Nat),
          ((u.member id).state = .available ∨ (u.member id).state = .active →
              handle (.memberCause id) u = failMember id none u)
            ∧ ((u.member id).state ≠ .available → (u.member id).state ≠ .active → handle (.memberCause id) u = u))
      ∧ (¬good → exec (.unhold tag) s = .next (s.answer tag .badField .empty))
      ∧ (good → byteAt p 5 = 0 →
          ((e.state = .free ∨ e.generation ≠ generation) →
              exec (.unhold tag) s = .next (counted
                (fun c => { c with notFoundReplies := min (c.notFoundReplies + 1) 4294967295 })
                (s.answer tag .notFound .empty)))
            ∧ (e.state = .expired → e.generation = generation →
                exec (.unhold tag) s = .next (counted
                  (fun c => if byteAt p 4 = 0 then
                      { c with tooLateReplies := min (c.tooLateReplies + 1) 4294967295 }
                    else { c with tooLateReplies := min (c.tooLateReplies + 1) 4294967295,
                                  endsFailed := min (c.endsFailed + 1) 4294967295 })
                  (s.answer tag .tooLate .empty)))
            ∧ (e.state = .live → e.generation = generation →
                (e.access = .read ∨ ∀ n, (s.lane n).job.map Job.slab ≠ some e.slab) →
                ∃ t : State, exec (.unhold tag) s = .next t
                  ∧ t.hold h = Hold.free generation
                  ∧ (∀ h', h' ≠ h → t.hold h' = s.hold h')
                  ∧ t.gu.freeOrder = s.gu.freeOrder ++ [h]
                  ∧ t.gu.counters = (if byteAt p 4 = 0 then
                      { s.gu.counters with endsDone := min (s.gu.counters.endsDone + 1) 4294967295 }
                    else { s.gu.counters with endsFailed := min (s.gu.counters.endsFailed + 1) 4294967295 })
                  ∧ t.pm = (match e.target with
                      | none => (s.lowerRef e.home).pm
                      | some q => (State.lowerRef q (s.lowerRef e.home)).pm)
                  ∧ t.mp = (s.answer tag .ok .empty).mp ∧ t.me = s.me ∧ t.dp = s.dp ∧ t.jc = s.jc))

/-- HOLD_EXPIRY: a LIVE hold whose deadline is reached becomes EXPIRED, its deadline moved forward by its lifetime and its other
fields kept, the expiry is counted and HOLD_EXPIRED is offered; the slots keep their counts (R56). The end of a WRITE hold is
reported to the lanes with its slab, its range and whether it named a target (R62; what that does is stated in UnholdAnswered), and
where none carries its slab nothing more happens. A hold that is not LIVE, or whose deadline lies ahead, is left as it is
(R60; log 1). So is, at QUARANTINE_END, a hold that is not EXPIRED or whose deadline lies ahead, and at DEFERRAL_DEADLINE a deferred MAP
whose deadline lies ahead, and a tag that is not deferred (the model's choice, log 1). -/
def Obligations.HoldExpires : Prop :=
  ∀ (s : State) (h : Nat), s.quiet →
    let e := s.hold h
    let expired : State :=
      State.offerNotice (.holdExpired h e.generation e.volume e.first e.count e.slab e.access)
        { s with gu := { s.gu with
            holds := tableWrite (Hold.free 0) s.gu.holds h
              { e with state := .expired, deadline := e.deadline + e.lifetime * 1000 },
            counters := { s.gu.counters with expiries := min (s.gu.counters.expiries + 1) 4294967295 } } }
    (e.state = .live → e.deadline ≤ s.clock.now →
        exec (.holdExpiry h) s = .next (finish s { expired with
          agenda := if e.access = .write then [.holdEnded e.slab e.first e.count e.target.isSome] else [] }))
      ∧ (e.state = .live → e.deadline ≤ s.clock.now →
        (e.access = .read ∨ ∀ n, (s.lane n).job.map Job.slab ≠ some e.slab) →
        exec (.holdExpiry h) s = .next
          (State.offerNotice (.holdExpired h e.generation e.volume e.first e.count e.slab e.access)
            { s with gu := { s.gu with
                holds := tableWrite (Hold.free 0) s.gu.holds h
                  { e with state := .expired, deadline := e.deadline + e.lifetime * 1000 },
                counters := { s.gu.counters with expiries := min (s.gu.counters.expiries + 1) 4294967295 } } }))
      ∧ (e.state ≠ .live ∨ s.clock.now < e.deadline → exec (.holdExpiry h) s = .next s)
      ∧ (e.state ≠ .expired ∨ s.clock.now < e.deadline → exec (.quarantineEnd h) s = .next s)
      ∧ (∀ (tag : ReqTag) (d : Deferred), s.gu.deferred.find? (fun d => d.tag = tag) = some d → s.clock.now < d.deadline →
          exec (.deferralDeadline tag) s = .next s)
      ∧ (∀ tag : ReqTag, (∀ d ∈ s.gu.deferred, d.tag ≠ tag) → exec (.deferralDeadline tag) s = .next s)

/-- QUARANTINE_END: an EXPIRED hold whose deadline is reached becomes FREE, its generation kept and its other fields cleared; it
joins the tail of the free order, and the counts of the slots it named fall by one (R57). -/
def Obligations.QuarantineEnds : Prop :=
  ∀ (s : State) (h : Nat), s.quiet →
    let e := s.hold h
    let freed : State := { s with gu := { s.gu with
      holds := tableWrite (Hold.free 0) s.gu.holds h (Hold.free e.generation), freeOrder := s.gu.freeOrder ++ [h] } }
    e.state = .expired → e.deadline ≤ s.clock.now →
      exec (.quarantineEnd h) s = .next (match e.target with
        | none => freed.lowerRef e.home
        | some q => (freed.lowerRef e.home).lowerRef q)

/-- DEFERRAL_DEADLINE: a deferred MAP whose deadline is reached is answered BUSY and leaves the queue, its tag is closed, and the
deferral timeout is counted (R67, R69); a later re-evaluation of its slab does not find it. Where the lockout ends first the entry is
re-evaluated by R66: with no hold free it is answered BUSY and removed; where it overlaps the row of a lockout again it stays as it is;
else it is removed and granted, on the home alone on a LIVE slab whose job is in no lane in CLAIMING, mirrored on a slab in motion,
and then handed to the lane. -/
def Obligations.DeferralTimesOut : Prop :=
  (∀ (s : State) (tag : ReqTag), s.quiet →
    ∀ d, s.gu.deferred.find? (fun d => d.tag = tag) = some d → d.deadline ≤ s.clock.now →
      ∃ t : State, exec (.deferralDeadline tag) s = .next t
        ∧ t = (s.answer tag .busy .empty).onGu (fun g =>
          { g with deferred := g.deferred.filter (fun d => d.tag ≠ tag),
                   counters := { g.counters with deferralTimeouts := min (g.counters.deferralTimeouts + 1) 4294967295 } })
        ∧ (∀ e ∈ t.gu.deferred, e.tag ≠ tag) ∧ tag ∉ t.mp.openTags
        ∧ ((∀ e ∈ s.gu.deferred, e.slab = d.slab → e.tag = tag) → handle (.reevaluate d.slab) t = t))
    ∧ ∀ (s : State) (d : Deferred), s.gu.deferred.filter (fun e => e.slab = d.slab) = [d] →
      let told := handle (.reevaluate d.slab) s
      let b := s.slab d.slab
      let offset := d.first - s.volumeSlab d.slab * s.slabBlocks
      let removed : State := { s with gu := { s.gu with deferred := s.gu.deferred.filter (fun e => e.tag ≠ d.tag) } }
      let ask : MapAsk := ⟨d.tag, d.volume, d.first, d.count, d.slab, .write⟩
      let locked : Prop := ∃ n, s.laneOf d.slab = some n ∧ (s.lane n).lockout = true
        ∧ overlapsRow (s.rowSet (s.lane n)).width (s.rowSet (s.lane n)).unit (s.lane n).row offset (offset + d.count - 1) = true
      (s.gu.freeOrder = [] →
          told = (removed.answer d.tag .busy .empty).onGu (fun g =>
            { g with counters := { g.counters with deferralRefusals := min (g.counters.deferralRefusals + 1) 4294967295 } }))
        ∧ (s.gu.freeOrder ≠ [] → b.state = .moving ∨ b.state = .committing → locked → told = s)
        ∧ (s.gu.freeOrder ≠ [] → ∀ q, b.state = .moving ∨ b.state = .committing → b.target = some q → ¬locked →
            told = meetGrant d.slab d.first d.count (grantMap ask (some q) removed))
        ∧ (s.gu.freeOrder ≠ [] → b.state = .live → s.claimedTarget d.slab = none → told = grantMap ask none removed)

/-- The three moments at which a DRAINING slot is looked at (R11, R12, R13): the end of a hold lowers its count, its slab leaves
it, its lane hold is cleared. A slot that is then DRAINING with count 0 and no lane hold is FREE, with its owner cleared, and the
free count of its set rises by one; else it keeps what remains. No other slot or set changes.
So the tables keep agreeing: where each slot's count is the number of the holds that name it, that stays so when a MAP is granted,
when a hold expires or is freed, and when a slot is left, released, taken or freed, the latter two with no hold naming it (R11);
and where each set's free count is the number of its FREE slots, that stays so whatever is written to one of its slots (R8, R13). -/
def Obligations.DrainingSlotsFreed : Prop :=
  ∀ (s : State) (q : Place),
    let v := s.slot q
    let freed (t : State) : Prop :=
      t.slot q = Slot.free ∧ t.set q.set = { s.set q.set with freeCount := (s.set q.set).freeCount + 1 }
    let kept (t : State) (v' : Slot) : Prop := t.slot q = v' ∧ t.set q.set = s.set q.set
    let others (t : State) : Prop :=
      (∀ q', slotKey q' ≠ slotKey q → t.slot q' = s.slot q') ∧ (∀ k, k ≠ q.set → t.set k = s.set k)
    let drains : Prop := v.state = .draining ∧ v.refs ≤ 1 ∧ v.lane = none
    (drains → freed (s.lowerRef q)) ∧ (¬drains → kept (s.lowerRef q) { v with refs := v.refs - 1 })
      ∧ others (s.lowerRef q)
      ∧ (v.state = .home ∨ v.state = .target →
          (v.refs = 0 ∧ v.lane = none → freed (s.leavePlace q))
            ∧ (¬(v.refs = 0 ∧ v.lane = none) → kept (s.leavePlace q) { v with state := .draining })
            ∧ others (s.leavePlace q))
      ∧ (v.state = .draining ∧ v.refs = 0 → freed (s.releaseSlot q))
      ∧ (¬(v.state = .draining ∧ v.refs = 0) → kept (s.releaseSlot q) { v with lane := none })
      ∧ others (s.releaseSlot q)
      ∧ (tableWf (Hold.free 0) s.gu.holds = true → s.refsMatch →
          (∀ a target h rest, s.gu.freeOrder = h :: rest → (s.hold h).state = .free → (grantMap a target s).refsMatch)
            ∧ (∀ h, (s.hold h).state = .live → (expireHold h (s.hold h) s).refsMatch)
            ∧ (∀ h, (s.hold h).state ≠ .free → (freeHold h s).refsMatch)
            ∧ (s.leavePlace q).refsMatch ∧ (s.releaseSlot q).refsMatch
            ∧ (v.refs = 0 → (s.freeSlot q).refsMatch ∧ ∀ state g, (s.takeSlot q state g).refsMatch))
      ∧ (s.freeMatches → q.slot < (s.set q.set).slots → (∀ k, (s.set k).slots ≤ 1024) →
          ∀ w : Slot, (s.writeSlot q w).freeMatches)

/-! ## Configuration requests and parameters (R19, R27 to R46, R174) -/

/-- In FROZEN every configuration request, the seven of spec/02 and SET_PARAM of SLAB_SIZE, is answered JOURNAL_DOWN, and nothing else
changes (R27; that SLAB_SIZE is refused so before its value is looked at is the model's reading, log 16).
Entering FROZEN undoes the configuration request that waits for its record, and answers it JOURNAL_DOWN (R28, R158): with none waiting
nothing changes; a failed admission, a failure and SLAB_SIZE have nothing to undo; a set being defined is UNUSED (R40; that no SET_STATE
is offered is the model's reading, log 39), one being retired retires no longer (R42), a volume being created is UNUSED (R43); a member
released has its former entry, with MEMBER_STATE where its state changes (R38), and its error run stays cleared (the model's reading,
log 33); the homes of a growth are FREE and the volume's pool is
the old one (R47); an admission's commands are cancelled, and its member is PRESENT where its drive is present, else ABSENT (R33),
with no capacity and no format (the model's choice, log 50). -/
def Obligations.ConfigurationFrozen : Prop :=
  (∀ (s : State) (c : Instr) (k : ReqKind) (tag : ReqTag) (p : List Byte), c.request = some (k, tag) →
    (k ∈ [ReqKind.joinMember, .releaseMember, .failMember, .defineSet, .retireSet, .createVolume, .grow]
      ∨ (k = .setParam ∧ byteAt p 0 = 0)) →
    s.serves k tag p → s.part = .frozen → exec c s = .next (s.answer tag .journalDown .empty))
    ∧ (∀ u : State, u.pm.busy = none → handle .pmFrozen u = u)
    ∧ ∀ (u : State) (tag : ReqTag),
      let told := handle .pmFrozen u
      let undone (pm : PlacementMap) : State := State.answer tag .journalDown .empty { u with pm := { pm with busy := none } }
      let rest (t : State) : Prop :=
        t.pm.busy = none ∧ t.me = u.me ∧ t.gu = u.gu ∧ t.sp = u.sp ∧ t.jc = u.jc ∧ t.part = u.part ∧ t.agenda = u.agenda
      (∀ id, u.pm.busy = some (.failing tag id) ∨ u.pm.busy = some (.joinFailed tag id) ∨ u.pm.busy = some (.slabSize tag) →
          told = undone u.pm)
        ∧ (∀ k, u.pm.busy = some (.defining tag k) →
            told = undone { u.pm with sets := tableWrite SetEntry.unused u.pm.sets k SetEntry.unused })
        ∧ (∀ k, u.pm.busy = some (.retiring tag k) →
            told = undone { u.pm with sets := tableWrite SetEntry.unused u.pm.sets k { u.set k with retiring := false } })
        ∧ (∀ v, u.pm.busy = some (.creating tag v) →
            told = undone { u.pm with volumes := tableWrite Volume.unused u.pm.volumes v Volume.unused })
        ∧ (∀ id was, u.pm.busy = some (.releasing tag id was) →
            let back : State := { u with pm := { u.pm with
              members := tableWrite Member.absent u.pm.members id was, busy := none } }
            ((u.member id).state = was.state → told = back.answer tag .journalDown .empty)
              ∧ ((u.member id).state ≠ was.state → told = State.answer tag .journalDown .empty
                  (back.offerNotice (.memberState id (u.member id).state was.state))))
        ∧ (∀ w, w.tag = tag → u.pm.busy = some (.growing w) →
            (∀ p ∈ w.homes, told.slot p.place = Slot.free)
              ∧ (∀ q, (∀ p ∈ w.homes, slotKey p.place ≠ slotKey q) → told.slot q = u.slot q)
              ∧ told.pm.volumes = tableWrite Volume.unused u.pm.volumes w.volume { u.volume w.volume with pool := w.oldPool }
              ∧ told.pm.slabs = u.pm.slabs ∧ told.pm.members = u.pm.members ∧ told.dp = u.dp
              ∧ told.mp = (u.answer tag .journalDown .empty).mp ∧ rest told
              ∧ (u.freeMatches → (∀ p ∈ w.homes, p.place.slot < (u.set p.place.set).slots) →
                  (∀ k, (u.set k).slots ≤ 1024) → told.freeMatches))
        ∧ (∀ id seq verified durable, u.pm.busy = some (.joining tag id seq verified durable) → (u.member id).state = .joining →
            u.dp.waiting = [] → u.dp.labelWait = [] → tableWf (RingEntry.free 0) u.dp.ring = true →
            let entry : Member := if (u.bay id).occupied = true ∧ (u.bay id).ready = true then
                { u.member id with state := .present }
              else Member.absent
            told.member id = entry ∧ (∀ k, k ≠ id → told.member k = u.member k)
              ∧ told.entriesWhere (fun c => decide (c.owner = .admission)) = []
              ∧ (∀ e, (∀ c, (u.ring e).cmd = some c → c.owner ≠ .admission) → told.ring e = u.ring e)
              ∧ told.pm.sets = u.pm.sets ∧ told.pm.slots = u.pm.slots ∧ told.pm.slabs = u.pm.slabs
              ∧ told.mp = (State.answer tag .journalDown .empty
                  (u.offerNotice (.memberState id .joining entry.state))).mp ∧ rest told)

/-- SET_PARAM of HOLD_LIFE, DRIVE_TMO, POLL_PERIOD, BACKOFF_BITS, LOCK_AFTER, CKPT_ROWS or MOVE_RATE, each at its owner: refused
BAD_FIELD outside its range, JOURNAL_DOWN in FROZEN; else its PARAM record is queued, and the request waits for it (R55, R80,
R81, R101, R132, R139, R174). SLAB_SIZE, at the Placement Map, is a configuration request: it is refused JOURNAL_DOWN in FROZEN,
whatever its value (the model's reading, log 16: R27 before R174), BAD_FIELD for another value than 1, 4 or 16, and WRONG_STATE while a
set is in use (R19, R27). An unknown parameter name is
refused BAD_FIELD, and so is ARRAY_ID (R19, R174). -/
def Obligations.ParameterSet : Prop :=
  ∀ (s : State) (tag : ReqTag) (p : List Byte), s.serves .setParam tag p →
    let v := fieldAt p 4 4
    let rule (q : Param) (owner : JOwner) (inRange : Prop) : Prop :=
      (¬inRange → exec (.setParam tag) s = .next (s.answer tag .badField .empty))
        ∧ (inRange → s.part = .frozen → exec (.setParam tag) s = .next (s.answer tag .journalDown .empty))
        ∧ (inRange → s.part = .ready → s.journalOpen →
            exec (.setParam tag) s = .next ((s.markTaken tag).withRecord owner (.param q v) (some tag)))
    (byteAt p 0 = 2 → rule .holdLife .gu (1 ≤ v ∧ v ≤ 120))
      ∧ (byteAt p 0 = 3 → rule .driveTmo .dp (1 ≤ v ∧ v ≤ 60))
      ∧ (byteAt p 0 = 4 → rule .pollPeriod .sm (50 ≤ v ∧ v ≤ 1000))
      ∧ (byteAt p 0 = 5 → rule .backoffBits .me (v = 1 ∨ v = 4 ∨ v = 8 ∨ v = 10))
      ∧ (byteAt p 0 = 6 → rule .lockAfter .me (v = 1 ∨ v = 8 ∨ v = 16 ∨ v = 32))
      ∧ (byteAt p 0 = 7 → rule .ckptRows .me (16 ≤ v ∧ v ≤ 1024))
      ∧ (byteAt p 0 = 8 → rule .moveRate .me (v ≤ 4096))
      ∧ (byteAt p 0 = 0 →
          (s.part = .frozen → exec (.setParam tag) s = .next (s.answer tag .journalDown .empty))
            ∧ (s.part = .ready → v ≠ 1 → v ≠ 4 → v ≠ 16 →
                exec (.setParam tag) s = .next (s.answer tag .badField .empty))
            ∧ (s.part = .ready → (v = 1 ∨ v = 4 ∨ v = 16) → (∃ e ∈ s.pm.sets, e.2.state ≠ .unused) →
                exec (.setParam tag) s = .next (s.answer tag .wrongState .empty))
            ∧ (s.part = .ready → (v = 1 ∨ v = 4 ∨ v = 16) → (∀ e ∈ s.pm.sets, e.2.state = .unused) → s.journalOpen →
                exec (.setParam tag) s = .next (State.withRecord .pm (.param .slabSize v) (some tag)
                  { s with mp := (s.markTaken tag).mp, pm := { s.pm with busy := some (.slabSize tag) } })))
      ∧ (byteAt p 0 = 1 → s.part = .ready → exec (.setParam tag) s = .next (s.answer tag .badField .empty))
      ∧ (9 ≤ byteAt p 0 → exec (.setParam tag) s = .next (s.answer tag .badField .empty))

/-- ADMIT: refused WRONG_STATE unless the entry is PRESENT with format_ok, NO_SPACE unless its capacity exceeds 2048 blocks;
else the entry is JOINING, MEMBER_STATE is offered, the MEMBER record takes number q, and the label that carries ARRAY_ID, the
member id and q goes to block 0 of the drive as a WRITE of one block with owner ADMIT (R31), here with a free place of the
label buffer, a free ring entry and the drive present. That it takes the place that has been free longest is the model's choice
(log 44). -/
def Obligations.AdmissionBegins : Prop :=
  ∀ (s : State) (tag : ReqTag) (p : List Byte), s.serves .joinMember tag p → s.part = .ready →
    let id := byteAt p 0
    let m := s.member id
    let q := s.jc.nextSeq
    let label := taggedBlock (labelData s.pm.arrayId id q) ⟨.label, id, 0⟩
    ((m.state ≠ .present ∨ m.formatOk = false) →
        exec (.admitMember tag) s = .next (s.answer tag .wrongState .empty))
      ∧ (m.state = .present → m.formatOk = true → m.capacity ≤ 2048 →
          exec (.admitMember tag) s = .next (s.answer tag .noSpace .empty))
      ∧ (m.state = .present → m.formatOk = true → 2048 < m.capacity → s.journalOpen → s.dp.flush = .answered →
          (s.bay id).present = true → ∀ (place : Nat) (places : List Nat) (e : Nat) (entries : List Nat),
          s.dp.labelFree = place :: places → s.dp.freeOrder = e :: entries →
          ∃ t : State, exec (.admitMember tag) s = .next t
            ∧ t.member id = { m with state := .joining } ∧ (∀ k, k ≠ id → t.member k = s.member k)
            ∧ t.pm.busy = some (.joining tag id (some q) false false)
            ∧ t.jc = (s.withRecord .pm (.member id (.admission m.capacity true)) (some tag)).jc
            ∧ t.mp = ((s.markTaken tag).offerNotice (.memberState id .present .joining)).mp
            ∧ t.ring e =
                { generation := ((s.ring e).generation + 1) % 256,
                  cmd := some { owner := .admission, use := .label, member := id, op := .write, dbn := 0, count := 1,
                                pages := .label (some place), context := none, labelBlock := some label },
                  deadline := s.clock.now + s.dp.driveTmo * 1000000, received := 0, mismatch := false }
            ∧ t.dp.labelFree = places ∧ t.labelPlaceBlock place = label
            ∧ t.dp.sent = s.dp.sent ++ [.command e (((s.ring e).generation + 1) % 256) id .write 0 1]
            ∧ t.pm.sets = s.pm.sets ∧ t.pm.slots = s.pm.slots ∧ t.pm.volumes = s.pm.volumes ∧ t.pm.slabs = s.pm.slabs
            ∧ t.gu = s.gu ∧ t.me = s.me ∧ t.sp = s.sp ∧ t.sm = s.sm)

/-- RELEASE_MEMBER: taken for a member in AVAILABLE, or in FAILED without bands; refused WRONG_STATE for any other. The entry is
then PRESENT with its bay's capacity and format_ok where the bay is occupied and ready, else ABSENT with capacity 0 and
format_ok no; its label_seq is cleared, its error run is 0, MEMBER_STATE is offered and its MEMBER record is queued (R38). -/
def Obligations.MemberReleased : Prop :=
  ∀ (s : State) (tag : ReqTag) (p : List Byte), s.serves .releaseMember tag p → s.part = .ready →
    let id := byteAt p 0
    let m := s.member id
    let entry : Member :=
      if (s.bay id).occupied = true ∧ (s.bay id).ready = true then
        ⟨.present, (s.bay id).capacity, (s.bay id).formatOk, [], none⟩
      else ⟨.absent, 0, false, [], none⟩
    let released : Prop := m.state = .available ∨ (m.state = .failed ∧ m.bands = [])
    (¬released → exec (.releaseMember tag) s = .next (s.answer tag .wrongState .empty))
      ∧ (released → s.journalOpen →
          exec (.releaseMember tag) s = .next
            ((State.offerNotice (.memberState id m.state entry.state)
              { s with
                mp := (s.markTaken tag).mp,
                pm := { s.pm with members := tableWrite Member.absent s.pm.members id entry,
                                  busy := some (.releasing tag id m) },
                dp := { s.dp with errorRuns := tableWrite 0 s.dp.errorRuns id 0 } }).withRecord
              .pm (.member id .unadmitted) (some tag)))

/-- FAIL_MEMBER: refused WRONG_STATE unless the member is AVAILABLE or ACTIVE; else the member fails (R36, R37): its entry is FAILED with
everything else kept, the failed count of the set of each of its bands rises by one and the set's state follows it (R7), and the
MEMBER record is queued; other members, other sets, the slots, the slabs and the volumes stay. The first clause has no command of the
part on the member and no job in a lane, so that nothing else reacts.
The failure itself, whatever its cause (R36): the Move Engine is told of each set whose state changed; MEMBER_STATE and the SET_STATE
notices, in the order of the band list, are offered, ahead of the DRIVE_NO_DEVICE faults (the model's choice, log 24); each ISSUED
command to the member completes NO_DEVICE, with its cancel and fault, and a later one without being issued (R134); then the record is
queued, held through start-up, or not made in FROZEN, all before a lane is told (the model's choice, log 59).
What the lanes do at a set's change, lanes 0 to 3 in this order (the model's choice, log 37). A MOVE takes TARGET_DEGRADED as its
target leaves ONLINE, and SOURCE_FAILED as its source fails without SALVAGE, and nothing else (R87; `takeCause` is stated in
JobCancelled). A FILL whose home fails, unless FINISHING, gives up its row, is IDLE and returns its job to the head of the list with
place and mark, no record made (R88); the row of a lane that is IDLE is 0 (the model's choice, log 62). As its home goes DEGRADED a
FILL row at its writes skips the failed units (R117), and their commands that wait are no longer waited for (the model's reading, log
38). -/
def Obligations.MemberFailed : Prop :=
  (∀ (s : State) (tag : ReqTag) (p : List Byte), s.serves .failMember tag p → s.part = .ready →
    let id := byteAt p 0
    let m := s.member id
    (m.state ≠ .available → m.state ≠ .active →
        exec (.failMember tag) s = .next (s.answer tag .wrongState .empty))
      ∧ ((m.state = .available ∨ m.state = .active) → s.journalOpen → (m.bands.map Band.set).Nodup →
          (∀ n, (s.lane n).job = none) → s.entriesWhere (fun c => decide (c.member = id)) = [] →
          s.dp.waiting = [] → s.dp.labelWait = [] →
          ∃ t : State, exec (.failMember tag) s = .next t
            ∧ t.member id = { m with state := .failed } ∧ (∀ k, k ≠ id → t.member k = s.member k)
            ∧ (∀ b ∈ m.bands, t.set b.set =
                { s.set b.set with
                  failedCount := (s.set b.set).failedCount + 1,
                  state := if (s.set b.set).failedCount = 0 then .degraded else .failed })
            ∧ (∀ k, (∀ b ∈ m.bands, b.set ≠ k) → t.set k = s.set k)
            ∧ t.pm.busy = some (.failing tag id)
            ∧ t.jc = (s.withRecord .pm (.member id .failed) (some tag)).jc
            ∧ t.pm.slots = s.pm.slots ∧ t.pm.slabs = s.pm.slabs ∧ t.pm.volumes = s.pm.volumes
            ∧ t.gu = s.gu ∧ t.me = s.me ∧ t.dp = s.dp))
    ∧ (∀ (u : State) (id : Nat) (reply : Option ReqTag),
        let m := u.member id
        let entered (k : Nat) : SetState := if (u.set k).failedCount = 0 then .degraded else .failed
        let changed := (m.bands.map Band.set).filter (fun k => (u.set k).state ≠ entered k)
        let notices : List Notice := .memberState id m.state .failed
          :: changed.map (fun k => .setState k (u.set k).state (entered k) ((u.set k).failedCount + 1))
        (m.bands.map Band.set).Nodup →
        ∃ w : State, failMember id reply u = recordFailure id reply (endCommands (fun c => decide (c.member = id)) w)
          ∧ w.member id = { m with state := .failed } ∧ (∀ k, k ≠ id → w.member k = u.member k)
          ∧ (∀ b ∈ m.bands, w.set b.set =
              { u.set b.set with
                failedCount := (u.set b.set).failedCount + 1, state := entered b.set })
          ∧ (∀ k, (∀ b ∈ m.bands, b.set ≠ k) → w.set k = u.set k)
          ∧ w.agenda = u.agenda ++ changed.map (fun k => .setChanged k (entered k))
          ∧ w.mp = (notices.foldl (fun t x => t.offerNotice x) u).mp
          ∧ w.pm.slots = u.pm.slots ∧ w.pm.slabs = u.pm.slabs ∧ w.pm.volumes = u.pm.volumes ∧ w.pm.busy = u.pm.busy
          ∧ w.gu = u.gu ∧ w.me = u.me ∧ w.sp = u.sp ∧ w.dp = u.dp ∧ w.sm = u.sm ∧ w.jc = u.jc ∧ w.part = u.part)
    ∧ (∀ (w : State) (id : Nat) (reply : Option ReqTag),
        (w.part = .starting → recordFailure id reply w = { w with pm := { w.pm with held := w.pm.held ++ [id] } })
          ∧ (w.part ≠ .starting → w.jc.active = false → recordFailure id reply w = w)
          ∧ (w.part ≠ .starting → w.journalOpen →
              (recordFailure id reply w).jc = (w.withRecord .pm (.member id .failed) reply).jc))
    ∧ (∀ (w : State) (p : Cmd → Bool),
        endCommands p w = serveCommands ((w.entriesWhere p).foldl (fun t e => endEntry e t) w))
    ∧ (∀ (w : State) (c : Cmd),
        let fault : FaultOffer :=
          { kind := .driveNoDevice, member := some c.member, dbn := some c.dbn, lane := c.owner.lane?,
            slab := c.context.map Prod.fst, row := c.context.map Prod.snd, storeBlock := none }
        (∀ e, (w.ring e).cmd = some c →
            let r := w.ring e
            endEntry e w = State.offerFault fault { w with
              agenda := w.agenda ++ [.completed ⟨c, .noDevice, 0, r.mismatch, w.labelRead c⟩],
              dp := { w.dp with
                ring := tableWrite (RingEntry.free 0) w.dp.ring e (RingEntry.free r.generation),
                freeOrder := w.dp.freeOrder ++ [e],
                labelFree := (match c.pages with
                  | .label (some p) => w.dp.labelFree ++ [p]
                  | _ => w.dp.labelFree),
                sent := w.dp.sent ++ [.cancel e r.generation] } })
          ∧ (∀ n positions, c.owner = .lane n → c.pages = .staging positions → w.dp.flush = .answered →
              (w.member c.member).state = .failed →
              handOver c w = State.offerFault fault
                { w with agenda := w.agenda ++ [.completed ⟨c, .noDevice, 0, false, none⟩] }))
    ∧ (∀ (u : State) (k : Nat) (now : SetState), handle (.setChanged k now) u =
        laneSetChanged k now 3 (laneSetChanged k now 2 (laneSetChanged k now 1 (laneSetChanged k now 0 u))))
    ∧ ∀ (u : State) (k : Nat) (now : SetState) (n : Nat),
      let l := u.lane n
      let told := laneSetChanged k now n u
      (l.job = none → told = u)
        ∧ (∀ j, l.job = some j → j.kind = .move →
            let home := (u.slab j.slab).home.set
            let target := l.target.map Place.set
            (target = some k → now ≠ .online → told = takeCause n .targetDegraded u)
              ∧ (target ≠ some k ∨ now = .online → home = k → now = .failed → j.salvage = false →
                  told = takeCause n .sourceFailed u)
              ∧ (target ≠ some k ∨ now = .online → home ≠ k ∨ now ≠ .failed ∨ j.salvage = true → told = u))
        ∧ (∀ j, l.job = some j → j.kind = .fill →
            let home := (u.slab j.slab).home
            (home.set ≠ k ∨ (now ≠ .failed ∧ now ≠ .degraded) → told = u)
              ∧ (home.set = k → now = .failed → l.state = .finishing → told = u)
              ∧ (home.set = k → now = .failed → l.state ≠ .finishing → l.target = none → (u.slot home).state = .home →
                  told.lane n = Lane.idle ∧ told.me.jobs = j :: u.me.jobs ∧ told.pm.slabs = u.pm.slabs
                    ∧ told.slot home = { u.slot home with lane := none }
                    ∧ (∀ q, slotKey q ≠ slotKey home → told.slot q = u.slot q) ∧ told.pm.members = u.pm.members
                    ∧ (tableWf (RingEntry.free 0) u.dp.ring = true →
                        told.entriesWhere (fun c => decide (c.owner = .lane n)) = [])
                    ∧ (∀ c ∈ told.dp.waiting, c.owner ≠ .lane n) ∧ n ∉ told.me.tokenOrder
                    ∧ n ∉ told.sp.recoveryWait ∧ (∀ e ∈ told.sp.waiting, e.1 ≠ n)
                    ∧ (u.sp.waiting = [] → told.sp.free = l.pages.foldr insertRising u.sp.free)
                    ∧ (∀ e ∈ told.jc.roomWait, e.1 ≠ .lane n) ∧ told.jc.queue = u.jc.queue
                    ∧ (u.dp.waiting = [] → u.dp.labelWait = [] → told.mp = u.mp))
              ∧ (home.set = k → now = .degraded → l.writes = false → told = u)
              ∧ (home.set = k → now = .degraded → l.writes = true → l.broken = false →
                  let failed (c : Cmd) : Bool :=
                    decide (c.owner = .lane n ∧ c.use ≠ .skipped ∧ (u.member c.member).state = .failed)
                  let left := l.commands - (u.dp.waiting.filter failed).length
                  let rest := l.work.unsettled.filter (fun p => (u.member (u.positionMember l p)).state ≠ .failed)
                  let skipped : State :=
                    { u.setLane n { l with commands := left, work := { l.work with unsettled := rest } } with
                      dp := { u.dp with
                        waiting := u.dp.waiting.map (fun c => if failed c then { c with use := .skipped } else c) } }
                  told = if l.work.again then (if left = 0 then skipped.post (.rowAgain n) else skipped)
                    else if rest = [] then skipped.post (.commitCheck n) else skipped))

/-- DEFINE_SET: refused by the first failing check of R39, in its three stages; a request that passes makes the entry PENDING with the
requested fields, the R and N of R6, every slot FREE and the free count N, and queues SET_DEFINE (R40). That every slot is FREE is
stated where the UNUSED entry names no slot that is not. -/
def Obligations.SetDefined : Prop :=
  ∀ (s : State) (tag : ReqTag) (p : List Byte), s.serves .defineSet tag p → s.part = .ready →
    let f := defineFields p
    let w := f.positions.length
    let rows := (s.slabBlocks + (w - 1) * f.unit - 1) / ((w - 1) * f.unit)
    let slots := min 1024 (f.bandLength / (rows * f.unit))
    let refused (r : Result) := exec (.defineSet tag) s = .next (s.answer tag r .empty)
    let form : Prop := f.set < 64 ∧ (f.unit = 16 ∨ f.unit = 32 ∨ f.unit = 64) ∧ 1 ≤ f.bandLength ∧ 3 ≤ w ∧ w ≤ 16
      ∧ (f.positions.map Position.member).Nodup ∧ ∀ q ∈ f.positions, 2048 ≤ q.start
    let entries : Prop := (s.set f.set).state = .unused
      ∧ ∀ q ∈ f.positions, (s.member q.member).state = .available ∨ (s.member q.member).state = .active
    let room : Prop := (∀ q ∈ f.positions, q.start + f.bandLength ≤ (s.member q.member).capacity)
      ∧ (∀ q ∈ f.positions, ∀ b ∈ (s.member q.member).bands,
          b.start + (s.set b.set).bandLength ≤ q.start ∨ q.start + f.bandLength ≤ b.start)
      ∧ (∀ q ∈ f.positions, (s.member q.member).bands.length < 4) ∧ 1 ≤ slots
    (¬form → refused .badField)
      ∧ (form → ¬entries → refused .wrongState)
      ∧ (form → entries → ¬room → refused .noSpace)
      ∧ (form → entries → room → s.journalOpen →
          exec (.defineSet tag) s = .next
            (State.withRecord .pm (.setDefine f.set f.unit f.bandLength f.positions) (some tag)
              { s with
                mp := (s.markTaken tag).mp,
                pm := { s.pm with
                  sets := tableWrite SetEntry.unused s.pm.sets f.set
                    { state := .pending, width := w, unit := f.unit, bandLength := f.bandLength,
                      positions := f.positions, rows := rows, slots := slots, freeCount := slots, failedCount := 0,
                      retiring := false },
                  busy := some (.defining tag f.set) } })
            ∧ ((∀ k, k < slots → s.slot ⟨f.set, k⟩ = Slot.free) →
                ∃ t : State, exec (.defineSet tag) s = .next t ∧ (t.set f.set).state = .pending ∧ (t.set f.set).slots = slots
                  ∧ (t.set f.set).freeCount = slots ∧ ∀ k, k < slots → t.slot ⟨f.set, k⟩ = Slot.free))

/-- RETIRE_SET: refused BAD_FIELD for a set id above 63, WRONG_STATE unless the set is ONLINE, DEGRADED or FAILED with its free
count equal to N; else the set is marked retiring and SET_RETIRE is queued (R42). A retiring set is not eligible for
allocation (R25). -/
def Obligations.SetRetired : Prop :=
  ∀ (s : State) (tag : ReqTag) (p : List Byte), s.serves .retireSet tag p → s.part = .ready →
    let k := byteAt p 0
    let e := s.set k
    let retirable : Prop := (e.state = .online ∨ e.state = .degraded ∨ e.state = .failed) ∧ e.freeCount = e.slots
    (64 ≤ k → exec (.retireSet tag) s = .next (s.answer tag .badField .empty))
      ∧ (k < 64 → ¬retirable → exec (.retireSet tag) s = .next (s.answer tag .wrongState .empty))
      ∧ (k < 64 → retirable → s.journalOpen →
          ∃ t : State, exec (.retireSet tag) s = .next t
            ∧ t = State.withRecord .pm (.setRetire k) (some tag)
                { s with
                  mp := (s.markTaken tag).mp,
                  pm := { s.pm with sets := tableWrite SetEntry.unused s.pm.sets k { e with retiring := true },
                                    busy := some (.retiring tag k) } }
            ∧ t.eligible k = false)

/-- CREATE_VOLUME: refused BAD_FIELD for a volume id above 3 or a limit outside 1 to 16384, WRONG_STATE unless the entry is
UNUSED, NO_SPACE where the limits of the ONLINE volumes and the requested one exceed 16384 together; else the entry takes the
limit, the pool and, as map base, the sum of those limits, and VOLUME_CREATE is queued (R43). -/
def Obligations.VolumeCreated : Prop :=
  ∀ (s : State) (tag : ReqTag) (p : List Byte), s.serves .createVolume tag p → s.part = .ready →
    let v := byteAt p 0
    let limit := fieldAt p 2 2
    let pool := BitVec.ofNat 64 (fieldAt p 4 8)
    let base := s.limitSum
    let form : Prop := v < 4 ∧ 1 ≤ limit ∧ limit ≤ 16384
    (¬form → exec (.createVolume tag) s = .next (s.answer tag .badField .empty))
      ∧ (form → (s.volume v).state ≠ .unused →
          exec (.createVolume tag) s = .next (s.answer tag .wrongState .empty))
      ∧ (form → (s.volume v).state = .unused → 16384 < base + limit →
          exec (.createVolume tag) s = .next (s.answer tag .noSpace .empty))
      ∧ (form → (s.volume v).state = .unused → base + limit ≤ 16384 → s.journalOpen →
          exec (.createVolume tag) s = .next
            (State.withRecord .pm (.volumeCreate v base limit pool) (some tag)
              { s with
                mp := (s.markTaken tag).mp,
                pm := { s.pm with
                  volumes := tableWrite Volume.unused s.pm.volumes v ⟨.unused, base, limit, 0, 0, pool⟩,
                  busy := some (.creating tag v) } }))

/-- GROW: refused by the first failing check of R44, nothing changed; else the new pool is in force, the homes that the policy chooses
are HOME, and GROW_OPEN, one GROW_PART for each sixty placements or fewer for the last, and GROW_CLOSE with the number of parts are
queued in this order (R45), stated where the Journal Queue has room for all of them, and where it is full and the Placement Map
waits with all of them (R28, R150). The homes (R26, R45): the policy is applied once for each new slab, in ascending order, each time
to what the times before it have left; the slot chosen is HOME, owned by its slab, with count 0, and its set's free count falls by one;
where one slab finds no slot no home is taken at all, and the reply is NO_SPACE. -/
def Obligations.GrowthBegins : Prop :=
  (∀ (s : State) (tag : ReqTag) (p : List Byte), s.serves .grow tag p → s.part = .ready →
    let v := byteAt p 0
    let e := s.volume v
    let new := fieldAt p 2 2
    let pool := if p.length = 12 then BitVec.ofNat 64 (fieldAt p 4 8) else e.pool
    let slabs := (List.range (new - e.count)).map (fun i => e.base + e.count + i)
    let refused (r : Result) := exec (.grow tag) s = .next (s.answer tag r .empty)
    let inLimit : Prop := e.count < new ∧ new ≤ e.limit
    (4 ≤ v → refused .badField)
      ∧ (v < 4 → e.state ≠ .online → refused .wrongState)
      ∧ (v < 4 → e.state = .online → ¬inLimit → refused .badField)
      ∧ (v < 4 → e.state = .online → inLimit → s.freePlaces < new - e.count → refused .busy)
      ∧ (v < 4 → e.state = .online → inLimit → new - e.count ≤ s.freePlaces → growHomes pool slabs s = none →
          refused .noSpace)
      ∧ (v < 4 → e.state = .online → inLimit → new - e.count ≤ s.freePlaces → ∀ (homes : List Placement) (u : State),
          growHomes pool slabs s = some (homes, u) →
          let parts := (List.range ((new - e.count + 59) / 60)).map (fun i => (homes.drop (60 * i)).take 60)
          let records : List RecordBody := .growOpen v e.count new pool :: parts.map .growPart ++ [.growClose parts.length]
          let begun : State := { s with
            mp := (s.markTaken tag).mp,
            pm := { u.pm with
              volumes := tableWrite Volume.unused s.pm.volumes v { e with pool := pool },
              busy := some (.growing ⟨tag, v, e.count, new, e.pool, homes⟩) } }
          (s.journalOpen → s.jc.queue.length + parts.length + 2 ≤ 32 → s.jc.nextSeq + parts.length + 1 ≤ 4294967295 →
              exec (.grow tag) s = .next (records.foldl (fun t b => t.withRecord .pm b (some tag)) begun))
            ∧ (s.jc.active = true → s.jc.hasRoom = false → s.waitsForRoom .pm = false →
                exec (.grow tag) s = .next { begun with jc := { s.jc with
                  roomWait := s.jc.roomWait ++ [(.pm, records.map (fun b => ⟨b, some tag⟩))] } })))
    ∧ (∀ (pool : BitVec 64) (u : State), growHomes pool [] u = some ([], u))
    ∧ (∀ (pool : BitVec 64) (g : Nat) (rest : List Nat) (u : State),
        (u.chooseSlot pool = none → growHomes pool (g :: rest) u = none)
          ∧ (∀ q, u.chooseSlot pool = some q →
              let taken : State := { u with pm := { u.pm with
                slots := tableWrite Slot.free u.pm.slots (slotKey q) ⟨.home, 0, some g, none⟩,
                sets := tableWrite SetEntry.unused u.pm.sets q.set
                  { u.set q.set with freeCount := (u.set q.set).freeCount - 1 } } }
              (growHomes pool rest taken = none → growHomes pool (g :: rest) u = none)
                ∧ (∀ more w, growHomes pool rest taken = some (more, w) →
                    growHomes pool (g :: rest) u = some (⟨g, q⟩ :: more, w))))

/-- The allocation policy (R25): the chosen slot lies in an offered set that is ONLINE, has a free count of at least 1 and is not
retiring; no such set has a larger free count, and none with the same free count a lower id; the slot is the
lowest-numbered FREE one of the set. Taken, it moves out of FREE to HOME or TARGET for its slab, and the set's free count falls
by one. Where no set is eligible, or the chosen set has no FREE slot, there is none. -/
def Obligations.AllocationChoosesSlot : Prop :=
  ∀ (s : State) (offered : BitVec 64),
    let eligible (k : Nat) : Prop := k < 64 ∧ offered.getLsbD k = true ∧ (s.set k).state = .online
      ∧ 1 ≤ (s.set k).freeCount ∧ (s.set k).retiring = false
    (∀ q, s.chooseSlot offered = some q →
        eligible q.set ∧ q.slot < (s.set q.set).slots ∧ (s.slot q).state = .free
          ∧ (∀ k, eligible k → (s.set k).freeCount ≤ (s.set q.set).freeCount)
          ∧ (∀ k, eligible k → (s.set k).freeCount = (s.set q.set).freeCount → q.set ≤ k)
          ∧ (∀ j, j < q.slot → (s.slot ⟨q.set, j⟩).state ≠ .free)
          ∧ (∀ (state : SlotState) (g : Nat), state ≠ .free →
              (s.takeSlot q state g).slot q = ⟨state, 0, some g, none⟩
                ∧ (s.takeSlot q state g).set q.set =
                    { s.set q.set with freeCount := (s.set q.set).freeCount - 1 }))
      ∧ ((∀ k, ¬eligible k) → s.chooseSlot offered = none)
      ∧ ((∃ k, eligible k) →
          (∀ k, eligible k → ∃ j, j < (s.set k).slots ∧ (s.slot ⟨k, j⟩).state = .free) →
          ∃ q, s.chooseSlot offered = some q)

/-! ## The Move Engine's requests (R71, R72, R90 to R94, R123, R124) -/

/-- REBALANCE: refused BAD_FIELD and WRONG_STATE as R90 says; else the eligible slabs of the volume, in ascending order, are
given MOVE jobs at the tail of the list while free places remain, their marks are set, each admission is counted, and the reply
carries the numbers admitted and left out. So no slab comes to have two jobs, and no more than 1024 places are taken (R71). That a
SALVAGE byte of 2 or more is refused is the model's reading of R177 (log 31). -/
def Obligations.RebalanceAdmitsJobs : Prop :=
  ∀ (s : State) (tag : ReqTag) (p : List Byte), s.serves .rebalance tag p →
    let v := byteAt p 0
    let ids := (p.drop 2).map BitVec.toNat
    let e := s.volume v
    let form : Prop := v < 4 ∧ byteAt p 1 < 2 ∧ 1 ≤ ids.length ∧ ids.length ≤ 16 ∧ (∀ k ∈ ids, k < 64) ∧ ids.Nodup
    let moved := ((List.range e.count).map (fun k => e.base + k)).filter
      (fun g => decide ((s.slab g).state = .live) && !(s.slab g).mark && !ids.contains (s.slab g).home.set)
    let admitted := moved.take s.freePlaces
    (¬form → exec (.rebalance tag) s = .next (s.answer tag .badField .empty))
      ∧ (form → e.state ≠ .online → exec (.rebalance tag) s = .next (s.answer tag .wrongState .empty))
      ∧ (form → e.state = .online →
          ∃ t : State, exec (.rebalance tag) s = .next t
            ∧ t.me.jobs = s.me.jobs ++ admitted.map (fun g =>
                { kind := .move, slab := g, candidates := poolOf ids, salvage := decide (byteAt p 1 = 1),
                  resume := none, retained := none, cause := none })
            ∧ (∀ g ∈ admitted, t.slab g = { s.slab g with mark := true })
            ∧ (∀ g, g ∉ admitted → t.slab g = s.slab g)
            ∧ t.mp = (s.answer tag .ok (.rebalanced admitted.length (moved.length - admitted.length))).mp
            ∧ (admitted = [] → t.me.counters = s.me.counters)
            ∧ (admitted ≠ [] → t.me.counters = { s.me.counters with
                jobsAdmitted := min (s.me.counters.jobsAdmitted + admitted.length) 4294967295 })
            ∧ (s.jobsLawful → t.jobsLawful)
            ∧ t.me.lanes = s.me.lanes ∧ t.me.damage = s.me.damage ∧ t.pm.slots = s.pm.slots ∧ t.pm.sets = s.pm.sets
            ∧ t.pm.volumes = s.pm.volumes ∧ t.pm.members = s.pm.members
            ∧ t.gu = s.gu ∧ t.sp = s.sp ∧ t.jc = s.jc ∧ t.dp = s.dp ∧ t.sm = s.sm ∧ t.part = s.part)

/-- MOVE: refused by the first failing check of R91; else the job joins the tail of the list with the target set as its one
candidate, the slab is marked, the admission is counted, and the request is answered OK with the global slab index. So no slab comes
to have two jobs, and no more than 1024 places are taken (R71). That a SALVAGE byte of 2 or more is refused is the model's
reading of R177 (log 31). -/
def Obligations.MoveAdmitsJob : Prop :=
  ∀ (s : State) (tag : ReqTag) (p : List Byte), s.serves .move tag p →
    let v := byteAt p 0
    let target := byteAt p 1
    let e := s.volume v
    let k := fieldAt p 4 2
    let g := e.base + k
    let b := s.slab g
    let refused (r : Result) := exec (.move tag) s = .next (s.answer tag r .empty)
    let form : Prop := v < 4 ∧ target < 64 ∧ byteAt p 2 < 2
    let free : Prop := b.state ≠ .filling ∧ b.mark = false ∧ b.home.set ≠ target
    (¬form → refused .badField)
      ∧ (form → e.state ≠ .online → refused .wrongState)
      ∧ (form → e.state = .online → e.count ≤ k → refused .outOfRange)
      ∧ (form → e.state = .online → k < e.count → ¬free → refused .wrongState)
      ∧ (form → e.state = .online → k < e.count → free → s.freePlaces = 0 → refused .busy)
      ∧ (form → e.state = .online → k < e.count → free → 1 ≤ s.freePlaces →
          let t : State := State.answer tag .ok (.moved g)
            { s with
              pm := { s.pm with slabs := tableWrite Slab.unused s.pm.slabs g { b with mark := true } },
              me := { s.me with
                jobs := s.me.jobs ++ [{ kind := .move, slab := g, candidates := 1#64 <<< target,
                                        salvage := decide (byteAt p 2 = 1), resume := none, retained := none,
                                        cause := none }],
                counters := { s.me.counters with
                  jobsAdmitted := min (s.me.counters.jobsAdmitted + 1) 4294967295 } } }
          exec (.move tag) s = .next t ∧ (s.jobsLawful → t.jobsLawful))

/-- CANCEL_JOB: refused BAD_FIELD, WRONG_STATE, OUT_OF_RANGE and NOT_FOUND as R92 says; a FILL job, waiting or in a lane, is refused
WRONG_STATE; a waiting MOVE job without a retained target leaves the list, its slab's mark is cleared, and the reply is OK, with
JOBS_IDLE where that leaves no job and every lane IDLE (R94; that it stands behind the reply is the model's choice, log 30); one with
a retained target and no cause takes cause CANCELLED; one with a cause is refused WRONG_STATE. A MOVE job in a lane is refused
WRONG_STATE where the lane is in FINISHING or ABORTING, or in CLAIMING with a cause; else the lane takes cause CANCELLED and the reply
is OK at once (R92). The lane's abort (R84, R85): in CLAIMING with JOB_BEGIN queued the cause is kept for its durability, and before
that the claim is abandoned and the job removed (R76; the row of the IDLE lane is 0: the model's choice, log 62); in any other state
the lane is ABORTING with the cause, its pages, commands and watch given up; a lockout in force is released, and the slab's deferred
MAPs are to be evaluated anew (R66); the recovery set passes to the lane at the head of its wait list where this lane held it, and
else this lane leaves that list (R111); it leaves the token order and the page wait list; its FRONT that waits for room is dropped;
and JOB_ABORT is queued, or waits for room, or in FROZEN is not made. -/
def Obligations.JobCancelled : Prop :=
  (∀ (s : State) (tag : ReqTag) (p : List Byte), s.serves .cancelJob tag p →
    let v := byteAt p 0
    let e := s.volume v
    let k := fieldAt p 2 2
    let g := e.base + k
    let refused (r : Result) := exec (.cancelJob tag) s = .next (s.answer tag r .empty)
    (4 ≤ v → refused .badField)
      ∧ (v < 4 → e.state ≠ .online → refused .wrongState)
      ∧ (v < 4 → e.state = .online → e.count ≤ k → refused .outOfRange)
      ∧ (v < 4 → e.state = .online → k < e.count → (s.slab g).mark = false → refused .notFound)
      ∧ (v < 4 → e.state = .online → k < e.count → (s.slab g).mark = true →
          ∀ j, s.me.jobs.find? (fun j => j.slab = g) = some j →
          (j.kind = .fill → refused .wrongState)
            ∧ (j.kind = .move → j.retained = none →
                let t : State := State.answer tag .ok .empty
                  { s with
                    me := { s.me with jobs := removeFirst j s.me.jobs },
                    pm := { s.pm with slabs := tableWrite Slab.unused s.pm.slabs g { s.slab g with mark := false } } }
                let ends : Prop := removeFirst j s.me.jobs = [] ∧ ∀ n < 4, (s.lane n).state = .idle
                (ends → exec (.cancelJob tag) s = .next (t.offerNotice .jobsIdle))
                  ∧ (¬ends → exec (.cancelJob tag) s = .next t))
            ∧ (j.kind = .move → j.retained ≠ none → j.cause ≠ none → refused .wrongState)
            ∧ (j.kind = .move → j.retained ≠ none → j.cause = none →
                ∃ t : State, exec (.cancelJob tag) s = .next t
                  ∧ t.me.jobs = s.me.jobs.map (fun i =>
                      if i.slab = g ∧ i.retained.isSome = true ∧ i.cause = none then { i with cause := some .cancelled }
                      else i)
                  ∧ t.pm = s.pm ∧ t.mp = (s.answer tag .ok .empty).mp))
      ∧ (v < 4 → e.state = .online → k < e.count → (s.slab g).mark = true → (∀ j ∈ s.me.jobs, j.slab ≠ g) →
          (s.laneOf g = none → refused .notFound)
            ∧ (∀ n j, s.laneOf g = some n → (s.lane n).job = some j →
                let l := s.lane n
                let ends : Prop := l.state = .finishing ∨ l.state = .aborting ∨ (l.state = .claiming ∧ l.cause ≠ none)
                (j.kind = .fill → refused .wrongState)
                  ∧ (j.kind = .move → ends → refused .wrongState)
                  ∧ (j.kind = .move → ¬ends → l.state ≠ .idle → exec (.cancelJob tag) s = .next (finish s
                      (takeCause n .cancelled (s.answer tag .ok .empty))))
                  ∧ (j.kind = .move → l.state = .claiming → l.cause = none → l.beginQueued = true →
                      exec (.cancelJob tag) s = .next (State.answer tag .ok .empty
                        (s.setLane n { l with cause := some .cancelled }))))))
    ∧ ∀ (u : State) (n : Nat) (cause : AbortCause),
      let l := u.lane n
      let told := takeCause n cause u
      let given : Lane := { l with
        state := .aborting, cause := some cause, commands := 0, pages := [], watch := none, lockout := false,
        backoffEnd := none, work := RowWork.none }
      (l.state = .idle ∨ l.state = .finishing ∨ l.state = .aborting → told = u)
        ∧ (l.state = .claiming → l.cause ≠ none → told = u)
        ∧ (l.state = .claiming → l.cause = none → l.beginQueued = true → told = u.setLane n { l with cause := some cause })
        ∧ (∀ j place, l.state = .claiming → l.cause = none → l.beginQueued = false → l.job = some j → l.target = some place →
            l.pages = [] →
            let home := (u.slab j.slab).home
            slotKey place ≠ slotKey home → (u.slot place).state = .target → (u.slot place).refs = 0 →
            (u.slot home).state = .home →
            told.lane n = Lane.idle ∧ told.slot place = Slot.free ∧ told.slot home = { u.slot home with lane := none }
              ∧ told.set place.set = { u.set place.set with freeCount := (u.set place.set).freeCount + 1 }
              ∧ told.me.jobs = u.me.jobs ∧ told.slab j.slab = { u.slab j.slab with mark := false }
              ∧ told.mp = (u.offerNotice (.jobAborted (u.slab j.slab).volume
                  (j.slab - (u.volume (u.slab j.slab).volume).base) j.slab j.kind cause 0)).mp)
        ∧ (l.state ≠ .idle → l.state ≠ .finishing → l.state ≠ .aborting → l.state ≠ .claiming →
            told.lane n = given
              ∧ (tableWf (RingEntry.free 0) u.dp.ring = true → told.entriesWhere (fun c => decide (c.owner = .lane n)) = [])
              ∧ (∀ c ∈ told.dp.waiting, c.owner ≠ .lane n) ∧ n ∉ told.me.tokenOrder
              ∧ n ∉ told.sp.recoveryWait
              ∧ (u.sp.holder ≠ some n → told.sp.holder = u.sp.holder
                  ∧ told.sp.recoveryWait = u.sp.recoveryWait.filter (fun k => k ≠ n))
              ∧ (u.sp.holder = some n → u.sp.recoveryWait = [] → told.sp.holder = none ∧ told.sp.recoveryWait = [])
              ∧ (∀ m rest, u.sp.holder = some n → u.sp.recoveryWait = m :: rest → told.sp.holder = some m
                  ∧ told.sp.recoveryWait = rest.filter (fun k => k ≠ n) ∧ .recoveryGranted m ∈ told.agenda)
              ∧ (n ∉ u.sp.recoveryWait → told.sp.holder ≠ some n)
              ∧ (l.lockout = true → .reevaluate l.slab ∈ told.agenda)
              ∧ (∀ g, .reevaluate g ∈ told.agenda → .reevaluate g ∈ u.agenda ∨ (l.lockout = true ∧ g = l.slab))
              ∧ (∀ e ∈ told.jc.roomWait, e.1 = .lane n → ∀ w ∈ e.2, ∀ g value, w.body ≠ .front g value)
              ∧ (u.jc.active = true → u.jc.hasRoom = false → told.jc.queue = u.jc.queue
                  ∧ ∃ e ∈ told.jc.roomWait, e.1 = .lane n ∧ ⟨.jobAbort l.slab, none⟩ ∈ e.2)
              ∧ (u.jc.active = false → told.jc.queue = u.jc.queue
                  ∧ ∀ e ∈ told.jc.roomWait, ∃ e' ∈ u.jc.roomWait, e.1 = e'.1 ∧ ∀ w ∈ e.2, w ∈ e'.2)
              ∧ (∀ e ∈ told.sp.waiting, e.1 ≠ n)
              ∧ (u.sp.waiting = [] → told.sp.free = l.pages.foldr insertRising u.sp.free)
              ∧ told.me.jobs = u.me.jobs ∧ told.pm = u.pm ∧ told.gu = u.gu ∧ told.part = u.part
              ∧ (u.journalOpen → told.jc.queue = u.jc.queue
                  ++ [⟨u.jc.nextSeq, .jobAbort l.slab, .lane n, none⟩] ∧ told.jc.nextSeq = u.jc.nextSeq + 1))

/-- PAUSE_JOBS turns the pause mode on and is answered OK: a lane in WAIT_PAGES, WAIT_TOKEN or BACKOFF without a lockout is PAUSED, gives
back the pages that it holds, and leaves the page wait list and the token order; every other lane goes on (R93, R110). Lanes are told
in ascending order (the model's choice, log 37). Stated for the whole part with no lockout standing, whatever pages the lanes hold and
whatever lane waits for pages; and for each lane alone, with the pages that it gives back going to the head of the page wait list
where they suffice (R109). RESUME_JOBS turns the mode off and is answered OK: each PAUSED lane asks for the pages of its row, in
ascending order (log 37), and none else changes; stated also for one PAUSED lane with nothing left over, which is on the page wait
list where its pages are not at hand, and where they are, and no token, waits for its token with them (R81, R93, R109). That these are
the lowest-numbered free pages is the model's choice (log 11). -/
def Obligations.JobsPausedAndResumed : Prop :=
  (∀ (s : State) (tag : ReqTag) (p : List Byte),
    (s.serves .pauseJobs tag p → s.sp.waiting = [] → (∀ n, (s.lane n).pages = []) →
        ∃ t : State, exec (.pauseJobs tag) s = .next t
          ∧ t.me.paused = true
          ∧ (∀ n < 4, t.lane n =
              if ((s.lane n).state = .waitPages ∨ (s.lane n).state = .waitToken ∨ (s.lane n).state = .backoff)
                  ∧ (s.lane n).lockout = false then
                { s.lane n with state := .paused, backoffEnd := none }
              else s.lane n)
          ∧ t.me.jobs = s.me.jobs ∧ t.sp = s.sp ∧ t.pm = s.pm ∧ t.gu = s.gu ∧ t.jc = s.jc
          ∧ t.mp = (s.answer tag .ok .empty).mp)
      ∧ (s.serves .pauseJobs tag p → (s.sp.free ++ pagesHeld s.me.lanes).Nodup → tableWf Lane.idle s.me.lanes = true →
          (∀ n < 4, (s.lane n).lockout = false) → (∀ e ∈ s.sp.waiting, e.1 < 4 ∧ (s.lane e.1).state = .waitPages) →
          let stops (n : Nat) : Prop :=
            (s.lane n).state = .waitPages ∨ (s.lane n).state = .waitToken ∨ (s.lane n).state = .backoff
          ∃ t : State, exec (.pauseJobs tag) s = .next t
            ∧ t.me.paused = true
            ∧ (∀ n < 4, stops n → t.lane n = { s.lane n with state := .paused, backoffEnd := none, pages := [] })
            ∧ (∀ n < 4, ¬stops n → t.lane n = s.lane n)
            ∧ (∀ k, k ∈ t.sp.free ↔ k ∈ s.sp.free ∨ ∃ n < 4, stops n ∧ k ∈ (s.lane n).pages)
            ∧ t.sp.waiting = [] ∧ t.me.tokenOrder = s.me.tokenOrder.filter
                (fun n => !(decide (n < 4) && decide ((s.lane n).state = .waitPages ∨ (s.lane n).state = .waitToken
                  ∨ (s.lane n).state = .backoff)))
            ∧ t.sp.memory = s.sp.memory ∧ t.sp.holder = s.sp.holder ∧ t.sp.recoveryWait = s.sp.recoveryWait
            ∧ t.me.jobs = s.me.jobs ∧ t.me.tokens = s.me.tokens ∧ t.me.counters = s.me.counters ∧ t.me.damage = s.me.damage
            ∧ t.pm = s.pm ∧ t.gu = s.gu ∧ t.dp = s.dp ∧ t.jc = s.jc ∧ t.sm = s.sm
            ∧ t.mp = (s.answer tag .ok .empty).mp)
      ∧ (s.serves .pauseJobs tag p → exec (.pauseJobs tag) s = .next (finish s (State.answer tag .ok .empty
          (pauseLane 3 (pauseLane 2 (pauseLane 1 (pauseLane 0 { s with me := { s.me with paused := true } })))))))
      ∧ (s.serves .resumeJobs tag p → exec (.resumeJobs tag) s = .next (finish s (State.answer tag .ok .empty
          (resumeLane 3 (resumeLane 2 (resumeLane 1 (resumeLane 0 { s with me := { s.me with paused := false } })))))))
      ∧ (s.serves .resumeJobs tag p → (∀ n < 4, (s.lane n).state ≠ .paused) →
          exec (.resumeJobs tag) s = .next
            (State.answer tag .ok .empty { s with me := { s.me with paused := false } }))
      ∧ (s.serves .resumeJobs tag p → ∀ n < 4, (s.lane n).state = .paused → (s.lane n).pages = [] →
          (∀ m < 4, m ≠ n → (s.lane m).state ≠ .paused) → s.waitsForRoom (.lane n) = false → s.onPageList n = false →
          let count := rowPages (s.rowSet (s.lane n))
          ((s.sp.waiting ≠ [] ∨ s.sp.free.length < count) →
              ∃ t : State, exec (.resumeJobs tag) s = .next t
                ∧ t.me.paused = false ∧ (t.lane n).state = .waitPages ∧ (t.lane n).row = (s.lane n).row
                ∧ (∀ m, m ≠ n → t.lane m = s.lane m)
                ∧ t.sp = { s.sp with waiting := s.sp.waiting ++ [(n, rowPages (s.rowSet (s.lane n)))] }
                ∧ t.mp = (s.answer tag .ok .empty).mp)
            ∧ (s.sp.waiting = [] → count ≤ s.sp.free.length → 1 ≤ count → s.me.moveRate ≠ 0 →
                (s.me.tokens = 0 ∨ s.me.tokenOrder ≠ []) →
                ∃ t : State, exec (.resumeJobs tag) s = .next t
                  ∧ t.me.paused = false
                  ∧ t.lane n = { s.lane n with
                      state := .waitToken, pages := s.sp.free.take count, work := RowWork.none, backoffEnd := none }
                  ∧ (∀ m, m ≠ n → t.lane m = s.lane m)
                  ∧ t.sp = { s.sp with free := s.sp.free.drop count }
                  ∧ t.me.tokenOrder = s.me.tokenOrder ++ [n] ∧ t.me.tokens = s.me.tokens
                  ∧ t.mp = (s.answer tag .ok .empty).mp)))
    ∧ (∀ (s : State) (n : Nat),
        let l := s.lane n
        let free := l.pages.foldr insertRising s.sp.free
        let paused (t : State) (waiting : List (Nat × Nat)) : Prop :=
          t.lane n = { l with state := .paused, backoffEnd := none, pages := [] }
            ∧ t.me.tokenOrder = s.me.tokenOrder.filter (fun k => k ≠ n) ∧ t.sp.waiting = waiting
        let stops : Prop := (l.state = .waitPages ∨ l.state = .waitToken ∨ l.state = .backoff) ∧ l.lockout = false
        let others := s.sp.waiting.filter (fun e => e.1 ≠ n)
        (¬stops → pauseLane n s = s)
          ∧ (stops → others = [] → paused (pauseLane n s) [] ∧ (pauseLane n s).sp.free = free
              ∧ (∀ m, m ≠ n → (pauseLane n s).lane m = s.lane m) ∧ (pauseLane n s).agenda = s.agenda)
          ∧ (∀ m count, stops → others = [(m, count)] → (s.lane m).state = .waitPages → s.sp.free.length < count →
              count ≤ free.length → paused (pauseLane n s) []
                ∧ (pauseLane n s).sp.free = free.drop count
                ∧ (pauseLane n s).lane m = { s.lane m with pages := (s.lane m).pages ++ free.take count }
                ∧ (pauseLane n s).agenda = s.agenda ++ [.pagesGranted m])
          ∧ (l.state ≠ .paused → resumeLane n s = s) ∧ (l.state = .paused → resumeLane n s = startAttempt n s))

/-- DAMAGE_READ: refused BAD_FIELD for a start index above 1023 or a maximum count outside 1 to 64; else answered with the number
of entries, the LOST flag, the damage overflow counter and the entries from the start index on, as many as asked for and
present (R123). DAMAGE_CLEAR: refused BAD_FIELD for a volume id above 3 or a count of 0, JOURNAL_DOWN in FROZEN, NO_SPACE where it
would split an entry of a full list; answered OK at once where no entry overlaps; else its record is queued (R124). -/
def Obligations.DamageRequests : Prop :=
  ∀ (s : State) (tag : ReqTag) (p : List Byte),
    (s.serves .damageRead tag p →
        let start := fieldAt p 0 2
        let count := byteAt p 2
        (1024 ≤ start ∨ count = 0 ∨ 64 < count → exec (.damageRead tag) s = .next (s.answer tag .badField .empty))
          ∧ (start < 1024 → 1 ≤ count → count ≤ 64 →
              exec (.damageRead tag) s = .next (s.answer tag .ok
                (.damageList s.me.damage.length s.me.lost s.me.counters.damageOverflow
                  ((s.me.damage.drop start).take count)))))
      ∧ (s.serves .damageClear tag p →
          let v := byteAt p 0
          let first := fieldAt p 4 8
          let count := fieldAt p 12 4
          let overlapping := s.me.damage.filter
            (fun d => d.volume = v ∧ d.first < first + count ∧ first < d.first + d.count)
          let split := s.me.damage.filter (fun d => d.volume = v ∧ d.first < first ∧ first + count < d.first + d.count)
          (4 ≤ v ∨ count = 0 → exec (.damageClear tag) s = .next (s.answer tag .badField .empty))
            ∧ (v < 4 → 1 ≤ count → s.part = .frozen →
                exec (.damageClear tag) s = .next (s.answer tag .journalDown .empty))
            ∧ (v < 4 → 1 ≤ count → s.part = .ready →
                (split ≠ [] → 1024 ≤ s.me.damage.length →
                    exec (.damageClear tag) s = .next (s.answer tag .noSpace .empty))
                  ∧ (overlapping = [] → exec (.damageClear tag) s = .next (s.answer tag .ok .empty))
                  ∧ (overlapping ≠ [] → (split = [] ∨ s.me.damage.length < 1024) → s.journalOpen →
                      ∃ t : State, exec (.damageClear tag) s = .next t
                        ∧ t.me.damage = damageRemove v first count s.me.damage
                        ∧ t.mp = (s.markTaken tag).mp
                        ∧ t.jc = (s.withRecord .me (.damageClear v first count) (some tag)).jc
                        ∧ t.pm = s.pm ∧ t.gu = s.gu ∧ t.me.jobs = s.me.jobs)))

/-! ## The lanes' own events (R74 to R77, R81, R99, R100) -/

/-- LANE_CLAIM: a lane not IDLE, a part not READY, a pause mode on, or no waiting job: no claim (R74; that nothing changes then is the
model's choice, log 1). Else the list is examined from its head, by `claimScan`, whose clauses hold at every job and every list `kept`
of jobs passed over. A FILL job whose home set is not FAILED is claimed: its home is held, and the lane waits for its row's pages, or
takes them and waits for a token, or starts its row with one, or at MOVE_RATE 0 without (R77, R81, R109). With the home set FAILED it
is passed over where the volume's pool gives no slot, and else re-placed: new home, old home FREE, fronts 0, no resume front, REPLACE
queued, and the page request only once that is in the queue (R77). A MOVE job without a retained target is removed, its place and mark
given up, with SOURCE_FAILED or NO_TARGET (R74), also where no other job waits (the model's reading, log 25). With a target it goes to
CLAIMING, that slot TARGET and held: JOB_BEGIN is queued at once, or after the home-only write holds (R75, R76). A restart job with a
retained target takes the first case of R78's table: ABORTING with the job's cause, with TARGET_DEGRADED or with SOURCE_FAILED (what
`takeCause` does is in JobCancelled), or its rows from the resume front. A lane whose resume front is already R is FINISHING at once,
JOB_END queued (the model's reading, log 47). An attempt (R79): the lane asks for the row's pages, behind those who wait, or takes the
lowest free ones (the lowest: the model's choice, log 11); with a record of its own waiting for room it does not ask yet (R77, R80).
No claim gives a slab two jobs or takes more than 1024 places (R71). -/
def Obligations.LaneClaims : Prop :=
  (∀ (s : State) (n : Nat), s.quiet → n < 4 →
    let may : Prop := (s.lane n).state = .idle ∧ s.part = .ready ∧ s.me.paused = false
    let claimed : MoveCounters := { s.me.counters with claims := min (s.me.counters.claims + 1) 4294967295 }
    (¬may → exec (.laneClaim n) s = .next s)
      ∧ (s.me.jobs = [] → exec (.laneClaim n) s = .next s)
      ∧ (may → (s.lane n).job = none → exec (.laneClaim n) s = .next (finish s (claimScan n [] s.me.jobs s))
          ∧ (s.jobsLawful → (claimScan n [] s.me.jobs s).jobsLawful))
      ∧ (may → ∀ (j : Job) (rest : List Job), s.me.jobs = j :: rest →
          let b := s.slab j.slab
          let pages := (s.set b.home.set).width * ((s.set b.home.set).unit / 16)
          (j.kind = .fill → (s.set b.home.set).state ≠ .failed → b.front ≠ (s.set b.home.set).rows →
              s.waitsForRoom (.lane n) = false →
              s.onPageList n = false → (s.sp.waiting ≠ [] ∨ s.sp.free.length < pages) →
              ∃ t : State, exec (.laneClaim n) s = .next t
                ∧ t.lane n = { Lane.idle with state := .waitPages, job := some j, row := b.front }
                ∧ (∀ m, m ≠ n → t.lane m = s.lane m)
                ∧ t.me.jobs = rest ∧ t.me.counters = claimed
                ∧ t.slot b.home = { s.slot b.home with lane := some n }
                ∧ (∀ q, slotKey q ≠ slotKey b.home → t.slot q = s.slot q)
                ∧ t.sp = { s.sp with waiting := s.sp.waiting ++ [(n, pages)] }
                ∧ t.pm.slabs = s.pm.slabs ∧ t.pm.sets = s.pm.sets ∧ t.pm.members = s.pm.members
                ∧ t.mp = s.mp ∧ t.gu = s.gu ∧ t.dp = s.dp ∧ t.jc = s.jc)
            ∧ (j.kind = .fill → (s.set b.home.set).state ≠ .failed → b.front ≠ (s.set b.home.set).rows →
                s.waitsForRoom (.lane n) = false →
                s.onPageList n = false → s.sp.waiting = [] → 1 ≤ pages → pages ≤ s.sp.free.length → s.me.moveRate ≠ 0 →
                (s.me.tokens = 0 ∨ s.me.tokenOrder ≠ []) →
                ∃ t : State, exec (.laneClaim n) s = .next t
                  ∧ t.lane n = { Lane.idle with
                      state := .waitToken, job := some j, row := b.front, pages := s.sp.free.take pages }
                  ∧ (∀ m, m ≠ n → t.lane m = s.lane m)
                  ∧ t.me.jobs = rest ∧ t.me.counters = claimed
                  ∧ t.me.tokenOrder = s.me.tokenOrder ++ [n] ∧ t.me.tokens = s.me.tokens
                  ∧ t.slot b.home = { s.slot b.home with lane := some n }
                  ∧ (∀ q, slotKey q ≠ slotKey b.home → t.slot q = s.slot q)
                  ∧ t.sp = { s.sp with free := s.sp.free.drop pages }
                  ∧ t.pm.slabs = s.pm.slabs ∧ t.pm.sets = s.pm.sets ∧ t.pm.members = s.pm.members
                  ∧ t.mp = s.mp ∧ t.gu = s.gu ∧ t.dp = s.dp ∧ t.jc = s.jc)
            ∧ (j.kind = .fill → (s.set b.home.set).state ≠ .failed → b.front ≠ (s.set b.home.set).rows →
                s.waitsForRoom (.lane n) = false → s.onPageList n = false → s.sp.waiting = [] → 1 ≤ pages →
                pages ≤ s.sp.free.length → n ∉ s.me.tokenOrder →
                (s.me.moveRate = 0 ∨ (0 < s.me.tokens ∧ s.me.tokenOrder = [])) →
                ∃ w : State,
                  exec (.laneClaim n) s = .next (closeStep s (offerIdle s (settle 999998 (handle (.rowStart n) w))))
                  ∧ handle (.rowStart n) w = issueWrites n (stageFill n w)
                  ∧ w.lane n = { Lane.idle with
                      state := .waitToken, job := some j, row := b.front, pages := s.sp.free.take pages }
                  ∧ (∀ m, m ≠ n → w.lane m = s.lane m)
                  ∧ w.me.jobs = rest ∧ w.me.counters = claimed ∧ w.me.tokenOrder = s.me.tokenOrder
                  ∧ w.me.tokens = (if s.me.moveRate = 0 then s.me.tokens else s.me.tokens - 1)
                  ∧ w.slot b.home = { s.slot b.home with lane := some n }
                  ∧ (∀ q, slotKey q ≠ slotKey b.home → w.slot q = s.slot q)
                  ∧ w.sp = { s.sp with free := s.sp.free.drop pages }
                  ∧ w.pm.slabs = s.pm.slabs ∧ w.pm.sets = s.pm.sets ∧ w.pm.members = s.pm.members
                  ∧ w.mp = s.mp ∧ w.gu = s.gu ∧ w.dp = s.dp ∧ w.jc = s.jc ∧ w.agenda = [])
            ∧ (j.kind = .fill → (s.set b.home.set).state ≠ .failed → b.front = (s.set b.home.set).rows → s.journalOpen →
                ∃ t : State, exec (.laneClaim n) s = .next t
                  ∧ t.lane n = { Lane.idle with state := .finishing, job := some j, row := b.front }
                  ∧ (∀ m, m ≠ n → t.lane m = s.lane m)
                  ∧ t.me.jobs = rest ∧ t.me.counters = claimed
                  ∧ t.slot b.home = { s.slot b.home with lane := some n }
                  ∧ (∀ q, slotKey q ≠ slotKey b.home → t.slot q = s.slot q)
                  ∧ t.pm.slabs = s.pm.slabs ∧ t.pm.sets = s.pm.sets ∧ t.pm.members = s.pm.members
                  ∧ t.sp = s.sp ∧ t.mp = s.mp ∧ t.gu = s.gu ∧ t.dp = s.dp
                  ∧ t.jc = (s.withRecord (.lane n) (.jobEnd j.slab .fill) none).jc)
            ∧ (j.kind = .move → j.retained = none →
                ((s.set b.home.set).state ≠ .failed ∨ j.salvage = true) →
                (∀ q : Place, s.chooseSlot (s.candidates j) = some q → slotKey q ≠ slotKey b.home →
                    let held (begun : Bool) : Lane :=
                      { Lane.idle with state := .claiming, job := some j, target := some q, row := b.front,
                                       awaitedHolds := s.homeOnlyWrites j.slab, beginQueued := begun }
                    let common (t : State) : Prop :=
                      (∀ m, m ≠ n → t.lane m = s.lane m) ∧ t.me.jobs = rest ∧ t.me.counters = claimed
                        ∧ t.slot q = ⟨.target, 0, some j.slab, some n⟩
                        ∧ t.slot b.home = { s.slot b.home with lane := some n }
                        ∧ (∀ q', slotKey q' ≠ slotKey q → slotKey q' ≠ slotKey b.home → t.slot q' = s.slot q')
                        ∧ t.set q.set = { s.set q.set with freeCount := (s.set q.set).freeCount - 1 }
                        ∧ (∀ k, k ≠ q.set → t.set k = s.set k)
                        ∧ t.pm.slabs = s.pm.slabs ∧ t.sp = s.sp ∧ t.mp = s.mp ∧ t.gu = s.gu ∧ t.dp = s.dp
                    (0 < s.homeOnlyWrites j.slab →
                        ∃ t : State, exec (.laneClaim n) s = .next t ∧ t.lane n = held false ∧ common t ∧ t.jc = s.jc)
                      ∧ (s.homeOnlyWrites j.slab = 0 → s.journalOpen →
                          ∃ t : State, exec (.laneClaim n) s = .next t ∧ t.lane n = held true ∧ common t
                            ∧ t.jc = (s.withRecord (.lane n) (.jobBegin j.slab q j.salvage) none).jc))
                  ∧ (s.chooseSlot (s.candidates j) = none → rest = [] → (∃ m < 4, (s.lane m).state ≠ .idle) →
                      exec (.laneClaim n) s = .next
                        (State.offerNotice
                          (.jobAborted b.volume (j.slab - (s.volume b.volume).base) j.slab .move .noTarget 0)
                          { s with
                            me := { s.me with
                              jobs := [],
                              counters := { s.me.counters with
                                jobsRemoved := min (s.me.counters.jobsRemoved + 1) 4294967295 } },
                            pm := { s.pm with
                              slabs := tableWrite Slab.unused s.pm.slabs j.slab { b with mark := false } } })))))
    ∧ (∀ (u : State) (n : Nat) (kept : List Job), claimScan n kept [] u = { u with me := { u.me with jobs := kept } })
    ∧ (∀ (u : State) (n : Nat) (kept rest : List Job) (j : Job), n < 4 →
        let told := claimScan n kept (j :: rest) u
        let b := u.slab j.slab
        let source := (u.set b.home.set).state
        let claims : MoveCounters := { u.me.counters with claims := min (u.me.counters.claims + 1) 4294967295 }
        let removed (cause : AbortCause) : State := State.offerNotice
          (.jobAborted b.volume (j.slab - (u.volume b.volume).base) j.slab .move cause 0)
          { u with
            me := { u.me with
              counters := { u.me.counters with jobsRemoved := min (u.me.counters.jobsRemoved + 1) 4294967295 } },
            pm := { u.pm with slabs := tableWrite Slab.unused u.pm.slabs j.slab { b with mark := false } } }
        (j.kind = .fill → source = .failed → u.chooseSlot (u.volume b.volume).pool = none →
            told = claimScan n (kept ++ [j]) rest u)
          ∧ (j.kind = .move → j.retained = none → source = .failed → j.salvage = false →
              told = claimScan n kept rest (removed .sourceFailed))
          ∧ (j.kind = .move → j.retained = none → source ≠ .failed ∨ j.salvage = true →
              u.chooseSlot (u.candidates j) = none → told = claimScan n kept rest (removed .noTarget))
          ∧ (j.kind = .fill → source ≠ .failed →
              ∃ w : State, w.lane n = { Lane.idle with state := .waitPages, job := some j, row := b.front }
                ∧ (∀ m, m ≠ n → w.lane m = u.lane m)
                ∧ w.me.jobs = kept ++ rest ∧ w.me.counters = claims
                ∧ w.slot b.home = { u.slot b.home with lane := some n }
                ∧ (∀ q, slotKey q ≠ slotKey b.home → w.slot q = u.slot q)
                ∧ w.pm.sets = u.pm.sets ∧ w.pm.slabs = u.pm.slabs ∧ w.pm.members = u.pm.members ∧ w.sp = u.sp
                ∧ w.mp = u.mp ∧ w.gu = u.gu ∧ w.dp = u.dp ∧ w.jc = u.jc ∧ w.agenda = u.agenda
                ∧ (b.front ≠ (u.set b.home.set).rows → told = startAttempt n w)
                ∧ (b.front = (u.set b.home.set).rows → told = queueRecord (.lane n) (.jobEnd j.slab .fill)
                    (w.setLane n { w.lane n with state := .finishing })))
          ∧ (∀ q, j.kind = .move → j.retained = none → source ≠ .failed ∨ j.salvage = true →
              u.chooseSlot (u.candidates j) = some q → slotKey q ≠ slotKey b.home →
              ∃ w : State, w.lane n = { Lane.idle with
                  state := .claiming, job := some j, target := some q, row := b.front,
                  awaitedHolds := u.homeOnlyWrites j.slab }
                ∧ (∀ m, m ≠ n → w.lane m = u.lane m)
                ∧ w.me.jobs = kept ++ rest ∧ w.me.counters = claims
                ∧ w.slot q = ⟨.target, 0, some j.slab, some n⟩ ∧ w.slot b.home = { u.slot b.home with lane := some n }
                ∧ (∀ p, slotKey p ≠ slotKey q → slotKey p ≠ slotKey b.home → w.slot p = u.slot p)
                ∧ w.set q.set = { u.set q.set with freeCount := (u.set q.set).freeCount - 1 }
                ∧ (∀ k, k ≠ q.set → w.set k = u.set k)
                ∧ w.pm.slabs = u.pm.slabs ∧ w.pm.members = u.pm.members ∧ w.sp = u.sp
                ∧ w.mp = u.mp ∧ w.gu = u.gu ∧ w.dp = u.dp ∧ w.jc = u.jc ∧ w.agenda = u.agenda
                ∧ (0 < u.homeOnlyWrites j.slab → told = w)
                ∧ (u.homeOnlyWrites j.slab = 0 → told = queueRecord (.lane n) (.jobBegin j.slab q j.salvage) w))
          ∧ (∀ q, j.kind = .fill → source = .failed → u.chooseSlot (u.volume b.volume).pool = some q →
              slotKey q ≠ slotKey b.home → (u.slot b.home).state = .home → u.me.paused = false →
              u.waitsForRoom (.lane n) = false → u.onPageList n = false →
              let pages := (u.set q.set).width * ((u.set q.set).unit / 16)
              let lane : Lane := { Lane.idle with state := .waitPages, job := some { j with resume := none } }
              told.me.jobs = kept ++ rest ∧ told.me.counters = claims
                ∧ told.slab j.slab = { b with home := q, front := 0, persisted := 0 }
                ∧ (∀ g, g ≠ j.slab → told.slab g = u.slab g)
                ∧ told.slot q = ⟨.home, 0, some j.slab, some n⟩ ∧ told.slot b.home = Slot.free
                ∧ (∀ p, slotKey p ≠ slotKey q → slotKey p ≠ slotKey b.home → told.slot p = u.slot p)
                ∧ told.set q.set = { u.set q.set with freeCount := (u.set q.set).freeCount - 1 }
                ∧ told.set b.home.set = { u.set b.home.set with freeCount := (u.set b.home.set).freeCount + 1 }
                ∧ (∀ m, m ≠ n → told.lane m = u.lane m)
                ∧ told.pm.members = u.pm.members ∧ told.mp = u.mp ∧ told.gu = u.gu ∧ told.dp = u.dp
                ∧ (u.journalOpen → u.sp.waiting ≠ [] ∨ u.sp.free.length < pages →
                    told.lane n = lane ∧ told.sp = { u.sp with waiting := u.sp.waiting ++ [(n, pages)] }
                      ∧ told.jc = (u.withRecord (.lane n) (.replace j.slab q) none).jc)
                ∧ (u.jc.active = true → u.jc.hasRoom = false →
                    told.lane n = lane ∧ told.sp = u.sp ∧ told.agenda = u.agenda
                      ∧ told.jc = { u.jc with
                          roomWait := u.jc.roomWait ++ [(.lane n, [⟨.replace j.slab q, none⟩])] }))
          ∧ (∀ p, j.kind = .move → j.retained = some p → slotKey p ≠ slotKey b.home →
              ∃ w : State, w.lane n = { Lane.idle with state := .waitPages, job := some j, target := some p, row := b.front }
                ∧ (∀ m, m ≠ n → w.lane m = u.lane m)
                ∧ w.me.jobs = kept ++ rest ∧ w.me.counters = claims
                ∧ w.slot p = { u.slot p with lane := some n } ∧ w.slot b.home = { u.slot b.home with lane := some n }
                ∧ (∀ q, slotKey q ≠ slotKey p → slotKey q ≠ slotKey b.home → w.slot q = u.slot q)
                ∧ w.pm.sets = u.pm.sets ∧ w.pm.slabs = u.pm.slabs ∧ w.pm.members = u.pm.members ∧ w.sp = u.sp
                ∧ w.mp = u.mp ∧ w.gu = u.gu ∧ w.dp = u.dp ∧ w.jc = u.jc ∧ w.agenda = u.agenda
                ∧ (∀ c, j.cause = some c → told = takeCause n c w)
                ∧ (j.cause = none → (u.set p.set).state ≠ .online → told = takeCause n .targetDegraded w)
                ∧ (j.cause = none → (u.set p.set).state = .online → source = .failed → j.salvage = false →
                    told = takeCause n .sourceFailed w)
                ∧ (j.cause = none → (u.set p.set).state = .online → source ≠ .failed ∨ j.salvage = true →
                    (b.front ≠ (u.set p.set).rows → told = startAttempt n w)
                      ∧ (b.front = (u.set p.set).rows → told = queueRecord (.lane n) (.jobEnd j.slab .move)
                          (w.setLane n { w.lane n with state := .finishing })))))
    ∧ (∀ (r : Nat) (g n : Nat) (q : Place) (w : State),
        handle (.recordQueued ⟨r, .replace g q, .lane n, none⟩) w = askPages n { w with me := { w.me with
          counters := { w.me.counters with replacements := min (w.me.counters.replacements + 1) 4294967295 } } })
    ∧ (∀ (r g n : Nat) (q : Place) (salvage : Bool) (w : State),
        handle (.recordQueued ⟨r, .jobBegin g q salvage, .lane n, none⟩) w =
          w.setLane n { w.lane n with beginQueued := true })
    ∧ (∀ (w : State) (n : Nat), (w.lane n).state = .waitPages → (w.lane n).pages ≠ [] →
        let ready := w.setLane n { w.lane n with state := .waitToken }
        let told := handle (.pagesGranted n) w
        (w.me.moveRate = 0 → told = ready.post (.rowStart n))
          ∧ (w.me.moveRate ≠ 0 → 0 < w.me.tokens → w.me.tokenOrder = [] →
              told = { ready with me := { ready.me with tokens := w.me.tokens - 1 }, agenda := w.agenda ++ [.rowStart n] })
          ∧ (w.me.moveRate ≠ 0 → w.me.tokens = 0 ∨ w.me.tokenOrder ≠ [] →
              told = { ready with me := { ready.me with tokenOrder := w.me.tokenOrder ++ [n] } }))
    ∧ ∀ (w : State) (n : Nat), n < 4 → (w.lane n).job ≠ none → (w.lane n).pages = [] →
      let geometry := w.set ((w.lane n).target.getD (w.slab (w.lane n).slab).home).set
      let pages := geometry.width * (geometry.unit / 16)
      let tried : Lane := { w.lane n with state := .waitPages, work := RowWork.none, backoffEnd := none }
      (w.me.paused = true → (w.lane n).lockout = false →
          startAttempt n w = w.setLane n { tried with state := .paused })
        ∧ (w.me.paused = false ∨ (w.lane n).lockout = true →
            (w.waitsForRoom (.lane n) = true ∨ w.onPageList n = true → startAttempt n w = w.setLane n tried)
              ∧ (w.waitsForRoom (.lane n) = false → w.onPageList n = false →
                  (w.sp.waiting ≠ [] ∨ w.sp.free.length < pages →
                      startAttempt n w = { w.setLane n tried with
                        sp := { w.sp with waiting := w.sp.waiting ++ [(n, pages)] } })
                    ∧ (w.sp.waiting = [] → pages ≤ w.sp.free.length →
                        startAttempt n w = { w.setLane n { tried with pages := w.sp.free.take pages } with
                          sp := { w.sp with free := w.sp.free.drop pages }, agenda := w.agenda ++ [.pagesGranted n] })))

/-- RATE_WINDOW: 100 ms after a window has begun the next one begins: the token count is MOVE_RATE, whatever it was, and the
lanes that wait take one each, in the order in which they entered WAIT_TOKEN, while there are any; nothing happens before that
time, or where no window has begun (R81). That the windows go on at MOVE_RATE 0, and set the count to 0
then, is the model's choice (log 58). The delay that a broken check draws is the value of the lowest k bits of the shift
register, in ms, with k the smaller of the break count and BACKOFF_BITS (R99). BACKOFF_END: at its end the lane begins a new
attempt at its row: it waits for pages, stated where they are not at hand, or is PAUSED with the pause mode on and no lockout
(R93, R100). Before its end, and for a lane that is not in BACKOFF, nothing happens. That nothing happens where a command's
condition does not hold is the model's choice (log 1). -/
def Obligations.RateWindowAndBackoff : Prop :=
  (∀ (r : BitVec 16) (breaks bits : Nat), drawnDelay r breaks bits = r.toNat % 2 ^ (min breaks bits))
    ∧ ∀ s : State, s.quiet →
      (s.me.windowStart = none → exec .rateWindow s = .next s)
        ∧ (∀ w, s.me.windowStart = some w →
            (s.clock.now < w + 100000 → exec .rateWindow s = .next s)
              ∧ (w + 100000 ≤ s.clock.now → s.me.tokenOrder = [] ∨ s.me.moveRate = 0 →
                  exec .rateWindow s = .next
                    { s with me := { s.me with windowStart := some (w + 100000), tokens := s.me.moveRate } })
              ∧ (w + 100000 ≤ s.clock.now → s.me.tokenOrder.length ≤ 4 →
                  let t := beginWindow (w + 100000) s
                  exec .rateWindow s = .next (finish s t)
                    ∧ t.me.tokens = s.me.moveRate - min s.me.moveRate s.me.tokenOrder.length
                    ∧ t.me.tokenOrder = s.me.tokenOrder.drop s.me.moveRate
                    ∧ t.agenda = (s.me.tokenOrder.take s.me.moveRate).map Internal.rowStart))
        ∧ ∀ n : Nat,
          let l := s.lane n
          let pages := (s.rowSet l).width * ((s.rowSet l).unit / 16)
          ((l.state ≠ .backoff ∨ l.backoffEnd = none) → exec (.backoffEnd n) s = .next s)
            ∧ (∀ e, l.state = .backoff → l.backoffEnd = some e →
                (s.clock.now < e → exec (.backoffEnd n) s = .next s)
                  ∧ (e ≤ s.clock.now → s.me.paused = true → l.lockout = false →
                      ∃ t : State, exec (.backoffEnd n) s = .next t
                        ∧ t.lane n = { l with state := .paused, backoffEnd := none, work := RowWork.none }
                        ∧ (∀ m, m ≠ n → t.lane m = s.lane m)
                        ∧ { t with me := { t.me with lanes := s.me.lanes } } = s)
                  ∧ (e ≤ s.clock.now → s.me.paused = false → l.pages = [] → s.waitsForRoom (.lane n) = false →
                      s.onPageList n = false → (s.sp.waiting ≠ [] ∨ s.sp.free.length < pages) →
                      ∃ t : State, exec (.backoffEnd n) s = .next t
                        ∧ t.lane n = { l with state := .waitPages, backoffEnd := none, work := RowWork.none }
                        ∧ (∀ m, m ≠ n → t.lane m = s.lane m)
                        ∧ t.sp = { s.sp with waiting := s.sp.waiting ++ [(n, pages)] }
                        ∧ { t with me := { t.me with lanes := s.me.lanes }, sp := s.sp } = s))

/-- A row of a MOVE at its watch. A mirrored grant handed over breaks the INTACT watch of a row that its range overlaps, and leaves any
other (R51, R96). At the commit check an INTACT watch commits the row: the slab's front and the lane's row are the next row, the
persisted front stays and is at most the front (R18), the break count is 0, the watch and the lockout end, and the rows copied are
counted (R80, R98): the row's pages are free again and the page wait list is served (R79, R109, R110); its noted damage is queued for
the journal, in FROZEN taken into the list at once (R121, R122); FRONT is queued where the front is CKPT_ROWS or more ahead of the
persisted one, with no FRONT of the slab queued and not in FROZEN (R80); where the lockout ends the deferred MAPs are evaluated anew
(R66, R105); and at the last row JOB_END is queued, with which a MOVE slab is COMMITTING (R17, R82). A BROKEN one leaves the front and
the row, raises the break count, and is counted; at LOCK_AFTER breaks the lockout is set (R103), with the pause mode on the lane is
PAUSED (R93), and else it backs off for the drawn delay where that is not 0 (R99, R100). A FILL row commits whatever grants there were
(R79); after the last row the lane is FINISHING (R82, R83), else it waits for the pages of the next one, or is PAUSED (R93).
A row begins with its pages and its token (R79, R81). A MOVE sets its watch, INTACT where no LIVE write hold overlaps the row or a
lockout stands (R95, R104); BROKEN, it goes to the commit check, and INTACT it reads its source (R112): its reads take each offset of
the row that is not pad once, from the home slot's place of it (R21), to the staging position of that offset (R108). A FILL stages and
writes. With no source unit lost the row gets its pads and its parity and is written (R116, R118): one WRITE for each position, a FILL
skipping the FAILED ones (R117), of the unit that R21 puts there. Of lost units the lowest is settled first: two of one source row, or
one whose parity's member is FAILED, are poison (R115); any other is read for with the recovery set, or waits for it (R111, R114). The
reads of a reconstruction name the other data units of the source row that hold data and its parity unit, in this order (the model's
choice, log 43), and bring them to the recovery pages. When they have ended the unit is rebuilt where every one stands, and else it
and the data units found lost are poison, and the recovery set passes on (R114, R115); that the units which these reads find lost are
settled at once with the first is the model's reading (log 19). The staged contents are stated in TagCheckOutcomes. -/
def Obligations.RowsCommitOrBreak : Prop :=
  (∀ (s : State) (n : Nat) (j : Job) (w : Watch), (s.lane n).job = some j → (s.lane n).watch = some w → j.kind = .move →
    let l := s.lane n
    let geometry := s.rowSet l
    (s.laneOf j.slab = some n → ∀ first count : Nat,
        let offset := first - s.volumeSlab j.slab * s.slabBlocks
        (w.intact = true ∧ overlapsRow geometry.width geometry.unit w.row offset (offset + count - 1) = true →
            ((meetGrant j.slab first count s).lane n).watch = some { w with intact := false })
          ∧ (¬(w.intact = true ∧ overlapsRow geometry.width geometry.unit w.row offset (offset + count - 1) = true) →
              meetGrant j.slab first count s = s))
      ∧ (w.intact = true →
          let t := commitCheck n s
          (t.slab j.slab).front = l.row + 1 ∧ (t.lane n).row = l.row + 1 ∧ (t.lane n).breaks = 0
            ∧ (t.lane n).watch = none ∧ (t.lane n).lockout = false
            ∧ t.me.counters.rowsCopied = min (s.me.counters.rowsCopied + 1) 4294967295
            ∧ (t.slab j.slab).persisted = (s.slab j.slab).persisted
            ∧ ((s.slab j.slab).persisted ≤ l.row → (t.slab j.slab).persisted ≤ (t.slab j.slab).front)
            ∧ (∀ g, g ≠ j.slab → t.slab g = s.slab g)
            ∧ (l.row + 1 = geometry.rows → (t.lane n).state = .finishing)
            ∧ (l.row + 1 ≠ geometry.rows → (t.lane n).state = if s.me.paused = true then .paused else .waitPages))
      ∧ (w.intact = false →
          let t := commitCheck n s
          let delay := s.clock.lfsr.toNat % 2 ^ (min (l.breaks + 1) s.me.backoffBits)
          t.slab j.slab = s.slab j.slab ∧ (t.lane n).row = l.row ∧ (t.lane n).breaks = l.breaks + 1
            ∧ (t.lane n).watch = none
            ∧ t.me.counters.watchBreaks = min (s.me.counters.watchBreaks + 1) 4294967295
            ∧ (s.me.lockAfter ≤ l.breaks + 1 → (t.lane n).lockout = true
                ∧ t.me.counters.lockouts = min (s.me.counters.lockouts + 1) 4294967295)
            ∧ (l.breaks + 1 < s.me.lockAfter → s.me.paused = true → (t.lane n).state = .paused)
            ∧ (l.breaks + 1 < s.me.lockAfter → s.me.paused = false → delay ≠ 0 →
                (t.lane n).state = .backoff ∧ (t.lane n).backoffEnd = some (s.clock.now + delay * 1000))))
    ∧ (∀ (s : State) (n : Nat) (j : Job), (s.lane n).job = some j → (s.lane n).watch = none → j.kind = .fill →
        (s.lane n).writes = true →
        let l := s.lane n
        let t := commitCheck n s
        (t.slab j.slab).front = l.row + 1 ∧ (t.slab j.slab).persisted = (s.slab j.slab).persisted ∧ (t.lane n).row = l.row + 1
          ∧ t.me.counters.rowsCopied = s.me.counters.rowsCopied
          ∧ (l.row + 1 = (s.rowSet l).rows → (t.lane n).state = .finishing)
          ∧ (l.row + 1 ≠ (s.rowSet l).rows → (t.lane n).state = if s.me.paused = true then .paused else .waitPages))
    ∧ (∀ (s : State) (n : Nat) (j : Job), (s.lane n).job = some j →
        (j.kind = .move ∧ (∃ row, (s.lane n).watch = some ⟨row, true⟩))
          ∨ (j.kind = .fill ∧ (s.lane n).watch = none ∧ (s.lane n).writes = true) →
        let l := s.lane n
        let free := releasePages n s
        let row : State := (free.setLane n { free.lane n with
          breaks := 0, watch := none, lockout := false, row := l.row + 1, work := RowWork.none }).setSlab j.slab
            { free.slab j.slab with front := l.row + 1 }
        let counted : State := if j.kind = .move then { row with me := { row.me with counters := { row.me.counters with
            rowsCopied := min (row.me.counters.rowsCopied + 1) 4294967295 } } }
          else row
        let damaged := l.work.damage.foldl (fun t d =>
          if t.jc.state = .frozen then addDamage d t else queueRecord (.lane n) (.damageAdd d) t) counted
        let due : Prop := damaged.me.ckptRows ≤ (damaged.slab j.slab).front - (damaged.slab j.slab).persisted
          ∧ (∀ r ∈ damaged.jc.queue, ∀ value, r.body ≠ .front j.slab value) ∧ damaged.jc.state ≠ .frozen
        ∃ fronted : State, (due → fronted = queueRecord (.lane n) (.front j.slab (l.row + 1)) damaged)
          ∧ (¬due → fronted = damaged)
          ∧ (let ended := if l.lockout = true then fronted.post (.reevaluate j.slab) else fronted
            ((ended.lane n).row = (ended.rowSet (ended.lane n)).rows →
                commitCheck n s = queueRecord (.lane n) (.jobEnd j.slab j.kind)
                  (ended.setLane n { ended.lane n with state := .finishing }))
              ∧ ((ended.lane n).row ≠ (ended.rowSet (ended.lane n)).rows → commitCheck n s = startAttempt n ended)))
    ∧ (∀ (s : State) (n : Nat),
        let free := (s.lane n).pages.foldr insertRising s.sp.free
        let bare : State := { s.setLane n { s.lane n with pages := [] } with sp := { s.sp with free := free } }
        (s.sp.waiting = [] → releasePages n s = bare)
          ∧ (∀ m count rest, s.sp.waiting = (m, count) :: rest →
              (free.length < count → releasePages n s = bare)
                ∧ (count ≤ free.length → m ≠ n → (s.lane m).state = .waitPages →
                    (∀ k more rest', rest = (k, more) :: rest' → free.length - count < more) →
                    releasePages n s = { bare.setLane m { s.lane m with pages := (s.lane m).pages ++ free.take count } with
                      sp := { s.sp with free := free.drop count, waiting := rest },
                      agenda := s.agenda ++ [.pagesGranted m] })))
    ∧ (∀ (u : State) (n : Nat) (d : Damage),
        let listed := damageAdd d u.me.damage
        addDamage d u = State.offerNotice (.damageAdded d (decide (0 < listed.2))) { u with me := { u.me with
            damage := listed.1,
            lost := if listed.1 = [] then false else u.me.lost || decide (0 < listed.2),
            counters := { u.me.counters with
              damageOverflow := min (u.me.counters.damageOverflow + listed.2) 4294967295 } } }
          ∧ (u.journalOpen → ∀ body : RecordBody, queueRecord (.lane n) body u =
              (u.withRecord (.lane n) body none).post (.recordQueued ⟨u.jc.nextSeq, body, .lane n, none⟩))
          ∧ ∀ (q g : Nat) (reply : Option ReqTag),
            handle (.recordQueued ⟨q, .damageAdd d, .lane n, reply⟩) u = askPages n (addDamage d u)
              ∧ (∀ value, handle (.recordQueued ⟨q, .front g value, .lane n, reply⟩) u = askPages n u)
              ∧ handle (.recordQueued ⟨q, .jobEnd g .move, .lane n, reply⟩) u =
                  u.setSlab g { u.slab g with state := .committing }
              ∧ ((u.lane n).state = .finishing → handle (.recordQueued ⟨q, .jobEnd g .fill, .lane n, reply⟩) u = u))
    ∧ (∀ (s : State) (n : Nat), (s.lane n).state = .waitToken → n ∉ s.me.tokenOrder →
        let l := s.lane n
        let e := s.rowSet l
        let watched (intact : Bool) : Lane := { l with watch := some ⟨l.row, intact⟩ }
        let intact : Prop := l.lockout = true ∨ s.writeOverlaps l.slab l.row e.width e.unit = false
        (l.moves = true → ¬intact → handle (.rowStart n) s = (s.setLane n (watched false)).post (.commitCheck n))
          ∧ (l.moves = true → intact → handle (.rowStart n) s = forEach handOver ((s.laneRuns l).map (s.runCmd n l))
              (s.setLane n { watched true with state := .reading, commands := l.commands + (s.laneRuns l).length }))
          ∧ (l.moves = false → handle (.rowStart n) s = issueWrites n (stageFill n s)))
    ∧ (∀ (s : State) (n : Nat),
        let l := s.lane n
        let e := s.rowSet l
        let h := s.set (s.homePlace l).set
        let base := l.row * ((e.width - 1) * e.unit)
        let stop := min (base + (e.width - 1) * e.unit) s.slabBlocks
        2 ≤ h.width → 1 ≤ h.unit →
        (∀ o, (base ≤ o ∧ o < stop) ↔ ∃ r ∈ s.laneRuns l, r.1 ≤ o ∧ o < r.1 + r.2)
          ∧ (s.laneRuns l).Pairwise (fun a b => a.1 + a.2 ≤ b.1)
          ∧ (∀ r ∈ s.laneRuns l,
              let c := s.runCmd n l r
              c.owner = .lane n ∧ c.op = .read ∧ c.count = r.2 ∧ c.use = .run (r.1 / h.unit) ∧ c.context = some (l.slab, l.row)
                ∧ (∀ i, i < r.2 → (c.member, c.dbn + i) = memberBlock h (s.homePlace l).slot (r.1 + i)
                    ∧ ∃ positions, c.pages = .staging positions
                        ∧ positions.getD i 0 = l.pages.getD ((r.1 + i - base) / 16) 0 * 16 + (r.1 + i - base) % 16)))
    ∧ (∀ (s : State) (n : Nat),
        let l := s.lane n
        let e := s.rowSet l
        let positions := (List.range e.width).filter
          (fun p => l.moves || !decide ((s.member (e.positions.getD p ⟨0, 0⟩).member).state = .failed))
        let cmd (p : Nat) : Cmd :=
          let q := (e.width - 1) - l.row % e.width
          let unit := if p = q then e.width - 1 else if p < q then p else p - 1
          { owner := .lane n, use := .write p, member := (e.positions.getD p ⟨0, 0⟩).member, op := .write,
            dbn := (e.positions.getD p ⟨0, 0⟩).start + (s.writtenPlace l).slot * e.rows * e.unit + l.row * e.unit,
            count := e.unit,
            pages := .staging ((List.range e.unit).map (fun i =>
              l.pages.getD ((unit * e.unit + i) / 16) 0 * 16 + (unit * e.unit + i) % 16)),
            context := some (l.slab, l.row), labelBlock := none }
        let writing : Lane := { l with
          state := .writing, work := { l.work with unsettled := positions, failedOnce := [], again := false },
          commands := l.commands + positions.length }
        (positions ≠ [] → issueWrites n s = forEach handOver (positions.map cmd) (s.setLane n writing))
          ∧ (positions = [] → issueWrites n s = (s.setLane n writing).post (.commitCheck n)))
    ∧ (∀ (s : State) (n : Nat), (s.lane n).state = .reading ∨ (s.lane n).state = .recovering → (s.lane n).broken = false →
        let l := s.lane n
        let h := s.set (s.homePlace l).set
        let told := handle (.settleLost n) s
        let poisons (units : List Nat) : Prop :=
          let t := forEach (poisonUnit n) units s
          told = (t.setLane n { t.lane n with work := { (t.lane n).work with
            lost := l.work.lost.filter (fun v => !units.contains v), rebuilding := none, badUnits := [],
            parityBad := false } }).post (.settleLost n)
        (l.work.lost = [] → told = issueWrites n (stageParity n (stagePad n s)))
          ∧ (∀ unit rest, l.work.lost = unit :: rest →
              let same := l.work.lost.filter (fun v => v / (h.width - 1) = unit / (h.width - 1))
              let parityMember :=
                (h.positions.getD ((h.width - 1) - unit / (h.width - 1) % h.width) ⟨0, 0⟩).member
              (2 ≤ same.length → poisons same)
                ∧ (same.length ≤ 1 → (s.member parityMember).state = .failed → poisons [unit])
                ∧ (same.length ≤ 1 → (s.member parityMember).state ≠ .failed →
                    let waiting : State := s.setLane n { l with state := .recovering }
                    (s.sp.holder = none → s.sp.recoveryWait = [] → told = { waiting with
                        sp := { s.sp with holder := some n }, agenda := s.agenda ++ [.recoveryGranted n] })
                      ∧ (s.sp.holder ≠ none ∨ s.sp.recoveryWait ≠ [] → told = { waiting with
                          sp := { s.sp with recoveryWait := s.sp.recoveryWait ++ [n] } }))))
    ∧ (∀ (s : State) (n unit : Nat) (rest : List Nat), s.sp.holder = some n → (s.lane n).state = .recovering →
        (s.lane n).work.lost = unit :: rest → (s.lane n).work.rebuilding = none →
        let l := s.lane n
        let h := s.set (s.homePlace l).set
        let d := h.width - 1
        let row := unit / d
        let others := ((List.range d).map (fun k => row * d + k)).filter
          (fun v => v ≠ unit && decide (v * h.unit < s.slabBlocks))
        let place (v : Option Nat) : Nat × Nat := unitBlocks h (s.homePlace l).slot row
          (match v with
            | none => (h.width - 1) - row % h.width
            | some v => if v % d < (h.width - 1) - row % h.width then v % d else v % d + 1)
        let cmd (k : Nat) : Cmd :=
          let v := (others.map some ++ [none]).getD k none
          { owner := .lane n, use := .rebuild v, member := (place v).1, op := .read, dbn := (place v).2, count := h.unit,
            pages := .staging ((List.range h.unit).map (fun i => 192 * 16 + k * h.unit + i)),
            context := some (l.slab, l.row), labelBlock := none }
        handle (.recoveryGranted n) s = forEach handOver ((List.range (others.length + 1)).map cmd)
          (s.setLane n { l with work := { l.work with rebuilding := some unit, badUnits := [], parityBad := false },
                                commands := l.commands + (others.length + 1) }))
    ∧ (∀ (s : State) (n unit : Nat), (s.lane n).work.rebuilding = some unit →
        let w := (s.lane n).work
        let settled (units : List Nat) (t : State) : State :=
          let r := releaseRecovery n t
          (r.setLane n { r.lane n with work := { (r.lane n).work with
            lost := w.lost.filter (fun v => !units.contains v), rebuilding := none, badUnits := [],
            parityBad := false } }).post (.settleLost n)
        (w.parityBad = false → w.badUnits = [] → finishRebuild n s = settled [unit] (rebuildUnit n unit s))
          ∧ (w.parityBad = true ∨ w.badUnits ≠ [] →
              finishRebuild n s = settled (unit :: w.badUnits) (forEach (poisonUnit n) (unit :: w.badUnits) s)))
    ∧ (∀ (s : State) (n : Nat),
        (s.sp.holder ≠ some n → releaseRecovery n s = s)
          ∧ (s.sp.holder = some n → s.sp.recoveryWait = [] →
              releaseRecovery n s = { s with sp := { s.sp with holder := none } })
          ∧ (∀ m rest, s.sp.holder = some n → s.sp.recoveryWait = m :: rest → releaseRecovery n s =
              { s with sp := { s.sp with holder := some m, recoveryWait := rest },
                       agenda := s.agenda ++ [.recoveryGranted m] }))

/-! ## The drive fabric (R128 to R136) -/

/-- READ_DATA, PULL and TAGS about a block of a live command: the flush has been answered, the entry is ISSUED with the same generation,
the index lies below the count, and the operation matches (R130). A block read is laid at the command's page position, staging memory
or the label buffer, and marked as received; a pull is answered with the staged block, or that of the label buffer, and its tag; a
stored tag that differs from the staged one sets the mismatch flag. A late message is discarded, a late pull refused, and counted.
Nothing else changes. -/
def Obligations.BlocksOnDriveLink : Prop :=
  ∀ (s : State) (e g b : Nat) (data : BlockData) (tag : TagBits), s.quiet →
    let r := s.ring e
    let live (op : DriveOp) (c : Cmd) : Prop :=
      s.dp.flush = .answered ∧ r.generation = g ∧ r.cmd = some c ∧ b < c.count ∧ c.op = op
    let counted : DriveCounters := { s.dp.counters with late := min (s.dp.counters.late + 1) 4294967295 }
    let arrived : RingEntry := { r with received := r.received ||| (1#64 <<< b) }
    (∀ c, live .read c →
        (∀ positions, c.pages = .staging positions →
            exec (.readData e g b data tag) s = .next { s with
              sp := { s.sp with memory := Memory.write s.sp.memory (positions.getD b 0) ⟨data, tag⟩ },
              dp := { s.dp with ring := tableWrite (RingEntry.free 0) s.dp.ring e arrived } })
          ∧ (∀ p, c.pages = .label (some p) →
              exec (.readData e g b data tag) s = .next { s with
                dp := { s.dp with ring := tableWrite (RingEntry.free 0) s.dp.ring e arrived,
                                  labels := tableWrite Block.zero s.dp.labels p ⟨data, tag⟩ } }))
      ∧ (∀ c, live .write c → ∀ positions, c.pages = .staging positions →
          exec (.pull e g b) s = .next { s with dp := { s.dp with
            sent := s.dp.sent ++ [.pullAnswer e g b (s.staged (positions.getD b 0)).data
              (s.staged (positions.getD b 0)).tag] } })
      ∧ (∀ c, live .write c → ∀ p, c.pages = .label (some p) →
          exec (.pull e g b) s = .next { s with dp := { s.dp with
            sent := s.dp.sent ++ [.pullAnswer e g b (s.labelPlaceBlock p).data (s.labelPlaceBlock p).tag] } })
      ∧ (∀ c, live .readTags c → ∀ positions, c.pages = .staging positions →
          ∃ t : State, exec (.tags e g b tag) s = .next t
            ∧ t.ring e = { arrived with mismatch := r.mismatch || decide ((s.staged (positions.getD b 0)).tag ≠ tag) }
            ∧ (∀ f, f ≠ e → t.ring f = s.ring f)
            ∧ { t with dp := { t.dp with ring := s.dp.ring } } = s)
      ∧ ((∀ c, ¬live .read c) →
          exec (.readData e g b data tag) s = .next { s with dp := { s.dp with counters := counted } })
      ∧ ((∀ c, ¬live .write c) →
          exec (.pull e g b) s = .next { s with dp := { s.dp with
            counters := counted, sent := s.dp.sent ++ [.pullRefused e g] } })
      ∧ ((∀ c, ¬live .readTags c) →
          exec (.tags e g b tag) s = .next { s with dp := { s.dp with counters := counted } })

/-- END_MESSAGE of a live command completes it, whoever owns it (R131): its entry is FREE, its generation kept, at the tail of the free
order; the label place of a label command joins the tail of the free ones (log 44); the member's error run follows R135 (a NO_DEVICE
raises it, to at most 3; a GOOD READ, and a GOOD label command, ends it; a lane's GOOD WRITE or READ_TAGS, and MEDIA, leave it); the
fault of R136 is offered; the waiting commands are served (R129), before the owner acts (the model's choice, log 48); then the owner
and, at the third error of a run, the Placement Map (R35) are told. MEDIA names the first failed DBN; GOOD with a block of a READ or
READ_TAGS missing is MEDIA at the first missing block. A lane that has left the row takes nothing from it. A late end is discarded and
counted.
What the owner does with a GOOD end. A lane in READING checks the blocks of its run (R113): with none CORRUPT each stretch of POISONED
ones is noted as FOUND; with a CORRUPT one the unit is lost, none is noted (the model's reading, log 41), and the first such block is
faulted (log 42); after the last read it goes on, or to the commit check of a BROKEN watch (R97). A lane in RECOVERING takes a data
unit that is not CORRUPT and a parity unit that is GOOD, else has lost it (R114); blocks beyond the slab are judged as PAD (log 19). A
lane at its writes follows a WRITE with the READ_TAGS of its unit (R118); one without mismatch settles the unit and ends the error
run, the last bringing the commit check; a mismatch rewrites the unit once, and the second time aborts a MOVE with TARGET_VERIFY and
has a FILL row begun again (R119, R135); a FAILED member's unit is settled in a FILL row (R117). An admission's label WRITE is
followed by its READ; a label that agrees makes the member AVAILABLE with label_seq and answers OK where the record is durable (R32),
and one that does not fails the admission (R33). A start-up check whose label agrees has ended; else its member fails (R164). -/
def Obligations.CommandEnds : Prop :=
  (∀ (s : State) (e g : Nat) (status : EndStatus), s.quiet →
    let r := s.ring e
    ((¬(s.dp.flush = .answered ∧ r.generation = g ∧ r.cmd.isSome = true)) →
        exec (.endMessage e g status) s = .next { s with dp := { s.dp with
          counters := { s.dp.counters with late := min (s.dp.counters.late + 1) 4294967295 } } })
      ∧ (∀ (c : Cmd) (n : Nat) (positions : List Nat), s.dp.flush = .answered → r.generation = g → r.cmd = some c →
          c.owner = .lane n → c.pages = .staging positions → s.dp.waiting = [] → s.dp.labelWait = [] →
          s.errorRun c.member < 2 →
          let l := s.lane n
          let missing (i : Nat) : Prop := c.op ≠ .write ∧ i < c.count ∧ r.received.getLsbD i = false
          let left : Lane := { l with commands := l.commands - 1 }
          let lost (unit : Nat) : Lane := { left with work := { l.work with lost := insertRising unit l.work.lost } }
          let fault (kind : FaultKind) (dbn : Nat) : FaultOffer :=
            { kind := kind, member := some c.member, dbn := some dbn, lane := some n, slab := c.context.map Prod.fst,
              row := c.context.map Prod.snd, storeBlock := none }
          let ends (lane : Lane) (run : Nat) (mp : MsgPort) : Prop :=
            ∃ t : State, exec (.endMessage e g status) s = .next t
              ∧ t.ring e = RingEntry.free g ∧ (∀ f, f ≠ e → t.ring f = s.ring f)
              ∧ t.dp.freeOrder = s.dp.freeOrder ++ [e]
              ∧ t.errorRun c.member = run ∧ (∀ m, m ≠ c.member → t.errorRun m = s.errorRun m)
              ∧ t.lane n = lane ∧ (∀ m, m ≠ n → t.lane m = s.lane m)
              ∧ t.mp = mp ∧ t.me.jobs = s.me.jobs ∧ t.dp.counters = s.dp.counters ∧ t.dp.sent = s.dp.sent
              ∧ t.pm = s.pm ∧ t.gu = s.gu ∧ t.sp = s.sp ∧ t.sm = s.sm ∧ t.jc = s.jc ∧ t.part = s.part
          let outcomes (lane : Lane) (goodToo : Bool) : Prop :=
            (goodToo = true → status = .good → (∀ i, ¬missing i) →
                (c.op = .read → ends lane 0 s.mp) ∧ (c.op ≠ .read → ends lane (s.errorRun c.member) s.mp))
              ∧ (∀ i, status = .good → missing i → (∀ k, k < i → ¬missing k) →
                  ends lane (s.errorRun c.member) (s.offerFault (fault .driveMedia (c.dbn + i))).mp)
              ∧ (∀ dbn, status = .media dbn →
                  ends lane (s.errorRun c.member) (s.offerFault (fault .driveMedia dbn)).mp)
              ∧ (status = .noDevice →
                  ends lane (s.errorRun c.member + 1) (s.offerFault (fault .driveNoDevice c.dbn)).mp)
          (l.state = .aborting → outcomes left true)
            ∧ (∀ unit, c.use = .run unit → c.op = .read → l.state = .reading → 2 ≤ l.commands →
                outcomes (lost unit) false)))
    ∧ (∀ (s : State) (e g : Nat) (status : EndStatus) (c : Cmd) (outcome : CmdStatus) (first : Nat) (runs : List (Nat × Nat)),
        s.quiet → s.dp.flush = .answered → (s.ring e).generation = g → (s.ring e).cmd = some c →
        let r := s.ring e
        let run := min 3 (s.errorRun c.member + 1)
        let missing (i : Nat) : Prop := c.op ≠ .write ∧ i < c.count ∧ r.received.getLsbD i = false
        let whole : Prop := status = .good ∧ (∀ i, ¬missing i) ∧ outcome = .good ∧ first = 0
        let keeps : Prop := c.owner.lane?.isSome = true ∧ c.op ≠ .read
        ((whole ∧ keeps ∧ runs = s.dp.errorRuns)
            ∨ (whole ∧ ¬keeps ∧ runs = tableWrite 0 s.dp.errorRuns c.member 0)
            ∨ (∃ i, status = .good ∧ missing i ∧ (∀ k, k < i → ¬missing k) ∧ outcome = .media ∧ first = c.dbn + i
                ∧ runs = s.dp.errorRuns)
            ∨ (status = .media first ∧ outcome = .media ∧ runs = s.dp.errorRuns)
            ∨ (status = .noDevice ∧ outcome = .noDevice ∧ first = 0 ∧ runs = tableWrite 0 s.dp.errorRuns c.member run)) →
        let fault (kind : FaultKind) (dbn : Nat) : FaultOffer :=
          { kind := kind, member := some c.member, dbn := some dbn, lane := c.owner.lane?, slab := c.context.map Prod.fst,
            row := c.context.map Prod.snd, storeBlock := none }
        let freed : State :=
          { s with
            agenda := .completed ⟨c, outcome, first, r.mismatch, s.labelRead c⟩
              :: (if outcome = .noDevice ∧ run = 3 then [.memberCause c.member] else []),
            dp := { s.dp with
              ring := tableWrite (RingEntry.free 0) s.dp.ring e (RingEntry.free r.generation),
              freeOrder := s.dp.freeOrder ++ [e],
              labelFree := (match c.pages with
                | .label (some p) => s.dp.labelFree ++ [p]
                | _ => s.dp.labelFree),
              errorRuns := runs } }
        let ended : State := match outcome with
          | .media => State.offerFault (fault .driveMedia first) freed
          | .noDevice => State.offerFault (fault .driveNoDevice c.dbn) freed
          | _ => freed
        exec (.endMessage e g status) s = .next (finish s (serveCommands ended))
          ∧ (s.dp.waiting = [] → s.dp.labelWait = [] → exec (.endMessage e g status) s = .next (finish s ended)))
    ∧ (∀ (u : State) (c : Cmd) (b : Option Block) (n : Nat) (positions : List Nat), c.owner = .lane n →
        c.pages = .staging positions →
        let l := u.lane n
        let h := u.set (u.homePlace l).set
        let told (mismatch : Bool) := handle (.completed ⟨c, .good, 0, mismatch, b⟩) u
        let left : Lane := { l with commands := l.commands - 1 }
        let goOn (i : Internal) (t : State) : State :=
          { t with agenda := t.agenda ++ (if l.commands ≤ 1 then [if l.broken then .commitCheck n else i] else []) }
        let fault (kind : FaultKind) (dbn : Nat) : FaultOffer :=
          { kind := kind, member := some c.member, dbn := some dbn, lane := some n, slab := c.context.map Prod.fst,
            row := c.context.map Prod.snd, storeBlock := none }
        let place (offset : Nat) : TagPlace :=
          dataTagPlace u.slabBlocks (u.slab l.slab).volume (u.volumeSlab l.slab) h.rows offset
        let check (i : Nat) (p : TagPlace) : TagOutcome := checkTag (u.staged (positions.getD i 0)) p
        let firstCorrupt (at' : Nat → TagPlace) (i : Nat) : Prop :=
          i < c.count ∧ check i (at' i) = .corrupt ∧ ∀ k, k < i → check k (at' k) ≠ .corrupt
        (∀ unit mismatch, c.use = .run unit → l.state = .reading →
            let first := max (u.rowBase l) (unit * h.unit)
            let at' (i : Nat) : TagPlace := place (first + i)
            ((∀ i, i < c.count → check i (at' i) ≠ .corrupt) →
                told mismatch = goOn (.settleLost n) (u.setLane n { left with work := { l.work with
                  damage := (stretches ((List.range c.count).map (fun i => decide (check i (at' i) = .poisoned))) 0).foldl
                    (fun ds r => damageInsert
                      ⟨(u.slab l.slab).volume, u.volumeSlab l.slab * u.slabBlocks + (first + r.1), r.2, .found⟩ ds)
                    l.work.damage } }))
              ∧ (∀ i, firstCorrupt at' i →
                  told mismatch = goOn (.settleLost n) (State.offerFault (fault .tagCorrupt (c.dbn + i))
                    (u.setLane n { left with work := { l.work with lost := insertRising unit l.work.lost } }))))
          ∧ (∀ v unit mismatch, c.use = .rebuild v → l.state = .recovering → l.work.rebuilding = some unit →
              let at' (i : Nat) : TagPlace := match v with
                | none => ⟨.parity, (u.homePlace l).set, unit / (h.width - 1)⟩
                | some v => place (v * h.unit + i)
              let failed : RowWork := match v with
                | none => { l.work with parityBad := true }
                | some v => { l.work with badUnits := insertRising v l.work.badUnits }
              let outcome (t : State) : Prop :=
                (2 ≤ l.commands → told mismatch = t)
                  ∧ (l.commands ≤ 1 → l.broken = true → told mismatch = t.post (.commitCheck n))
                  ∧ (l.commands ≤ 1 → l.broken = false → told mismatch = finishRebuild n t)
              ((∀ i, i < c.count → check i (at' i) = .good ∨ (v ≠ none ∧ check i (at' i) = .poisoned)) →
                  outcome (u.setLane n left))
                ∧ (∀ i, firstCorrupt at' i →
                    outcome (State.offerFault (fault .tagCorrupt (c.dbn + i)) (u.setLane n { left with work := failed })))
                ∧ (v = none → (∀ i, i < c.count → check i (at' i) ≠ .corrupt) →
                    (∃ i, i < c.count ∧ check i (at' i) = .poisoned) → outcome (u.setLane n { left with work := failed })))
          ∧ (∀ position mismatch, c.use = .write position → l.writes = true → position ∈ l.work.unsettled → 1 ≤ l.commands →
              (l.broken = false → l.work.again = false →
                  told mismatch = handOver (u.unitCmd n l (.verify position) .readTags position)
                    (u.setLane n { l with state := .verifying }))
                ∧ (l.work.again = true → told mismatch =
                    (if l.commands = 1 then (u.setLane n left).post (.rowAgain n) else u.setLane n left))
                ∧ (l.broken = true → l.work.again = false → told mismatch =
                    (if l.commands = 1 then (u.setLane n left).post (.commitCheck n) else u.setLane n left)))
          ∧ (∀ position, c.use = .verify position → l.writes = true → l.broken = false → l.work.again = false →
              let rest := l.work.unsettled.filter (fun p => p ≠ position)
              let settled : State := u.setLane n { left with work := { l.work with unsettled := rest } }
              let on (t : State) : State := if rest = [] then t.post (.commitCheck n) else t
              told false = on (settled.setErrorRun c.member 0)
                ∧ (1 ≤ l.commands → position ∈ l.work.unsettled → (u.member c.member).state ≠ .failed →
                    (position ∉ l.work.failedOnce →
                        told true = handOver (u.unitCmd n l (.write position) .write position)
                          { u with me := { u.me with
                            lanes := tableWrite Lane.idle u.me.lanes n
                              { l with work := { l.work with failedOnce := l.work.failedOnce ++ [position] } },
                            counters := { u.me.counters with
                              verifyRewrites := min (u.me.counters.verifyRewrites + 1) 4294967295 } } })
                      ∧ (position ∈ l.work.failedOnce →
                          let faulted : State :=
                            countFailure c.member (State.offerFault (fault .verifyMismatch c.dbn) (u.setLane n left))
                          (l.moves = true → told true = abortLane n .targetVerify faulted)
                            ∧ (l.moves = false →
                                let again : State := faulted.setLane n { left with work := { l.work with again := true } }
                                told true = if l.commands = 1 then again.post (.rowAgain n) else again)))
                ∧ ((u.member c.member).state = .failed → l.moves = false → told true = on settled)))
    ∧ (∀ (flags : List Bool) (i : Nat), (stretches flags 0).Pairwise (fun a b => a.1 + a.2 < b.1)
        ∧ (flags.getD i false = true ↔ ∃ r ∈ stretches flags 0, r.1 ≤ i ∧ i < r.1 + r.2))
    ∧ (∀ (u : State) (c : Cmd) (mismatch : Bool) (b : Block) (tag : ReqTag) (q : Nat) (verified durable : Bool),
        c.owner = .admission → u.pm.busy = some (.joining tag c.member (some q) verified durable) →
        (u.member c.member).state = .joining →
        let told := handle (.completed ⟨c, .good, 0, mismatch, some b⟩) u
        (c.op = .write → told = handOver
            { owner := .admission, use := .label, member := c.member, op := .read, dbn := 0, count := 1, pages := .label none,
              context := none, labelBlock := none } u)
          ∧ (c.op = .read → labelAgrees b u.pm.arrayId c.member q = true →
              (durable = true → told = State.answer tag .ok (.labelSeq q)
                (State.offerNotice (.memberState c.member .joining .available)
                  { u with pm := { u.pm with
                    members := tableWrite Member.absent u.pm.members c.member
                      { u.member c.member with state := .available, labelSeq := some q },
                    busy := none } }))
                ∧ (durable = false →
                    told = { u with pm := { u.pm with busy := some (.joining tag c.member (some q) true false) } }))
          ∧ (c.op = .read → labelAgrees b u.pm.arrayId c.member q = false → u.journalOpen →
              told = (State.withRecord .pm (.member c.member .unadmitted) (some tag)
                (State.offerNotice (.memberState c.member .joining .present)
                  { u with pm := { u.pm with
                    members := tableWrite Member.absent u.pm.members c.member { u.member c.member with state := .present },
                    busy := some (.joinFailed tag c.member) } })).post
                (.recordQueued ⟨u.jc.nextSeq, .member c.member .unadmitted, .pm, some tag⟩)))
    ∧ (∀ (u : State) (c : Cmd) (mismatch : Bool) (b : Block), c.owner = .startCheck →
        let told := handle (.completed ⟨c, .good, 0, mismatch, some b⟩) u
        let checked : State := { u with pm := { u.pm with checks := u.pm.checks.filter (fun k => k ≠ c.member) } }
        let agrees := labelAgrees b u.pm.arrayId c.member ((u.member c.member).labelSeq.getD 0)
        (agrees = true → told = checked)
          ∧ (agrees = false → (u.member c.member).state = .available ∨ (u.member c.member).state = .active →
              told = failMember c.member none checked))

/-- COMMAND_TIMEOUT at the deadline of an ISSUED entry, for a command of any owner (R132, R135, R136): the timeouts counter rises, a
cancel with its command id is sent, the entry is FREE with its generation kept and joins the tail of the free order, the label
place of a label command is free again, the member's error run rises, stopping at 3, a DRIVE_TIMEOUT fault is offered, and the owner
is told, and after it, at the third error of a run, the Placement Map (R35). Then the waiting commands are served (R129), before the
owner acts (the model's choice, log 48); with none waiting nothing else happens ahead of what the owner does.
What the owner does. A lane in READING has lost the source unit, and with its last read goes on, or to the commit check of a BROKEN
watch (R97, R113). A lane in RECOVERING has lost the unit read for its reconstruction, the parity unit or a data unit (R114). A lane
in WRITING or VERIFYING rewrites the unit once (R119), while it may issue a further command; at the second failure the verify error
is counted and faulted, a MOVE aborts with TARGET_VERIFY, and a FILL row is begun again after its last command. An admission fails:
its entry is PRESENT, MEMBER_STATE is offered, and a second MEMBER record is queued (R33). The member of a start-up check fails
(R164), stated for one without bands. Before the deadline, and for an entry that holds no command, nothing happens (log 1). -/
def Obligations.CommandTimesOut : Prop :=
  (∀ (s : State) (e : Nat), s.quiet →
    let r := s.ring e
    ((r.cmd = none ∨ s.clock.now < r.deadline) → exec (.commandTimeout e) s = .next s)
      ∧ (∀ c : Cmd, r.cmd = some c → r.deadline ≤ s.clock.now →
          let run := min 3 (s.errorRun c.member + 1)
          let ended : State := State.offerFault
            { kind := .driveTimeout, member := some c.member, dbn := some c.dbn, lane := c.owner.lane?,
              slab := c.context.map Prod.fst, row := c.context.map Prod.snd, storeBlock := none }
            { s with
              agenda := .completed ⟨c, .timeout, 0, r.mismatch, s.labelRead c⟩
                :: (if run = 3 then [.memberCause c.member] else []),
              dp := { s.dp with
                ring := tableWrite (RingEntry.free 0) s.dp.ring e (RingEntry.free r.generation),
                freeOrder := s.dp.freeOrder ++ [e],
                labelFree := (match c.pages with
                  | .label (some p) => s.dp.labelFree ++ [p]
                  | _ => s.dp.labelFree),
                errorRuns := tableWrite 0 s.dp.errorRuns c.member run,
                counters := { s.dp.counters with timeouts := min (s.dp.counters.timeouts + 1) 4294967295 },
                sent := s.dp.sent ++ [.cancel e r.generation] } }
          exec (.commandTimeout e) s = .next (finish s (serveCommands ended))
            ∧ (s.dp.waiting = [] → s.dp.labelWait = [] → exec (.commandTimeout e) s = .next (finish s ended))))
    ∧ (∀ (u : State) (c : Cmd) (mismatch : Bool) (b : Option Block) (n : Nat), c.owner = .lane n →
        let l := u.lane n
        let told := handle (.completed ⟨c, .timeout, 0, mismatch, b⟩) u
        let left : Lane := { l with commands := l.commands - 1 }
        let goOn (i : Internal) (t : State) : State :=
          { t with agenda := t.agenda ++ (if l.commands ≤ 1 then [if l.broken then .commitCheck n else i] else []) }
        (∀ unit, c.use = .run unit → l.state = .reading →
            told = goOn (.settleLost n)
              (u.setLane n { left with work := { l.work with lost := insertRising unit l.work.lost } }))
          ∧ (∀ v, c.use = .rebuild v → l.state = .recovering →
              let failed : State := u.setLane n { left with work := (match v with
                | none => { l.work with parityBad := true }
                | some v => { l.work with badUnits := insertRising v l.work.badUnits }) }
              (2 ≤ l.commands → told = failed)
                ∧ (l.commands ≤ 1 → l.broken = true → told = failed.post (.commitCheck n))
                ∧ (l.commands ≤ 1 → l.broken = false → told = finishRebuild n failed))
          ∧ (∀ position, (c.use = .write position ∨ c.use = .verify position) → l.writes = true →
              (u.member c.member).state ≠ .failed → position ∈ l.work.unsettled → l.broken = false → l.work.again = false →
              1 ≤ l.commands →
              (position ∉ l.work.failedOnce →
                  told = handOver (u.unitCmd n l (.write position) .write position)
                    { u with me := { u.me with
                      lanes := tableWrite Lane.idle u.me.lanes n
                        { l with work := { l.work with failedOnce := l.work.failedOnce ++ [position] } },
                      counters := { u.me.counters with
                        verifyRewrites := min (u.me.counters.verifyRewrites + 1) 4294967295 } } })
                ∧ (position ∈ l.work.failedOnce →
                    let faulted : State := countFailure c.member (State.offerFault
                      { kind := .verifyMismatch, member := some c.member, dbn := some c.dbn, lane := some n,
                        slab := c.context.map Prod.fst, row := c.context.map Prod.snd, storeBlock := none }
                      (u.setLane n left))
                    (l.moves = true → told = abortLane n .targetVerify faulted)
                      ∧ (l.moves = false →
                          let again : State := faulted.setLane n { left with work := { l.work with again := true } }
                          told = if l.commands = 1 then again.post (.rowAgain n) else again))))
    ∧ (∀ (u : State) (c : Cmd) (mismatch : Bool) (b : Option Block) (tag : ReqTag) (q : Nat) (verified durable : Bool),
        c.owner = .admission → u.pm.busy = some (.joining tag c.member (some q) verified durable) →
        (u.member c.member).state = .joining → u.journalOpen →
        handle (.completed ⟨c, .timeout, 0, mismatch, b⟩) u =
          (State.withRecord .pm (.member c.member .unadmitted) (some tag)
            (State.offerNotice (.memberState c.member .joining .present)
              { u with pm := { u.pm with
                members := tableWrite Member.absent u.pm.members c.member { u.member c.member with state := .present },
                busy := some (.joinFailed tag c.member) } })).post
            (.recordQueued ⟨u.jc.nextSeq, .member c.member .unadmitted, .pm, some tag⟩))
    ∧ (∀ (u : State) (c : Cmd) (mismatch : Bool) (b : Option Block), c.owner = .startCheck → u.part = .starting →
        ((u.member c.member).state = .available ∨ (u.member c.member).state = .active) → (u.member c.member).bands = [] →
        u.entriesWhere (fun d => decide (d.member = c.member)) = [] → u.dp.waiting = [] → u.dp.labelWait = [] →
        handle (.completed ⟨c, .timeout, 0, mismatch, b⟩) u =
          State.offerNotice (.memberState c.member (u.member c.member).state .failed)
            { u with pm := { u.pm with
              checks := u.pm.checks.filter (fun k => k ≠ c.member),
              members := tableWrite Member.absent u.pm.members c.member { u.member c.member with state := .failed },
              held := u.pm.held ++ [c.member] } })

/-- The flush (R128). FLUSH_ANSWER: the port begins to issue: with nothing held nothing else changes; a command held for it goes out in
the entry at the head of the free order, where its member is not FAILED and its drive present (R129). FLUSH_RETRY 1 s after the last
sending sends the flush again; after the third a DRIVE_TIMEOUT fault is offered and the port goes on as if answered, stated with
nothing held. Before that time, and with no flush outstanding, nothing happens (log 1). That the second is counted from the last
sending is the model's reading (log 32). -/
def Obligations.FlushAnsweredOrRetried : Prop :=
  ∀ s : State, s.quiet →
    ((∀ tries at', s.dp.flush ≠ .waiting tries at') →
        exec .flushAnswer s = .next s ∧ exec .flushRetry s = .next s)
      ∧ (∀ tries at', s.dp.flush = .waiting tries at' →
          (s.dp.waiting = [] → s.dp.labelWait = [] →
              exec .flushAnswer s = .next { s with dp := { s.dp with flush := .answered } })
            ∧ (∀ (c : Cmd) (e : Nat) (rest : List Nat), s.dp.waiting = [c] → s.dp.labelWait = [] →
                s.dp.freeOrder = e :: rest → e ∉ rest → (s.member c.member).state ≠ .failed →
                (s.bay c.member).present = true →
                exec .flushAnswer s = .next { s with dp := { s.dp with
                  flush := .answered, waiting := [], freeOrder := rest,
                  ring := tableWrite (RingEntry.free 0) s.dp.ring e
                    { generation := ((s.ring e).generation + 1) % 256, cmd := some c,
                      deadline := s.clock.now + s.dp.driveTmo * 1000000, received := 0, mismatch := false },
                  counters := { s.dp.counters with issued := min (s.dp.counters.issued + 1) 4294967295 },
                  sent := s.dp.sent
                    ++ [.command e (((s.ring e).generation + 1) % 256) c.member c.op c.dbn c.count] } })
            ∧ (s.clock.now < at' + 1000000 → exec .flushRetry s = .next s)
            ∧ (at' + 1000000 ≤ s.clock.now → tries < 3 →
                exec .flushRetry s = .next { s with dp := { s.dp with
                  flush := .waiting (tries + 1) s.clock.now, sent := s.dp.sent ++ [.flush] } })
            ∧ (at' + 1000000 ≤ s.clock.now → 3 ≤ tries → s.dp.waiting = [] → s.dp.labelWait = [] →
                exec .flushRetry s = .next
                  (State.offerFault (FaultOffer.bare .driveTimeout) { s with dp := { s.dp with flush := .answered } })))

/-! ## The management bus (R137 to R143, R29) -/

/-- POLL_ROUND_START: from the first round of a start-up on, with no transaction in progress, POLL_PERIOD after the beginning of the last
round, a transaction to address 0 begins (R139). STATE_POLL_END with a good answer (R138, R141): the entry is UP with no misses and
takes the answer's condition and bays; where it was not UP, or its condition changes, SHELF_UP is offered; the next address is polled,
or the round has ended. The bays are compared in ascending order (R142): a bay whose drive appears, goes, or is exchanged for one of
another capacity or format_ok, and one without a drive whose occupied or ready changes, is counted and noticed with BAY_CHANGE, once;
the Placement Map is told of a drive gone, and then of one appeared. Of a drive gone (R30): a PRESENT member is ABSENT, a JOINING one
is ABSENT and its admission fails, with its second record and its label command ended (R33; that its capacity and format_ok are
cleared is the model's choice, log 50, and so is MEMBER_STATE ahead of the command's fault, log 56), an AVAILABLE or ACTIVE one fails
(R36; what that does is in MemberFailed), any other stays. Of a drive appeared (R29): an ABSENT member is PRESENT with the reported
values and an error run of 0, a PRESENT one takes them, any other stays. Stated to the end of the command for one bay that differs: a
drive appears at an ABSENT member; a PRESENT one's is exchanged; that of an AVAILABLE or ACTIVE member, on which no command and no
lane reacts, goes; a JOINING one's goes. `bayAt` reads a bay record of an answer (log 12). That BAY_CHANGE stands before MEMBER_STATE
is the model's reading (log 24), and that nothing happens before a round is due, and with no transaction, is its choice (log 1). -/
def Obligations.ShelvesPolled : Prop :=
  (∀ s : State, s.quiet →
    let polled (address : Nat) (m : ShelfMonitor) : ShelfMonitor :=
      { m with transaction := some (address, s.clock.now), abandoned := false,
               counters := { m.counters with polls := min (m.counters.polls + 1) 4294967295 } }
    let goOn (address : Nat) (t : State) : State :=
      { t with sm := if address < 15 then polled (address + 1) t.sm else { t.sm with transaction := none } }
    let due : Prop := (s.stage = .labelChecks ∨ s.stage = .service) ∧ s.sm.transaction = none
      ∧ ∃ w, s.sm.roundStart = some w ∧ w + s.sm.pollPeriod * 1000 ≤ s.clock.now
    (due → exec .pollRoundStart s = .next { s with sm := polled 0 { s.sm with roundStart := some s.clock.now } })
      ∧ (¬due → exec .pollRoundStart s = .next s)
      ∧ (s.sm.transaction = none → ∀ a, exec (.statePollEnd a) s = .next s)
      ∧ (∀ (address start : Nat) (answer : List Byte), s.sm.transaction = some (address, start) →
          s.clock.now ≤ start + 5000 → answer.length = 114 → answer.getD 113 0 = complementSum (answer.take 113) →
          let e := s.shelf address
          let faulted := decide (byteAt answer 0 ≠ 0)
          let bays := (List.range 16).map (fun i => bayAt answer (1 + 7 * i))
          let taken : State := { s with sm := { s.sm with
            shelves := tableWrite Shelf.unseen s.sm.shelves address
              { state := .up, misses := 0, faulted := faulted, bays := bays, lastGood := some s.clock.now } } }
          let id (i : Nat) := 16 * address + i
          let old (i : Nat) := e.bays.getD i Bay.cleared
          let new (i : Nat) := bays.getD i Bay.cleared
          let changed (i : Nat) : Bool :=
            if (old i).present || (new i).present then
              decide ((old i).present ≠ (new i).present ∨ (old i).capacity ≠ (new i).capacity
                ∨ (old i).formatOk ≠ (new i).formatOk)
            else decide ((old i).occupied ≠ (new i).occupied ∨ (old i).ready ≠ (new i).ready)
          let reports (i : Nat) : List Internal :=
            (if (old i).present then [.driveGone (id i)] else [])
              ++ (if (new i).present then [.driveAppeared (id i) (new i).capacity (new i).formatOk] else [])
          let noticed (t : State) (i : Nat) : State := State.offerNotice (.bayChange (id i) (old i) (new i))
            { t with
              agenda := t.agenda ++ reports i,
              sm := { t.sm with counters := { t.sm.counters with
                bayChanges := min (t.sm.counters.bayChanges + 1) 4294967295 } } }
          let shelfTold : State := if e.state = .up ∧ e.faulted = faulted then taken else State.offerNotice
            (.shelfUp address faulted (bays.filter Bay.present).length) taken
          exec (.statePollEnd (.bytes answer)) s = .next
              (finish s (goOn address (((List.range 16).filter changed).foldl noticed shelfTold)))
            ∧ (e.bays = bays →
              (e.state = .up → e.faulted = faulted →
                  exec (.statePollEnd (.bytes answer)) s = .next (goOn address taken))
                ∧ ((e.state ≠ .up ∨ e.faulted ≠ faulted) →
                    exec (.statePollEnd (.bytes answer)) s = .next (State.offerNotice
                      (.shelfUp address faulted (bays.filter Bay.present).length) (goOn address taken))))
            ∧ (∀ i, i < 16 → e.state = .up → e.faulted = faulted →
                (∀ j, j < 16 → j ≠ i → e.bays.getD j Bay.cleared = bays.getD j Bay.cleared) →
                let m := s.member (id i)
                let ends (told : List Notice) (t : State) : Prop :=
                  exec (.statePollEnd (.bytes answer)) s = .next t
                    ∧ (∀ k, k ≠ id i → t.member k = s.member k) ∧ t.shelf address = taken.shelf address
                    ∧ t.sm.counters.bayChanges = min (s.sm.counters.bayChanges + 1) 4294967295
                    ∧ t.mp = ((.bayChange (id i) (old i) (new i) :: told).foldl (fun u x => u.offerNotice x) s).mp
                    ∧ t.pm.slots = s.pm.slots ∧ t.pm.slabs = s.pm.slabs ∧ t.gu = s.gu ∧ t.me = s.me ∧ t.sp = s.sp
                ((old i).present = false → (new i).present = true → m.state = .absent →
                    ∃ t : State, ends [.memberState (id i) .absent .present] t
                      ∧ t.member (id i) =
                        { m with state := .present, capacity := (new i).capacity, formatOk := (new i).formatOk }
                      ∧ t.errorRun (id i) = 0 ∧ t.pm.sets = s.pm.sets ∧ t.jc = s.jc)
                  ∧ ((old i).present = true → (new i).present = true →
                      (old i).capacity ≠ (new i).capacity ∨ (old i).formatOk ≠ (new i).formatOk → m.state = .present →
                      ∃ t : State, ends [.memberState (id i) .present .absent, .memberState (id i) .absent .present] t
                        ∧ t.member (id i) = ⟨.present, (new i).capacity, (new i).formatOk, [], none⟩
                        ∧ t.errorRun (id i) = 0 ∧ t.pm.sets = s.pm.sets ∧ t.jc = s.jc)
                  ∧ ((old i).present = true → (new i).present = false → m.state = .available ∨ m.state = .active →
                      s.part = .ready → s.journalOpen → (m.bands.map Band.set).Nodup → (∀ n, (s.lane n).job = none) →
                      s.entriesWhere (fun c => decide (c.member = id i)) = [] → s.dp.waiting = [] → s.dp.labelWait = [] →
                      let entered (k : Nat) : SetState := if (s.set k).failedCount = 0 then .degraded else .failed
                      ∃ t : State, ends (.memberState (id i) m.state .failed
                          :: ((m.bands.map Band.set).filter (fun k => (s.set k).state ≠ entered k)).map
                            (fun k => .setState k (s.set k).state (entered k) ((s.set k).failedCount + 1))) t
                        ∧ t.member (id i) = { m with state := .failed }
                        ∧ (∀ b ∈ m.bands, t.set b.set =
                            { s.set b.set with failedCount := (s.set b.set).failedCount + 1, state := entered b.set })
                        ∧ (∀ k, (∀ b ∈ m.bands, b.set ≠ k) → t.set k = s.set k)
                        ∧ t.jc = (s.withRecord .pm (.member (id i) .failed) none).jc)
                  ∧ (∀ tag q verified durable, (old i).present = true → (new i).present = false → m.state = .joining →
                      s.pm.busy = some (.joining tag (id i) q verified durable) → s.journalOpen →
                      s.entriesWhere (fun c => decide (c.member = id i)) = [] → s.dp.waiting = [] → s.dp.labelWait = [] →
                      ∃ t : State, ends [.memberState (id i) .joining .absent] t ∧ t.member (id i) = Member.absent
                        ∧ t.pm.busy = some (.joinFailed tag (id i)) ∧ t.pm.sets = s.pm.sets
                        ∧ t.jc = (s.withRecord .pm (.member (id i) .unadmitted) (some tag)).jc))))
    ∧ (∀ (u : State) (id : Nat),
        let m := u.member id
        let gone := handle (.driveGone id) u
        let absent : State := State.offerNotice (.memberState id m.state .absent)
          { u with pm := { u.pm with members := tableWrite Member.absent u.pm.members id ⟨.absent, 0, false, [], none⟩ } }
        (m.state = .absent ∨ m.state = .failed → gone = u)
          ∧ (m.state = .present → gone = absent)
          ∧ (∀ tag q verified durable, m.state = .joining → u.pm.busy = some (.joining tag id q verified durable) →
              gone = endCommands (fun c => decide (c.member = id) && decide (c.owner = .admission))
                (queueWork .pm ⟨.member id .unadmitted, some tag⟩
                  { absent with pm := { absent.pm with busy := some (.joinFailed tag id) } }))
          ∧ (m.state = .available ∨ m.state = .active → gone = failMember id none u))
    ∧ ∀ (u : State) (id capacity : Nat) (formatOk : Bool),
      let m := u.member id
      let appeared := handle (.driveAppeared id capacity formatOk) u
      let entered : Member := { m with state := .present, capacity := capacity, formatOk := formatOk }
      let listed : State := { u with pm := { u.pm with members := tableWrite Member.absent u.pm.members id entered } }
      (m.state = .absent → appeared = State.offerNotice (.memberState id .absent .present)
          { listed with dp := { u.dp with errorRuns := tableWrite 0 u.dp.errorRuns id 0 } })
        ∧ (m.state = .present → appeared = listed)
        ∧ (m.state ≠ .absent → m.state ≠ .present → appeared = u)

/-- A miss (R138, R143): a poll that no shelf acknowledges, an answer that is short or ends beyond 5 ms, or TRANSACTION_LIMIT at
5 ms (that a short or late answer is counted as unanswered is the model's reading, log 26); and an answer whose check byte does not
agree. It is counted, and nothing changes of an UNSEEN or LOST shelf; an UP shelf counts its misses, and at the third is LOST: the loss
is counted, SHELF_LOST is offered with the number of drives that were present, the bays are cleared, BAY_CHANGE is offered and counted
for each bay that was occupied or ready, in ascending order, and the Placement Map is told that the drive has gone from each of the 16
bays, in ascending order, each taken as an event of its own: what it does with each, of a PRESENT, JOINING, AVAILABLE or ACTIVE member
(R30, R33, R36), is in ShelvesPolled, and nothing more happens where every member is ABSENT or FAILED. That the BAY_CHANGEs stand
before the notices of the members is the model's reading (log 24). The next address is polled, or the round has ended. Before the
limit, and with no transaction, TRANSACTION_LIMIT does nothing (log 1). -/
def Obligations.ShelvesMissed : Prop :=
  (∀ s : State, s.quiet → s.sm.transaction = none → exec .transactionLimit s = .next s)
    ∧ ∀ (s : State) (address start : Nat), s.quiet → s.sm.transaction = some (address, start) →
    let e := s.shelf address
    let goOn (m : ShelfMonitor) : ShelfMonitor :=
      if address < 15 then
        { m with transaction := some (address + 1, s.clock.now), abandoned := false,
                 counters := { m.counters with polls := min (m.counters.polls + 1) 4294967295 } }
      else { m with transaction := none }
    let missed (c : Instr) (counters : ShelfCounters) : Prop :=
      (e.state ≠ .up → exec c s = .next { s with sm := goOn { s.sm with counters := counters } })
        ∧ (e.state = .up → e.misses < 2 →
            exec c s = .next { s with sm := goOn { s.sm with
              counters := counters,
              shelves := tableWrite Shelf.unseen s.sm.shelves address { e with misses := e.misses + 1 } } })
        ∧ (e.state = .up → 2 ≤ e.misses →
            let old (i : Nat) := e.bays.getD i Bay.cleared
            let cleared : ShelfMonitor := { s.sm with
              counters := { counters with shelvesLost := min (counters.shelvesLost + 1) 4294967295 },
              shelves := tableWrite Shelf.unseen s.sm.shelves address
                { e with state := .lost, misses := 3, bays := List.replicate 16 Bay.cleared } }
            let lost : State :=
              State.offerNotice (.shelfLost address (e.bays.filter Bay.present).length) { s with sm := cleared }
            let noticed (t : State) (i : Nat) : State := State.offerNotice (.bayChange (16 * address + i) (old i) Bay.cleared)
              { t with sm := { t.sm with counters := { t.sm.counters with
                bayChanges := min (t.sm.counters.bayChanges + 1) 4294967295 } } }
            let told : State := ((List.range 16).filter (fun i => (old i).occupied || (old i).ready)).foldl noticed lost
            exec c s = .next (finish s { told with
                agenda := (List.range 16).map (fun i => .driveGone (16 * address + i)), sm := goOn told.sm })
              ∧ ((∀ i, i < 16 → (s.member (16 * address + i)).state = .absent ∨ (s.member (16 * address + i)).state = .failed) →
                  exec c s = .next { told with sm := goOn told.sm }))
    let unanswered : ShelfCounters := { s.sm.counters with unanswered := min (s.sm.counters.unanswered + 1) 4294967295 }
    missed (.statePollEnd .noAck) unanswered
      ∧ (∀ answer : List Byte, (answer.length ≠ 114 ∨ start + 5000 < s.clock.now) →
          missed (.statePollEnd (.bytes answer)) unanswered)
      ∧ (∀ answer : List Byte, answer.length = 114 → s.clock.now ≤ start + 5000 →
          answer.getD 113 0 ≠ complementSum (answer.take 113) →
          missed (.statePollEnd (.bytes answer))
            { s.sm.counters with badChecks := min (s.sm.counters.badChecks + 1) 4294967295 })
      ∧ (start + 5000 ≤ s.clock.now → missed .transactionLimit unanswered)
      ∧ (s.clock.now < start + 5000 → exec .transactionLimit s = .next s)

/-! ## The map store (R146 to R154, R82) -/

/-- A record becomes durable by a program and a read-back that brings the page as intended (R151). PAGE_PROGRAM_END with success begins
the read-back. READ_BACK_END: the record leaves the queue, the next page is the head's, the lasting state takes it, and then its owner
acts, the room wait list is served, and the store goes on (the model's order, log 21). With no program, or no read-back, under way
nothing happens (log 1).
What the owner does. PARAM: the value is in force and the request is answered OK (R55, R80, R81, R101, R132, R139, R174); a MOVE_RATE
of 0 lets every waiting lane pass (R81), and the token count stays (the model's choice, log 58). MEMBER: an admission whose label is
verified makes the member AVAILABLE and answers OK, and one whose label is not goes on (R32); the second record of a failed admission
answers DRIVE_ERROR (R33); that of a release or of a failure answers OK (R37, R38); any other changes nothing. SET_DEFINE: each member
has its band, an AVAILABLE one is ACTIVE, the set is in the state of its FAILED positions, and the reply is OK (R40). SET_RETIRE: each
member loses its band, an ACTIVE one without bands is AVAILABLE, and the set is UNUSED (R42). VOLUME_CREATE: the volume is ONLINE with
no slab (R43). GROW_CLOSE: each new slab is FILLING on its home with a FILL job at the tail of the FILL part, the volume has the new
count, and no slab comes to have two jobs (R46, R71). JOB_BEGIN: the slab is MOVING, and the lane begins its row, or its abort for a
recorded cause (R76). FRONT: the persisted front takes the value, and stays at most the front (R18, R77, R80). JOB_END of a FILL: the
slab is LIVE, its mark clear, the ready count recomputed, the lane IDLE (R83). JOB_END of a MOVE: the slab is LIVE on its target with
its mark clear, the target slot HOME, the old home left, the lane IDLE (R82), stated also for the whole command with another job
waiting. JOB_ABORT: the slab is LIVE on its home with its mark clear, the target left, the lane IDLE, and JOB_ABORTED is offered
(R86). DAMAGE_CLEAR: the request is answered OK (R124). REPLACE, DAMAGE_ADD and BLOCK_RETIRE: nothing more. The row of a
lane that is IDLE is 0 (the model's choice, log 62). -/
def Obligations.RecordsBecomeDurable : Prop :=
  (∀ s : State, s.quiet →
    (∀ start block page r, s.jc.op = some (.program start block page r) →
        exec (.pageProgramEnd true) s = .next { s with jc := { s.jc with op := some (.readBack s.clock.now block page r) } })
      ∧ ((∀ start block page r, s.jc.op ≠ some (.program start block page r)) →
          ∀ success, exec (.pageProgramEnd success) s = .next s)
      ∧ ((∀ start block page r, s.jc.op ≠ some (.readBack start block page r)) →
          ∀ bytes, exec (.readBackEnd bytes) s = .next s)
      ∧ (∀ start block page r, s.jc.op = some (.readBack start block page r) →
          (∀ arrayId params bad lost counts, r.body ≠ .imageBegin arrayId params bad lost counts) →
          (∀ first parts, r.body ≠ .imageEnd first parts) →
          exec (.readBackEnd (pageBytes r.seq r.body)) s = .next (finish s { s with
            agenda := [.recordDurable r, .roomServe, .storeNext],
            jc := { s.jc with
              queue := s.jc.queue.filter (fun k => k.seq ≠ r.seq),
              storePlace := s.jc.storePlace.filter (fun k => k.seq ≠ r.seq),
              imageRecord := if s.jc.imageRecord = some r then none else s.jc.imageRecord,
              durable := applyRecord r.seq r.body s.jc.durable, nextPage := page + 1, op := none,
              counters := { s.jc.counters with durable := min (s.jc.counters.durable + 1) 4294967295 } } }))
      ∧ (∀ start block page r, s.jc.op = some (.readBack start block page r) → s.jc.queue = [r] →
          s.jc.storePlace = [] → s.jc.imageRecord = none → s.jc.roomWait = [] → s.jc.state = .writing →
          s.jc.head = some block → (s.storeBlock block).cond = .head → page + 1 < 256 →
          (∀ b, (s.storeBlock b).cond ≠ .awaiting) →
          let written : Journal :=
            { s.jc with queue := [], durable := applyRecord r.seq r.body s.jc.durable, nextPage := page + 1, op := none,
                        counters := { s.jc.counters with durable := min (s.jc.counters.durable + 1) 4294967295 } }
          (∀ v tag, r.body = .param .holdLife v → r.owner = .gu → r.reply = some tag →
              exec (.readBackEnd (pageBytes r.seq r.body)) s = .next (State.answer tag .ok .empty
                { s with jc := written, gu := { s.gu with holdLife := v } }))
            ∧ (∀ n g target, n < 4 → r.body = .jobEnd g .move → r.owner = .lane n → s.me.jobs ≠ [] →
                let b := s.slab g
                b.target = some target → slotKey target ≠ slotKey b.home → (s.lane n).job.map Job.slab = some g →
                (s.lane n).pages = [] →
                (s.slot target).state = .target → (s.slot b.home).state = .home → (s.slot b.home).refs = 0 →
                ∃ t : State, exec (.readBackEnd (pageBytes r.seq r.body)) s = .next t
                  ∧ t.slab g = { b with state := .live, home := target, target := none, front := 0, persisted := 0,
                                        mark := false, salvage := false }
                  ∧ (∀ k, k ≠ g → t.slab k = s.slab k)
                  ∧ t.slot target = { s.slot target with state := .home, lane := none }
                  ∧ t.slot b.home = Slot.free
                  ∧ (∀ q, slotKey q ≠ slotKey target → slotKey q ≠ slotKey b.home → t.slot q = s.slot q)
                  ∧ t.set b.home.set = { s.set b.home.set with freeCount := (s.set b.home.set).freeCount + 1 }
                  ∧ (∀ k, k ≠ b.home.set → t.set k = s.set k)
                  ∧ t.lane n = Lane.idle ∧ (∀ m, m ≠ n → t.lane m = s.lane m)
                  ∧ t.me.counters = { s.me.counters with
                      movesCommitted := min (s.me.counters.movesCommitted + 1) 4294967295 }
                  ∧ t.me.jobs = s.me.jobs ∧ t.jc = written ∧ t.mp = s.mp ∧ t.gu = s.gu ∧ t.dp = s.dp ∧ t.sp = s.sp)))
    ∧ ∀ (u : State) (q : Nat),
      let told (body : RecordBody) (owner : JOwner) (reply : Option ReqTag) : State :=
        handle (.recordDurable ⟨q, body, owner, reply⟩) u
      let ok (tag : ReqTag) (t : State) : State := State.answer tag .ok .empty t
      let kept (t : State) : Prop :=
        t.gu = u.gu ∧ t.dp = u.dp ∧ t.sm = u.sm ∧ t.jc.durable = u.jc.durable ∧ t.part = u.part
      (∀ v tag,
          told (.param .holdLife v) .gu (some tag) = ok tag { u with gu := { u.gu with holdLife := v } }
            ∧ told (.param .driveTmo v) .dp (some tag) = ok tag { u with dp := { u.dp with driveTmo := v } }
            ∧ told (.param .pollPeriod v) .sm (some tag) = ok tag { u with sm := { u.sm with pollPeriod := v } }
            ∧ told (.param .backoffBits v) .me (some tag) = ok tag { u with me := { u.me with backoffBits := v } }
            ∧ told (.param .lockAfter v) .me (some tag) = ok tag { u with me := { u.me with lockAfter := v } }
            ∧ told (.param .ckptRows v) .me (some tag) = ok tag { u with me := { u.me with ckptRows := v } }
            ∧ told (.param .moveRate v) .me (some tag) = ok tag { u with
                me := { u.me with moveRate := v, tokenOrder := if v = 0 then [] else u.me.tokenOrder },
                agenda := u.agenda ++ (if v = 0 then u.me.tokenOrder.map Internal.rowStart else []) }
            ∧ (u.pm.busy = some (.slabSize tag) → told (.param .slabSize v) .pm (some tag) =
                ok tag { u with pm := { u.pm with slabSize := v, busy := none } }))
        ∧ (∀ tag id k durable capacity formatOk reply,
            (u.pm.busy = some (.joining tag id (some k) true durable) → (u.member id).state = .joining →
                told (.member id (.admission capacity formatOk)) .pm reply = State.answer tag .ok (.labelSeq k)
                  (State.offerNotice (.memberState id .joining .available)
                    { u with pm := { u.pm with
                      members := tableWrite Member.absent u.pm.members id
                        { u.member id with state := .available, labelSeq := some k },
                      busy := none } }))
              ∧ (u.pm.busy = some (.joining tag id (some k) false durable) →
                  told (.member id (.admission capacity formatOk)) .pm reply =
                    { u with pm := { u.pm with busy := some (.joining tag id (some k) false true) } })
              ∧ (u.pm.busy = some (.joinFailed tag id) → told (.member id .unadmitted) .pm reply =
                  State.answer tag .driveError .empty { u with pm := { u.pm with busy := none } })
              ∧ (∀ was, u.pm.busy = some (.releasing tag id was) → told (.member id .unadmitted) .pm (some tag) =
                  ok tag { u with pm := { u.pm with busy := none } })
              ∧ (u.pm.busy = some (.failing tag id) → told (.member id .failed) .pm (some tag) =
                  ok tag { u with pm := { u.pm with busy := none } })
              ∧ told (.member id .failed) .pm none = u ∧ told (.member id .available) .pm reply = u
              ∧ told (.member id .active) .pm reply = u)
        ∧ (∀ tag k unit bandLength positions reply, u.pm.busy = some (.defining tag k) →
            let e := u.set k
            (e.positions.map Position.member).Nodup →
            let t := told (.setDefine k unit bandLength positions) .pm reply
            let failed := (e.positions.filter (fun p => (u.member p.member).state = .failed)).length
            let state : SetState := if failed = 0 then .online else if failed = 1 then .degraded else .failed
            (∀ p ∈ e.positions, t.member p.member =
                { u.member p.member with
                  bands := (u.member p.member).bands ++ [⟨k, p.start⟩],
                  state := if (u.member p.member).state = .available then .active else (u.member p.member).state })
              ∧ (∀ id, (∀ p ∈ e.positions, p.member ≠ id) → t.member id = u.member id)
              ∧ t.set k = { e with failedCount := failed, state := state } ∧ (∀ j, j ≠ k → t.set j = u.set j)
              ∧ t.pm.busy = none ∧ t.pm.slots = u.pm.slots ∧ t.pm.slabs = u.pm.slabs ∧ t.pm.volumes = u.pm.volumes
              ∧ t.me = u.me ∧ t.sp = u.sp ∧ kept t
              ∧ ((∀ p ∈ e.positions, (u.member p.member).state ≠ .available) →
                  t.mp = (State.answer tag .ok (.setDefined k e.rows e.slots)
                    (u.offerNotice (.setState k .pending state failed))).mp ∧ t.jc = u.jc ∧ t.agenda = u.agenda))
        ∧ (∀ tag k reply, u.pm.busy = some (.retiring tag k) →
            let e := u.set k
            (e.positions.map Position.member).Nodup →
            let t := told (.setRetire k) .pm reply
            let bands (id : Nat) : List Band := (u.member id).bands.filter (fun b => b.set ≠ k)
            let idle (id : Nat) : Prop := (u.member id).state = .active ∧ bands id = []
            (∀ p ∈ e.positions,
                (idle p.member → t.member p.member = { u.member p.member with state := .available, bands := [] })
                  ∧ (¬idle p.member → t.member p.member = { u.member p.member with bands := bands p.member }))
              ∧ (∀ id, (∀ p ∈ e.positions, p.member ≠ id) → t.member id = u.member id)
              ∧ t.set k = SetEntry.unused ∧ (∀ j, j ≠ k → t.set j = u.set j)
              ∧ t.pm.busy = none ∧ t.pm.slots = u.pm.slots ∧ t.pm.slabs = u.pm.slabs ∧ t.pm.volumes = u.pm.volumes
              ∧ t.me = u.me ∧ t.sp = u.sp ∧ kept t
              ∧ ((∀ p ∈ e.positions, ¬idle p.member) →
                  t.mp = (State.answer tag .ok .empty (u.offerNotice (.setState k e.state .unused 0))).mp ∧ t.jc = u.jc
                    ∧ t.agenda = u.agenda ++ [.setChanged k .unused]))
        ∧ (u.journalOpen → ∀ (k : Nat) (p : Position),
            let m := u.member p.member
            let changed (old new : MemberState) (bands : List Band) : State :=
              (State.withRecord .pm (.member p.member (if new = .active then .active else .available)) none
                (State.offerNotice (.memberState p.member old new) { u with pm := { u.pm with
                  members := tableWrite Member.absent u.pm.members p.member { m with state := new, bands := bands } } })).post
                (.recordQueued ⟨u.jc.nextSeq, .member p.member (if new = .active then .active else .available), .pm, none⟩)
            (m.state = .available → joinBand k p u = changed .available .active (m.bands ++ [⟨k, p.start⟩]))
              ∧ (m.state = .active → m.bands.filter (fun b => b.set ≠ k) = [] →
                  leaveBand k p u = changed .active .available []))
        ∧ (∀ tag v id base limit pool reply, u.pm.busy = some (.creating tag v) →
            told (.volumeCreate id base limit pool) .pm reply = State.answer tag .ok (.mapBase (u.volume v).base)
              { u with pm := { u.pm with
                volumes := tableWrite Volume.unused u.pm.volumes v { u.volume v with state := .online, count := 0, ready := 0 },
                busy := none } })
        ∧ (∀ w parts reply, u.pm.busy = some (.growing w) → (w.homes.map Placement.slab).Nodup →
            let t := told (.growClose parts) .pm reply
            let jobs : List Job := w.homes.map (fun p =>
              { kind := .fill, slab := p.slab, candidates := 0, salvage := false, resume := none, retained := none,
                cause := none })
            t.me.jobs = u.me.jobs.takeWhile (fun j => j.kind = .fill) ++ jobs ++ u.me.jobs.dropWhile (fun j => j.kind = .fill)
              ∧ (∀ p ∈ w.homes, t.slab p.slab =
                  { state := .filling, volume := w.volume, home := p.place, target := none, front := 0, persisted := 0,
                    mark := true, salvage := false })
              ∧ (∀ g, (∀ p ∈ w.homes, p.slab ≠ g) → t.slab g = u.slab g)
              ∧ t.volume w.volume = { u.volume w.volume with count := w.new, ready := t.readyCount w.volume }
              ∧ (∀ v, v ≠ w.volume → t.volume v = u.volume v)
              ∧ t.pm.busy = none ∧ t.pm.slots = u.pm.slots ∧ t.pm.sets = u.pm.sets ∧ t.pm.members = u.pm.members
              ∧ t.me.lanes = u.me.lanes ∧ t.sp = u.sp ∧ kept t ∧ t.jc = u.jc
              ∧ t.mp = (State.answer w.tag .ok (.grown w.new (t.readyCount w.volume))
                  (if t.readyCount w.volume = w.new ∧ (u.volume w.volume).ready < w.new then
                    u.offerNotice (.growReady w.volume w.new)
                  else u)).mp
              ∧ (u.jobsLawful → (∀ p ∈ w.homes, p.slab ∉ u.jobSlabs) → w.homes.length ≤ w.new - w.old → t.jobsLawful))
        ∧ (∀ n g target salvage reply,
            let begun : State := u.setSlab g
              { u.slab g with state := .moving, target := some target, front := 0, persisted := 0, salvage := salvage }
            ((u.lane n).cause = none → told (.jobBegin g target salvage) (.lane n) reply = startAttempt n begun)
              ∧ (∀ cause, (u.lane n).cause = some cause →
                  told (.jobBegin g target salvage) (.lane n) reply = abortLane n cause begun))
        ∧ (∀ n g value reply,
            let t := told (.front g value) (.lane n) reply
            (u.replacePending g = false → value ≤ (u.slab g).front → t = u.setSlab g { u.slab g with persisted := value })
              ∧ (u.replacePending g = true ∨ (u.slab g).front < value → t = u)
              ∧ ((u.slab g).persisted ≤ (u.slab g).front → (t.slab g).persisted ≤ (t.slab g).front))
        ∧ (∀ n g reply, u.sp.waiting = [] →
            let b := u.slab g
            let free := (u.lane n).pages.foldr insertRising u.sp.free
            let ends (t : State) (counters : MoveCounters) : Prop :=
              (∀ k, k ≠ g → t.slab k = u.slab k) ∧ t.lane n = Lane.idle ∧ (∀ m, m ≠ n → t.lane m = u.lane m)
                ∧ t.me.jobs = u.me.jobs ∧ t.me.counters = counters ∧ t.sp = { u.sp with free := free }
                ∧ t.pm.members = u.pm.members ∧ kept t ∧ t.jc = u.jc
            ((u.slot b.home).state = .home →
                let t := told (.jobEnd g .fill) (.lane n) reply
                t.slab g = { b with state := .live, front := 0, persisted := 0, mark := false }
                  ∧ t.volume b.volume = { u.volume b.volume with ready := t.readyCount b.volume }
                  ∧ (∀ v, v ≠ b.volume → t.volume v = u.volume v)
                  ∧ t.slot b.home = { u.slot b.home with lane := none }
                  ∧ (∀ p, slotKey p ≠ slotKey b.home → t.slot p = u.slot p) ∧ t.pm.sets = u.pm.sets
                  ∧ t.mp = (if t.readyCount b.volume = (u.volume b.volume).count
                        ∧ (u.volume b.volume).ready < (u.volume b.volume).count then
                      u.offerNotice (.growReady b.volume (u.volume b.volume).count)
                    else u).mp
                  ∧ ends t { u.me.counters with fillsEnded := min (u.me.counters.fillsEnded + 1) 4294967295 })
              ∧ (∀ p, b.target = some p → slotKey p ≠ slotKey b.home → (u.slot p).state = .target →
                  (u.slot b.home).state = .home →
                  let left (k : Place) (t : State) : Prop :=
                    ((u.slot k).refs = 0 → t.slot k = Slot.free
                        ∧ t.set k.set = { u.set k.set with freeCount := (u.set k.set).freeCount + 1 })
                      ∧ ((u.slot k).refs ≠ 0 → t.slot k = { u.slot k with state := .draining, lane := none }
                          ∧ t.set k.set = u.set k.set)
                      ∧ (∀ j, j ≠ k.set → t.set j = u.set j)
                      ∧ (∀ k', slotKey k' ≠ slotKey p → slotKey k' ≠ slotKey b.home → t.slot k' = u.slot k')
                      ∧ t.pm.volumes = u.pm.volumes
                  let t := told (.jobEnd g .move) (.lane n) reply
                  let r := told (.jobAbort g) (.lane n) reply
                  t.slab g = { b with state := .live, home := p, target := none, front := 0, persisted := 0, mark := false,
                                      salvage := false }
                    ∧ t.slot p = { u.slot p with state := .home, lane := none } ∧ left b.home t ∧ t.mp = u.mp
                    ∧ ends t { u.me.counters with movesCommitted := min (u.me.counters.movesCommitted + 1) 4294967295 }
                    ∧ r.slab g = { b with state := .live, target := none, front := 0, persisted := 0, mark := false,
                                          salvage := false }
                    ∧ r.slot b.home = { u.slot b.home with lane := none } ∧ left p r
                    ∧ r.mp = (u.offerNotice (.jobAborted b.volume (g - (u.volume b.volume).base) g .move
                        ((u.lane n).cause.getD .cancelled) b.front)).mp
                    ∧ ends r { u.me.counters with movesAborted := min (u.me.counters.movesAborted + 1) 4294967295 }))
        ∧ (∀ n tag volume first count g place d block,
            told (.damageClear volume first count) .me (some tag) = ok tag u
              ∧ told (.replace g place) (.lane n) none = u ∧ told (.damageAdd d) (.lane n) none = u
              ∧ told (.blockRetire block) .jc none = u)

/-- A failed operation on the map store, in service (R146, R152, R153, R157). A failed program, one whose read-back brings another page,
and one ended at 50 ms: the fault names the block, the block's failed-page count rises, the failure is counted, and the same record is
programmed at the next page; stated for a block that it is not the third failure of, with a page left. The third failure retires the
block, which is the head: it is bad, its BLOCK_RETIRE takes the next number, and the same record is programmed at page 0 of the block
that follows, which is HEAD, stated with nine ERASED blocks; with 16 usable blocks before it the head moves on as well, and the
journal enters FROZEN with FEW_BLOCKS. An erase that fails, or is ended at 2 s: the fault, the block is bad, and its BLOCK_RETIRE
takes the next number and is programmed; stated with 17 usable blocks and an empty queue. An erase that succeeds leaves the block
ERASED with a failed-page count of 0. Before an operation's limit, and with no operation, STORE_OP_TIMEOUT does nothing; nor does
ERASE_END with no erase under way (log 1).
The ring and its compaction (R154 to R156). A spent head becomes WRITTEN and the block that follows, where it is ERASED, is HEAD at
page 0; one that awaits its erase is waited for, and for want of one the journal freezes with NO_ERASED_BLOCK. An opening that leaves
fewer than 8 ERASED blocks, while the journal is WRITING and none awaits its erase, begins the compaction: COMPACTING, its notice, the
admission closed. With nothing queued the image is made from the lasting state, and its records take their numbers one after another
as they are written: IMAGE_BEGIN with the items of R149, the parts with the whole entries of each section in order and at most 244
bytes, IMAGE_END with the number of IMAGE_BEGIN and the number of parts; an open growth stands last, its GROW_OPEN and then each of
its GROW_PARTs in a part of its own. IMAGE_BEGIN durable: its number and block are kept. IMAGE_END durable: the WRITTEN blocks before
that block, in ring order, await their erase, and the journal is WRITING with its admission open and its notice. FROZEN (R158): the
journal and the part are FROZEN with the cause, no record or operation is left, the discarded ones are counted, JOURNAL_STATE is
offered, and the owners are told: of the discarded records in the order of the queue, of the records that waited for room, the lanes,
and the Placement Map. An owner other than it and the lanes answers its request JOURNAL_DOWN; a lane in CLAIMING is IDLE with its
target left, and its job stands at the head of the MOVE part, or with a recorded cause is removed (R76). A lane's FRONT, REPLACE or
end of job that waited for room is dropped, and the lane asks for its pages (R80); its damage that waited goes to the list in memory,
with DAMAGE_ADDED (R122). The model's choices and readings here: the order in which the lanes are told (log 37), JOURNAL_STATE ahead
of the replies (log 24), row 0 of a lane that is IDLE (log 62), and that a block is opened as soon as the head is spent (log 21). -/
def Obligations.StoreOperationsEnd : Prop :=
  (∀ s : State, s.quiet →
    (s.jc.op = none → exec .storeOpTimeout s = .next s)
      ∧ ((∀ start block, s.jc.op ≠ some (.erase start block)) → ∀ success, exec (.eraseEnd success) s = .next s)
      ∧ (s.jc.format = none → s.jc.state = .writing → ∀ head, s.jc.head = some head → (s.storeBlock head).cond = .head →
          s.jc.nextPage < 256 →
          (∀ (start block page : Nat) (r : Record) (kind : FaultKind) (c : Instr),
              ((s.jc.op = some (.program start block page r) ∧ c = .pageProgramEnd false ∧ kind = .storeProgram)
                ∨ (s.jc.op = some (.program start block page r) ∧ c = .storeOpTimeout ∧ start + 50000 ≤ s.clock.now
                    ∧ kind = .storeTimeout)
                ∨ (s.jc.op = some (.readBack start block page r) ∧ c = .storeOpTimeout ∧ start + 50000 ≤ s.clock.now
                    ∧ kind = .storeTimeout)
                ∨ (∃ bytes, s.jc.op = some (.readBack start block page r) ∧ c = .readBackEnd bytes
                    ∧ bytes ≠ pageBytes r.seq r.body ∧ kind = .storeProgram)) →
              block = head → page + 1 < 256 → s.jc.nextRecord = some r → (s.storeBlock block).failedPages ≠ 2 →
              exec c s = .next (State.offerFault { FaultOffer.bare kind with storeBlock := some block }
                { s with jc := { s.jc with
                  blocks := tableWrite StoreBlock.written s.jc.blocks block
                    { s.storeBlock block with failedPages := (s.storeBlock block).failedPages + 1 },
                  nextPage := page + 1, op := some (.program s.clock.now block (page + 1) r),
                  counters := { s.jc.counters with
                    programFailures := min (s.jc.counters.programFailures + 1) 4294967295 } } }))
            ∧ (∀ (start block page : Nat) (r : Record) (kind : FaultKind) (c : Instr),
                ((s.jc.op = some (.program start block page r) ∧ c = .pageProgramEnd false ∧ kind = .storeProgram)
                  ∨ (s.jc.op = some (.program start block page r) ∧ c = .storeOpTimeout ∧ start + 50000 ≤ s.clock.now
                      ∧ kind = .storeTimeout)
                  ∨ (s.jc.op = some (.readBack start block page r) ∧ c = .storeOpTimeout ∧ start + 50000 ≤ s.clock.now
                      ∧ kind = .storeTimeout)
                  ∨ (∃ bytes, s.jc.op = some (.readBack start block page r) ∧ c = .readBackEnd bytes
                      ∧ bytes ≠ pageBytes r.seq r.body ∧ kind = .storeProgram)) →
                block = head → head < 64 → s.jc.nextRecord = some r → r.seq < s.jc.nextSeq → s.jc.nextSeq ≤ 4294967295 →
                (s.storeBlock block).failedPages = 2 → ∀ next, s.followingBlock head = some next →
                (s.storeBlock next).cond = .erased →
                let retired : Journal := { s.jc with
                  blocks := tableWrite StoreBlock.written
                    (tableWrite StoreBlock.written s.jc.blocks block ⟨.bad, 3⟩) next { s.storeBlock next with cond := .head },
                  head := some next, nextPage := 0, nextSeq := s.jc.nextSeq + 1,
                  storePlace := s.jc.storePlace ++ [⟨s.jc.nextSeq, .blockRetire block, .jc, none⟩],
                  counters := { s.jc.counters with
                    programFailures := min (s.jc.counters.programFailures + 1) 4294967295,
                    retired := min (s.jc.counters.retired + 1) 4294967295 } }
                let faulted (t : State) : State :=
                  State.offerFault { FaultOffer.bare kind with storeBlock := some block } t
                (17 ≤ s.usableBlocks → 9 ≤ (s.blocksIn .erased).length →
                    exec c s = .next (faulted
                      { s with jc := { retired with op := some (.program s.clock.now next 0 r) } }))
                  ∧ (s.usableBlocks = 16 → exec c s = .next (finish s (faulted
                      { s with jc := { retired with op := none }, agenda := [.freeze .fewBlocks] }))))
            ∧ (∀ (start block : Nat) (kind : FaultKind) (c : Instr), s.jc.op = some (.erase start block) →
                ((c = .eraseEnd false ∧ kind = .storeErase)
                  ∨ (c = .storeOpTimeout ∧ start + 2000000 ≤ s.clock.now ∧ kind = .storeTimeout)) →
                block ≠ head → block < 64 → (s.storeBlock block).cond ≠ .bad → 17 ≤ s.usableBlocks → s.jc.queue = [] →
                s.jc.storePlace = [] → s.jc.imageRecord = none → s.jc.nextSeq ≤ 4294967295 →
                let retire : Record := ⟨s.jc.nextSeq, .blockRetire block, .jc, none⟩
                exec c s = .next (State.offerFault { FaultOffer.bare kind with storeBlock := some block }
                  { s with jc := { s.jc with
                    blocks := tableWrite StoreBlock.written s.jc.blocks block { s.storeBlock block with cond := .bad },
                    storePlace := [retire], nextSeq := s.jc.nextSeq + 1,
                    op := some (.program s.clock.now head s.jc.nextPage retire),
                    counters := { s.jc.counters with
                      eraseFailures := min (s.jc.counters.eraseFailures + 1) 4294967295,
                      retired := min (s.jc.counters.retired + 1) 4294967295 } } }))
            ∧ (∀ start block, s.jc.op = some (.erase start block) →
                (s.clock.now < start + 2000000 → exec .storeOpTimeout s = .next s)
                  ∧ (block ≠ head → s.jc.nextRecord = none → (∀ b, b ≠ block → (s.storeBlock b).cond ≠ .awaiting) →
                      exec (.eraseEnd true) s = .next { s with jc := { s.jc with
                        blocks := tableWrite StoreBlock.written s.jc.blocks block ⟨.erased, 0⟩, op := none } }))))
    ∧ (∀ (s : State) (h b : Nat), h < 64 → s.jc.head = some h → (s.storeBlock h).cond = .head → 256 ≤ s.jc.nextPage →
        let opened : State := { s with jc := { s.jc with
          blocks := tableWrite StoreBlock.written
            (tableWrite StoreBlock.written s.jc.blocks h { s.storeBlock h with cond := .written }) b
            { s.storeBlock b with cond := .head },
          head := some b, nextPage := 0 } }
        let compacts : Prop := (s.blocksIn .erased).length ≤ 8 ∧ s.jc.state = .writing ∧ s.blocksIn .awaiting = []
        (s.followingBlock h = none → openNext s = s.post (.freeze .noErasedBlock))
          ∧ (s.followingBlock h = some b →
              ((s.storeBlock b).cond = .erased → ¬compacts → openNext s = opened)
                ∧ ((s.storeBlock b).cond = .erased → compacts → openNext s = State.offerNotice (.journalState .compacting none)
                    { opened with jc := { opened.jc with state := .compacting, admission := false, imageBuilt := false } })
                ∧ ((s.storeBlock b).cond = .awaiting → openNext s = s)
                ∧ ((s.storeBlock b).cond = .written → openNext s = s.post (.freeze .noErasedBlock))))
    ∧ (∀ (s : State) (h : Nat), s.jc.state = .compacting → s.jc.op = none → s.jc.queue = [] → s.jc.storePlace = [] →
        s.jc.imageRecord = none → s.jc.head = some h → s.headSpent = false → s.jc.nextSeq ≤ 4294967295 →
        let a := s.jc.durable
        let writes (body : RecordBody) (rest : List RecordBody) : Journal :=
          { s.jc with imageBuilt := true, image := rest, imageRecord := some ⟨s.jc.nextSeq, body, .jc, none⟩,
                      nextSeq := s.jc.nextSeq + 1,
                      op := some (.program s.clock.now h s.jc.nextPage ⟨s.jc.nextSeq, body, .jc, none⟩) }
        (s.jc.imageBuilt = false → kickStore s = { s with
          jc := writes (.imageBegin a.arrayId a.params a.bad a.lost a.imageCounts)
            (a.imageParts.map RecordBody.imagePart ++ [.imageEnd s.jc.nextSeq a.imageParts.length]) })
          ∧ (∀ body rest, s.jc.imageBuilt = true → s.jc.image = body :: rest → kickStore s = { s with jc := writes body rest }))
    ∧ (∀ a : Account, a.growth = none → (∀ e ∈ a.sets, ∀ d, e.2 = some d → d.positions.length ≤ 16) →
        (∀ part ∈ a.imageParts, part.length ≤ 244)
          ∧ a.imageParts.flatten = (a.members.map memberEntry).flatten ++ (a.sets.map setEntryBytes).flatten
              ++ (a.volumes.map volumeEntry).flatten ++ (a.slabs.map slabEntry).flatten ++ (a.damage.map damageEntry).flatten
          ∧ a.imageCounts = ⟨a.members.length, a.sets.length, a.volumes.length, a.slabs.length, a.damage.length, 0⟩)
    ∧ (∀ (a : Account) (growth : OpenGrowth), a.growth = some growth →
        a.imageParts = { a with growth := none }.imageParts
              ++ (RecordBody.growOpen growth.volume growth.old growth.new growth.pool).payload
                :: growth.parts.map (fun placements => placements.flatMap placementBytes)
          ∧ a.imageCounts = { { a with growth := none }.imageCounts with growth := growth.parts.length + 1 }
          ∧ ((∀ placements ∈ growth.parts, placements.length ≤ 61) →
              ∀ part ∈ growth.parts.map (fun placements => placements.flatMap placementBytes), part.length ≤ 244))
    ∧ (∀ (s : State) (start block page : Nat) (r : Record), s.quiet → s.jc.format = none →
        s.jc.op = some (.readBack start block page r) →
        let written : Journal :=
          { s.jc with
            queue := s.jc.queue.filter (fun k => k.seq ≠ r.seq),
            storePlace := s.jc.storePlace.filter (fun k => k.seq ≠ r.seq),
            imageRecord := if s.jc.imageRecord = some r then none else s.jc.imageRecord,
            nextPage := page + 1, op := none,
            counters := { s.jc.counters with durable := min (s.jc.counters.durable + 1) 4294967295 } }
        let told : List Internal := [.recordDurable r, .roomServe, .storeNext]
        (∀ arrayId params bad lost counts, r.body = .imageBegin arrayId params bad lost counts →
            exec (.readBackEnd (pageBytes r.seq r.body)) s = .next (finish s
              { s with agenda := told, jc := { written with imageStart := some (r.seq, block) } }))
          ∧ (∀ first parts seq begun h, r.body = .imageEnd first parts → s.jc.state = .compacting →
              s.jc.imageStart = some (seq, begun) → s.jc.head = some h →
              ∃ t : State, exec (.readBackEnd (pageBytes r.seq r.body)) s = .next (finish s t)
                ∧ t.agenda = told
                ∧ (∀ b, b < 64 → t.storeBlock b = { s.storeBlock b with
                    cond := if (s.storeBlock b).cond = .written ∧ ringDistance h b < ringDistance h begun then .awaiting
                      else (s.storeBlock b).cond })
                ∧ { t.jc with blocks := s.jc.blocks } = { written with
                    state := .writing, admission := true, newestImage := some (seq, begun), imageStart := none,
                    imageBuilt := false,
                    counters := { written.counters with compactions := min (s.jc.counters.compactions + 1) 4294967295 } }
                ∧ t.mp = (s.offerNotice (.journalState .writing none)).mp
                ∧ { t with jc := s.jc, mp := s.mp, agenda := s.agenda } = s))
    ∧ (∀ (u : State) (cause : FrozenCause),
        let discarded := u.jc.queue ++ u.jc.storePlace
        (u.jc.active = false → handle (.freeze cause) u = u)
          ∧ (u.jc.active = true → handle (.freeze cause) u = State.offerNotice (.journalState .frozen (some cause))
              { u with
                part := .frozen,
                agenda := u.agenda ++ (discarded.map Internal.recordDiscarded
                  ++ u.jc.roomWait.flatMap (fun e => e.2.map (fun w => Internal.recordUnmade e.1 w))
                  ++ [.laneFrozen 0, .laneFrozen 1, .laneFrozen 2, .laneFrozen 3, .pmFrozen]),
                jc := { u.jc with
                  state := .frozen, cause := some cause, op := none, queue := [], storePlace := [], roomWait := [],
                  admission := false, imageBuilt := false, image := [], imageRecord := none, imageStart := none,
                  counters := { u.jc.counters with
                    discarded := min (u.jc.counters.discarded + discarded.length) 4294967295 } } }))
    ∧ (∀ (u : State) (q : Nat) (body : RecordBody) (tag : ReqTag) (owner : JOwner),
        owner = .gu ∨ owner = .me ∨ owner = .dp ∨ owner = .sm →
        handle (.recordDiscarded ⟨q, body, owner, some tag⟩) u = u.answer tag .journalDown .empty
          ∧ handle (.recordUnmade owner ⟨body, some tag⟩) u = u.answer tag .journalDown .empty)
    ∧ (∀ (u : State) (n g front : Nat) (place : Place) (kind : JobKind) (d : Damage),
        let unmade (body : RecordBody) : State := handle (.recordUnmade (.lane n) ⟨body, none⟩) u
        let listed := damageAdd d u.me.damage
        let l := u.lane n
        let pages := (u.rowSet l).width * ((u.rowSet l).unit / 16)
        unmade (.front g front) = askPages n u ∧ unmade (.replace g place) = askPages n u
          ∧ unmade (.jobEnd g kind) = askPages n u ∧ unmade (.jobAbort g) = askPages n u
          ∧ unmade (.damageAdd d) = askPages n (State.offerNotice (.damageAdded d (decide (0 < listed.2)))
              { u with me := { u.me with
                damage := listed.1,
                lost := if listed.1 = [] then false else u.me.lost || decide (0 < listed.2),
                counters := { u.me.counters with
                  damageOverflow := min (u.me.counters.damageOverflow + listed.2) 4294967295 } } })
          ∧ (l.state ≠ .waitPages ∨ l.pages ≠ [] → askPages n u = u)
          ∧ (l.state = .waitPages → l.pages = [] → u.jc.roomWait = [] → u.onPageList n = false →
              (u.sp.waiting ≠ [] ∨ u.sp.free.length < pages →
                  askPages n u = { u with sp := { u.sp with waiting := u.sp.waiting ++ [(n, pages)] } })
                ∧ (u.sp.waiting = [] → pages ≤ u.sp.free.length →
                    askPages n u = { u.setLane n { l with pages := u.sp.free.take pages } with
                      sp := { u.sp with free := u.sp.free.drop pages }, agenda := u.agenda ++ [.pagesGranted n] })))
    ∧ (∀ (u : State) (q n : Nat) (g : Nat) (target : Place) (salvage : Bool),
        let l := u.lane n
        let told := handle (.laneFrozen n) u
        handle (.recordDiscarded ⟨q, .jobBegin g target salvage, .lane n, none⟩) u = told
          ∧ handle (.recordUnmade (.lane n) ⟨.jobBegin g target salvage, none⟩) u = askPages n told
          ∧ (l.state ≠ .claiming → told = u)
          ∧ (∀ j place, l.state = .claiming → l.job = some j → l.target = some place → l.pages = [] →
              let home := (u.slab j.slab).home
              slotKey place ≠ slotKey home → (u.slot place).state = .target → (u.slot place).refs = 0 →
              (u.slot home).state = .home →
              told.lane n = Lane.idle ∧ (∀ m, m ≠ n → told.lane m = u.lane m)
                ∧ told.slot place = Slot.free
                ∧ told.set place.set = { u.set place.set with freeCount := (u.set place.set).freeCount + 1 }
                ∧ told.slot home = { u.slot home with lane := none }
                ∧ (∀ k, slotKey k ≠ slotKey place → slotKey k ≠ slotKey home → told.slot k = u.slot k)
                ∧ (l.cause = none → told.me.jobs = u.me.jobs.takeWhile (fun i => i.kind = .fill) ++ [j]
                      ++ u.me.jobs.dropWhile (fun i => i.kind = .fill)
                    ∧ told.pm.slabs = u.pm.slabs ∧ told.mp = u.mp)
                ∧ (∀ cause, l.cause = some cause → told.me.jobs = u.me.jobs
                    ∧ told.slab j.slab = { u.slab j.slab with mark := false }
                    ∧ told.mp = (u.offerNotice (.jobAborted (u.slab j.slab).volume
                        (j.slab - (u.volume (u.slab j.slab).volume).base) j.slab j.kind cause 0)).mp)))

/-! ## Start-up and FORMAT (R160, R163 to R166) -/

/-- JOURNAL_SCAN (R163). The pages are the command's operand (the model's choice, log 8). Of two valid pages with one number the later one
counts, in ring order (log 20). A store without a complete image, that is, in which no IMAGE_END page stands with the page of its
IMAGE_BEGIN, a page for every number between the two, and as many parts among them as it says: the part is BLANK with no cause and
PART_STATE is offered; the flush is sent and the first shelf round begins. Else the newest complete image is applied, and then the
later records one after another, up to the first number that no valid page carries; the ring is set, the head the block of the newest
record (R154), and the first shelf round begins. Stated whole for an image of no entries and one later record, first a PARAM of
HOLD_LIFE: the part is still STARTING, the image's ARRAY_ID and parameters are in force with the later HOLD_LIFE, and the next number
follows the last record (R154, R163, R164); then a record of any other kind that is no IMAGE_END.
The image of a lasting state is read back as that state, whole (R149, R156), with the BLOCK_RETIRE records that stand within it. What
the replay leaves is loaded: each set with its geometry, its failed count and its state from the members (R8), and the slots that no slab
takes FREE; each slab with its front at its persisted front, its home slot HOME and its target slot TARGET in its name (R16); each volume
with its ready count (R14, R15); the members, the list and the parameters. The blocks of the ring take their conditions (R154); a full head
with no ERASED block after it stays (the model's choice, log 54).
The lasting state that the records define (R149), for each kind of record. STORE_OP_TIMEOUT at 50 ms of the scan (counted from the
beginning of the whole scan, log 8): a STORE_TIMEOUT fault and BLANK with STORE_FAULT. With no scan under way JOURNAL_SCAN does nothing
(log 1). -/
def Obligations.JournalScanned : Prop :=
  (∀ (s : State) (pages : List (Nat × List Byte)), s.quiet →
    let begun (j : Journal) (t : State) : State :=
      { t with
        stage := .firstRound, jc := { j with op := none },
        dp := { t.dp with flush := .waiting 1 s.clock.now, sent := t.dp.sent ++ [.flush] },
        sm := { t.sm with roundStart := some s.clock.now, transaction := some (0, s.clock.now), abandoned := false,
                          counters := { t.sm.counters with polls := min (t.sm.counters.polls + 1) 4294967295 } } }
    ((∀ start, s.jc.op ≠ some (.scan start)) → exec (.journalScan pages) s = .next s)
      ∧ (∀ start, s.jc.op = some (.scan start) →
          ((∀ v ∈ validPages pages, ∀ first parts, v.body ≠ .imageEnd first parts) →
              exec (.journalScan pages) s = .next
                (State.offerNotice (.partState (.blank none)) (begun s.jc { s with part := .blank none })))
            ∧ (start + 50000 ≤ s.clock.now →
                exec .storeOpTimeout s = .next (State.offerNotice (.partState (.blank (some .storeFault)))
                  (begun s.jc (State.offerFault (FaultOffer.bare .storeTimeout)
                    { s with part := .blank (some .storeFault) }))))
            ∧ (s.clock.now < start + 50000 → exec .storeOpTimeout s = .next s)
            ∧ (∀ (p0 p1 p2 : List Byte) (arrayId : BitVec 64) (params : Params) (bad : BitVec 64) (lost : Bool) (v : Nat),
                pages = [(0, p0), (1, p1), (2, p2)] →
                judgePage p0 = .valid 1 (.imageBegin arrayId params bad lost ⟨0, 0, 0, 0, 0, 0⟩) →
                judgePage p1 = .valid 2 (.imageEnd 1 0) → judgePage p2 = .valid 3 (.param .holdLife v) →
                bad.getLsbD 0 = false →
                ∃ t : State, exec (.journalScan pages) s = .next t
                  ∧ t.part = s.part ∧ t.stage = .firstRound
                  ∧ t.pm.arrayId = arrayId ∧ t.pm.slabSize = params.slabSize
                  ∧ t.gu.holdLife = v ∧ t.dp.driveTmo = params.driveTmo ∧ t.sm.pollPeriod = params.pollPeriod
                  ∧ t.me.backoffBits = params.backoffBits ∧ t.me.lockAfter = params.lockAfter
                  ∧ t.me.ckptRows = params.ckptRows ∧ t.me.moveRate = params.moveRate
                  ∧ t.me.damage = [] ∧ t.pm.members = []
                  ∧ t.jc.nextSeq = 4 ∧ t.jc.head = some 0 ∧ t.jc.nextPage = 3 ∧ t.jc.op = none
                  ∧ t.jc.newestImage = some (1, 0)
                  ∧ (t.storeBlock 0).cond = .head
                  ∧ (∀ b, 0 < b → b < 64 →
                      (t.storeBlock b).cond = if bad.getLsbD b = true then .bad else .erased)
                  ∧ t.dp.flush = .waiting 1 s.clock.now ∧ t.sm.transaction = some (0, s.clock.now)
                  ∧ t.mp = s.mp)))
    ∧ (∀ (s : State) (pages : List (Nat × List Byte)) (start : Nat), s.quiet → s.jc.op = some (.scan start) →
        let vs := distinctPages (validPages pages)
        ((∀ v ∈ vs, imageOf vs v = none) →
            exec (.journalScan pages) s = .next (State.offerNotice (.partState (.blank none)) { s with
              part := .blank none, stage := .firstRound, jc := { s.jc with op := none },
              dp := { s.dp with flush := .waiting 1 s.clock.now, sent := s.dp.sent ++ [.flush] },
              sm := { s.sm with
                roundStart := some s.clock.now, transaction := some (0, s.clock.now), abandoned := false,
                counters := { s.sm.counters with polls := min (s.sm.counters.polls + 1) 4294967295 } } }))
          ∧ (∀ image newest, newestImage vs = some image → newestPage vs = some newest →
              let replayed := replay vs vs.length (image.endSeq + 1) (imageAccount image)
              exec (.journalScan pages) s = .next (finish s (firstRound
                (setRing pages replayed.1 image replayed.2 (newest.page / 256) (loadAccount replayed.1 s)))))
          ∧ (∀ (p0 p1 p2 : List Byte) (arrayId : BitVec 64) (params : Params) (bad : BitVec 64) (lost : Bool)
              (body : RecordBody), pages = [(0, p0), (1, p1), (2, p2)] →
              judgePage p0 = .valid 1 (.imageBegin arrayId params bad lost ⟨0, 0, 0, 0, 0, 0⟩) →
              judgePage p1 = .valid 2 (.imageEnd 1 0) → judgePage p2 = .valid 3 body →
              (∀ first parts, body ≠ .imageEnd first parts) →
              let a := applyRecord 3 body { Account.fresh with arrayId := arrayId, params := params, bad := bad, lost := lost }
              ∃ t : State, exec (.journalScan pages) s = .next t
                ∧ t.part = s.part ∧ t.stage = .firstRound ∧ t.jc.durable = a ∧ t.jc.nextSeq = 4
                ∧ t.jc.newestImage = some (1, 0) ∧ t.jc.op = none
                ∧ t.pm.arrayId = arrayId ∧ t.pm.slabSize = a.params.slabSize ∧ t.pm.members = a.members
                ∧ t.gu.holdLife = a.params.holdLife ∧ t.dp.driveTmo = a.params.driveTmo
                ∧ t.sm.pollPeriod = a.params.pollPeriod ∧ t.me.backoffBits = a.params.backoffBits
                ∧ t.me.lockAfter = a.params.lockAfter ∧ t.me.ckptRows = a.params.ckptRows
                ∧ t.me.moveRate = a.params.moveRate ∧ t.me.damage = a.damage ∧ t.me.lost = a.lost
                ∧ t.dp.flush = .waiting 1 s.clock.now ∧ t.sm.transaction = some (0, s.clock.now) ∧ t.mp = s.mp))
    ∧ (∀ (vs : List ValidPage) (v : ValidPage) (image : FoundImage),
        imageOf vs v = some image ↔ ∃ beginSeq parts, v.body = .imageEnd beginSeq parts ∧ beginSeq < v.seq
          ∧ pageWith vs beginSeq = some image.start ∧ image.endSeq = v.seq
          ∧ (∃ arrayId params bad lost counts, image.start.body = .imageBegin arrayId params bad lost counts)
          ∧ image.between.length = v.seq - beginSeq - 1
          ∧ (∀ i, i < image.between.length →
              ∃ w, pageWith vs (beginSeq + 1 + i) = some w ∧ image.between[i]? = some w.body)
          ∧ (image.between.filterMap RecordBody.partBytes).length = parts)
    ∧ (∀ (vs : List ValidPage) (image : FoundImage), newestImage vs = some image →
        (∃ v ∈ vs, imageOf vs v = some image)
          ∧ ∀ v ∈ vs, ∀ other, imageOf vs v = some other → other.endSeq ≤ image.endSeq)
    ∧ (∀ (vs : List ValidPage) (k n seq : Nat) (a : Account) (body : Nat → RecordBody),
        (∀ i, i < k → ∃ v, pageWith vs (seq + i) = some v ∧ v.body = body i) → pageWith vs (seq + k) = none → k ≤ n →
        replay vs n seq a = ((List.range k).foldl (fun a i => applyRecord (seq + i) (body i) a) a, seq + k))
    ∧ (∀ a : Account, a.fitsImage → readImage a.arrayId a.params a.bad a.lost a.imageCounts a.imageParts = a)
    ∧ (∀ (f : FoundImage) (arrayId : BitVec 64) (params : Params) (bad : BitVec 64) (lost : Bool) (counts : ImageCounts),
        f.start.body = .imageBegin arrayId params bad lost counts →
        { imageAccount f with bad := bad } =
            readImage arrayId params bad lost counts (f.between.filterMap RecordBody.partBytes)
          ∧ ∀ b, b < 64 → ((imageAccount f).bad.getLsbD b = true ↔ bad.getLsbD b = true ∨ .blockRetire b ∈ f.between))
    ∧ (∀ (a : Account) (s : State), s.pm.sets = [] → s.pm.slots = [] → s.pm.slabs = [] → s.pm.volumes = [] →
        tableWf none a.sets = true → tableWf Slab.unused a.slabs = true → tableWf Volume.unused a.volumes = true →
        let places : List Place := a.slabs.flatMap (fun e => e.2.home :: e.2.target.toList)
        (places.map slotKey).Nodup →
        let t := loadAccount a s
        let blocks := Machine.slabBlocks a.params.slabSize
        (∀ id, a.setDef id = none → t.set id = SetEntry.unused)
          ∧ (∀ id d, a.setDef id = some d →
              let w := d.positions.length
              let failed := (d.positions.filter (fun p => (a.member p.member).state = .failed)).length
              t.set id =
                { state := if failed = 0 then .online else if failed = 1 then .degraded else .failed,
                  width := w, unit := d.unit, bandLength := d.bandLength, positions := d.positions,
                  rows := rowsPerSlot blocks w d.unit, slots := slotCount blocks w d.unit d.bandLength,
                  freeCount := slotCount blocks w d.unit d.bandLength - (places.filter (fun p => p.set = id)).length,
                  failedCount := failed, retiring := false })
          ∧ (∀ e ∈ a.slabs, t.slot e.2.home = ⟨.home, 0, some e.1, none⟩
              ∧ ∀ p, e.2.target = some p → t.slot p = ⟨.target, 0, some e.1, none⟩)
          ∧ (∀ p, slotKey p ∉ places.map slotKey → t.slot p = Slot.free)
          ∧ (∀ g, t.slab g = { a.slab g with front := (a.slab g).persisted, mark := false })
          ∧ (∀ v, t.volume v = { a.volume v with
              ready := ((List.range (a.volume v).count).find?
                (fun k => (a.slab ((a.volume v).base + k)).state = .filling)).getD (a.volume v).count })
          ∧ t = { s with
              pm := { s.pm with
                arrayId := a.arrayId, slabSize := a.params.slabSize, members := a.members, sets := t.pm.sets,
                slots := t.pm.slots, slabs := t.pm.slabs, volumes := t.pm.volumes },
              gu := { s.gu with holdLife := a.params.holdLife }, dp := { s.dp with driveTmo := a.params.driveTmo },
              sm := { s.sm with pollPeriod := a.params.pollPeriod },
              me := { s.me with
                backoffBits := a.params.backoffBits, lockAfter := a.params.lockAfter, ckptRows := a.params.ckptRows,
                moveRate := a.params.moveRate, damage := a.damage, lost := a.lost } })
    ∧ (∀ (pages : List (Nat × List Byte)) (a : Account) (f : FoundImage) (next head last : Nat) (s : State), head < 64 →
        a.bad.getLsbD head = false →
        (∃ p ∈ pages, p.1 = head * 256 + last ∧ last < 256 ∧ pageErased p.2 = false) →
        (∀ p ∈ pages, p.1 / 256 = head → pageErased p.2 = false → p.1 % 256 ≤ last) →
        let t := setRing pages a f next head s
        let image := f.start.page / 256
        let cond (b : Nat) : BlockCond :=
          if a.bad.getLsbD b = true then .bad else if b = head then .head
          else if pages.all (fun p => decide (p.1 / 256 ≠ b) || pageErased p.2) = true then .erased
          else if ringDistance head b < ringDistance head image then .awaiting else .written
        let ring (head page : Nat) : State := { s with jc := { s.jc with
          blocks := t.jc.blocks, head := some head, nextPage := page, nextSeq := next, durable := a,
          newestImage := some (f.start.seq, image) } }
        let moves (b : Nat) : Prop :=
          last = 255 ∧ (blocksAfter head).find? (fun b => !a.bad.getLsbD b) = some b ∧ cond b = .erased
        ((∀ b, ¬moves b) → t = ring head (last + 1) ∧ ∀ b, b < 64 → t.storeBlock b = ⟨cond b, 0⟩)
          ∧ (∀ b, moves b → t = ring b 0 ∧ t.storeBlock b = ⟨.head, 0⟩ ∧ t.storeBlock head = ⟨.written, 0⟩
              ∧ ∀ k, k < 64 → k ≠ b → k ≠ head → t.storeBlock k = ⟨cond k, 0⟩))
    ∧ ∀ (a : Account) (q : Nat),
      let after (body : RecordBody) : Account := applyRecord q body a
      let slabAfter (body : RecordBody) (g : Nat) (e : Slab) : Prop :=
        (after body).slab g = e ∧ (∀ k, k ≠ g → (after body).slab k = a.slab k) ∧ { after body with slabs := a.slabs } = a
      (∀ p v, after (.param p v) = { a with params := a.params.set p v })
        ∧ (∀ id capacity formatOk k,
            (after (.member id (.admission capacity formatOk))).member id =
                { a.member id with state := .available, capacity := capacity, formatOk := formatOk, labelSeq := some q }
              ∧ (after (.member id .available)).member id = { a.member id with state := .available }
              ∧ (after (.member id .active)).member id = { a.member id with state := .active }
              ∧ (after (.member id .failed)).member id = { a.member id with state := .failed }
              ∧ (after (.member id .unadmitted)).member id = Member.absent
              ∧ (k ≠ id → ∀ cond, (after (.member id cond)).member k = a.member k))
        ∧ (∀ id unit bandLength positions, (positions.map Position.member).Nodup →
            let t := after (.setDefine id unit bandLength positions)
            t.setDef id = some ⟨unit, bandLength, positions⟩ ∧ (∀ k, k ≠ id → t.setDef k = a.setDef k)
              ∧ (∀ p ∈ positions, t.member p.member = { a.member p.member with
                  bands := (a.member p.member).bands ++ [⟨id, p.start⟩],
                  state := if (a.member p.member).state = .available then .active else (a.member p.member).state })
              ∧ (∀ k, (∀ p ∈ positions, p.member ≠ k) → t.member k = a.member k))
        ∧ (∀ id d, a.setDef id = some d → (d.positions.map Position.member).Nodup →
            let t := after (.setRetire id)
            t.setDef id = none ∧ (∀ k, k ≠ id → t.setDef k = a.setDef k)
              ∧ (∀ p ∈ d.positions, (t.member p.member).bands = (a.member p.member).bands.filter (fun b => b.set ≠ id))
              ∧ (∀ k, (∀ p ∈ d.positions, p.member ≠ k) → t.member k = a.member k))
        ∧ (∀ id base limit pool, after (.volumeCreate id base limit pool) =
            { a with volumes := tableWrite Volume.unused a.volumes id ⟨.online, base, limit, 0, 0, pool⟩ })
        ∧ (∀ volume old new pool, after (.growOpen volume old new pool) = { a with growth := some ⟨volume, old, new, pool, []⟩ })
        ∧ (∀ growth placements, a.growth = some growth →
            after (.growPart placements) = { a with growth := some { growth with parts := growth.parts ++ [placements] } })
        ∧ (∀ growth parts, a.growth = some growth →
            let t := after (.growClose parts)
            t.growth = none
              ∧ (growth.parts.length ≠ parts → t = { a with growth := none })
              ∧ (growth.parts.length = parts → (growth.parts.flatten.map Placement.slab).Nodup →
                  (∀ p ∈ growth.parts.flatten, t.slab p.slab =
                      { state := .filling, volume := growth.volume, home := p.place, target := none, front := 0,
                        persisted := 0, mark := false, salvage := false })
                    ∧ (∀ g, (∀ p ∈ growth.parts.flatten, p.slab ≠ g) → t.slab g = a.slab g)
                    ∧ t.volumes = tableWrite Volume.unused a.volumes growth.volume
                        { a.volume growth.volume with count := growth.new, pool := growth.pool }))
        ∧ (∀ g place target salvage value,
            slabAfter (.replace g place) g { a.slab g with home := place, front := 0, persisted := 0 }
              ∧ slabAfter (.jobBegin g target salvage) g
                  { a.slab g with state := .moving, target := some target, front := 0, persisted := 0, salvage := salvage }
              ∧ slabAfter (.front g value) g { a.slab g with persisted := value }
              ∧ slabAfter (.jobEnd g .fill) g { a.slab g with state := .live, front := 0, persisted := 0 }
              ∧ ((a.slab g).target = some target → slabAfter (.jobEnd g .move) g
                  { a.slab g with state := .live, home := target, target := none, front := 0, persisted := 0,
                                  salvage := false })
              ∧ slabAfter (.jobAbort g) g
                  { a.slab g with state := .live, target := none, front := 0, persisted := 0, salvage := false })
        ∧ (∀ d, (after (.damageAdd d)).damage = (damageAdd d a.damage).1)
        ∧ (∀ volume first count, damageSplits volume first count a.damage = false ∨ a.damage.length < 1024 →
            (after (.damageClear volume first count)).damage = damageRemove volume first count a.damage)
        ∧ (∀ block i, block < 64 → i < 64 →
            ((after (.blockRetire block)).bad.getLsbD i = true ↔ a.bad.getLsbD i = true ∨ i = block))

/-- FIRST_ROUND_END: after the first round each admitted member that the replay left AVAILABLE or ACTIVE is checked (R164): with none the
stage alone changes; one whose drive is not present fails, and its record is held; the label of one whose drive is present is read, at
the place of the label buffer that has been free longest (the model's choice, log 44). Several members are taken in ascending order of
their ids (the model's choice, log 49), the READs handed over before a failure takes effect (log 2). FIX_UPS once the checks have
ended (R165, R166): with 16 usable blocks the part is READY, the restart jobs are queued, FILL jobs first, the rate window begins, and
PART_STATE is offered, and the MEMBER records of the failures held since the scan are queued in the order of the failures (R36, R166);
the ready count of each volume is computed anew (R15, R165); with fewer the journal and the part are FROZEN with FEW_BLOCKS; a BLANK
part stays BLANK. At any other time neither does anything (log 1). -/
def Obligations.StartUpEnds : Prop :=
  ∀ s : State, s.quiet →
    (¬(s.stage = .firstRound ∧ s.sm.transaction = none) → exec .firstRoundEnd s = .next s)
      ∧ (s.stage = .firstRound → s.sm.transaction = none → s.membersToCheck = [] →
          exec .firstRoundEnd s = .next { s with stage := .labelChecks })
      ∧ (s.stage = .firstRound → s.sm.transaction = none → exec .firstRoundEnd s = .next (finish s
          (s.membersToCheck.foldl (fun t id =>
            if (t.bay id).present then
              handOver { owner := .startCheck, use := .label, member := id, op := .read, dbn := 0, count := 1,
                         pages := .label none, context := none, labelBlock := none }
                { t with pm := { t.pm with checks := t.pm.checks ++ [id] } }
            else { t with agenda := t.agenda ++ [.memberCause id] }) { s with stage := .labelChecks })))
      ∧ s.membersToCheck.Pairwise (· < ·)
      ∧ (∀ id, id ∈ s.membersToCheck ↔ id < 256 ∧ ((s.member id).state = .available ∨ (s.member id).state = .active))
      ∧ (∀ id, s.stage = .firstRound → s.sm.transaction = none → s.membersToCheck = [id] →
          ((s.bay id).present = false → s.part = .starting → (s.member id).bands = [] →
              s.entriesWhere (fun c => decide (c.member = id)) = [] → s.dp.waiting = [] → s.dp.labelWait = [] →
              exec .firstRoundEnd s = .next (State.offerNotice (.memberState id (s.member id).state .failed)
                { s with
                  stage := .labelChecks,
                  pm := { s.pm with
                    members := tableWrite Member.absent s.pm.members id { s.member id with state := .failed },
                    held := s.pm.held ++ [id] } }))
            ∧ ((s.bay id).present = true → s.dp.flush = .answered → ∀ place places e entries,
                s.dp.labelFree = place :: places → s.dp.freeOrder = e :: entries →
                ∃ t : State, exec .firstRoundEnd s = .next t
                  ∧ t.stage = .labelChecks ∧ t.pm = { s.pm with checks := s.pm.checks ++ [id] }
                  ∧ t.ring e =
                      { generation := ((s.ring e).generation + 1) % 256,
                        cmd := some { owner := .startCheck, use := .label, member := id, op := .read, dbn := 0, count := 1,
                                      pages := .label (some place), context := none, labelBlock := none },
                        deadline := s.clock.now + s.dp.driveTmo * 1000000, received := 0, mismatch := false }
                  ∧ t.dp.labelFree = places
                  ∧ t.dp.sent = s.dp.sent ++ [.command e (((s.ring e).generation + 1) % 256) id .read 0 1]
                  ∧ t.mp = s.mp ∧ t.gu = s.gu ∧ t.me = s.me ∧ t.jc = s.jc ∧ t.sm = s.sm))
      ∧ (¬(s.stage = .labelChecks ∧ s.pm.checks = []) → exec .fixUps s = .next s)
      ∧ (s.stage = .labelChecks → s.pm.checks = [] → s.jobsIdle = true → tableWf Slab.unused s.pm.slabs = true →
          tableWf Volume.unused s.pm.volumes = true →
          let jobOf (e : Nat × Slab) : Job :=
            { kind := if e.2.state = .filling then .fill else .move, slab := e.1,
              candidates := if e.2.state = .filling then 0 else poolOf ((e.2.target.map Place.set).toList),
              salvage := if e.2.state = .filling then false else e.2.salvage, resume := some e.2.persisted,
              retained := if e.2.state = .filling then none else e.2.target, cause := none }
          let jobs : List Job :=
            (s.pm.slabs.filter (fun e => e.2.state = .filling)).map jobOf
              ++ (s.pm.slabs.filter (fun e => e.2.state = .moving ∨ e.2.state = .committing)).map jobOf
          let repaired (t : State) : Prop :=
            t.me.jobs = jobs ∧ t.stage = .service
              ∧ (∀ e ∈ s.pm.slabs, t.slab e.1 = { e.2 with
                  state := if e.2.state = .committing then .moving else e.2.state, front := e.2.persisted,
                  mark := decide (e.2.state = .filling ∨ e.2.state = .moving ∨ e.2.state = .committing) })
              ∧ (∀ v, t.volume v = { s.volume v with
                  ready := ((List.range (s.volume v).count).find?
                    (fun k => (s.slab ((s.volume v).base + k)).state = .filling)).getD (s.volume v).count })
          (s.part = .starting → 16 ≤ s.usableBlocks → s.pm.held = [] → s.jc.op = none → s.jc.queue = [] →
              s.jc.storePlace = [] → s.jc.imageRecord = none → s.headSpent = false →
              (∀ b, (s.storeBlock b).cond ≠ .awaiting) →
              ∃ t : State, exec .fixUps s = .next t ∧ repaired t ∧ t.part = .ready
                ∧ t.jc = { s.jc with state := .writing, cause := none, admission := true }
                ∧ t.me.windowStart = some s.clock.now ∧ t.me.tokens = s.me.moveRate
                ∧ t.mp = (s.offerNotice (.partState .ready)).mp)
            ∧ (∀ head, s.part = .starting → 16 ≤ s.usableBlocks → s.pm.held ≠ [] → s.jc.op = none → s.jc.queue = [] →
                s.jc.storePlace = [] → s.jc.imageRecord = none → s.jc.roomWait = [] → s.jc.head = some head →
                s.headSpent = false → s.jc.nextSeq + min 32 s.pm.held.length ≤ 4294967296 →
                let record (i : Nat) : Record := ⟨s.jc.nextSeq + i, .member (s.pm.held.getD i 0) .failed, .pm, none⟩
                ∃ t : State, exec .fixUps s = .next t ∧ repaired t ∧ t.part = .ready ∧ t.pm.held = []
                ∧ t.jc = { s.jc with
                    state := .writing, cause := none, admission := true,
                    queue := (List.range (min 32 s.pm.held.length)).map record,
                    roomWait := if s.pm.held.length ≤ 32 then []
                      else [(.pm, (s.pm.held.drop 32).map (fun id => ⟨.member id .failed, none⟩))],
                    nextSeq := s.jc.nextSeq + min 32 s.pm.held.length,
                    op := some (.program s.clock.now head s.jc.nextPage (record 0)) }
                ∧ t.me.windowStart = some s.clock.now ∧ t.me.tokens = s.me.moveRate
                ∧ t.mp = (s.offerNotice (.partState .ready)).mp)
            ∧ (s.part = .starting → s.usableBlocks < 16 → s.jc.roomWait = [] → s.jc.queue = [] → s.jc.storePlace = [] →
                s.pm.busy = none → (∀ n, (s.lane n).state ≠ .claiming) →
                ∃ t : State, exec .fixUps s = .next t ∧ repaired t ∧ t.part = .frozen ∧ t.jc.state = .frozen
                  ∧ t.jc.cause = some .fewBlocks ∧ t.pm.held = []
                  ∧ t.mp = (State.offerNotice (.partState .frozen)
                      (s.offerNotice (.journalState .frozen (some .fewBlocks)))).mp)
            ∧ (∀ cause, s.part = .blank cause →
                ∃ t : State, exec .fixUps s = .next t ∧ repaired t ∧ t.part = .blank cause ∧ t.mp = s.mp ∧ t.jc = s.jc))

/-- FORMAT (R160): refused STARTING in STARTING, WRONG_STATE in READY and in BLANK with STORE_FAULT, BAD_FIELD for an ARRAY_ID of 0; else
the part is STARTING, every block is as after FORMAT with the counters, the mask and the fault record kept and the holds' generations
kept (R49), the flush is sent, a poll round begins, and the erase of block 0 begins; stated with no deferred MAP and no issued
command. Each erase is followed by that of the next block; one that fails, or is ended at 2 s, offers its fault, is counted, and
leaves its block bad. With the erase of block 63 ended and 16 blocks erased, the lowest of them is HEAD and IMAGE_BEGIN, number 1,
with the ARRAY_ID, the default parameters, the bad blocks and LOST clear, is programmed at its page 0; with IMAGE_BEGIN durable
IMAGE_END, number 2, at the next page. A program that fails in this writing counts on its block, and the same record is programmed at
the next page; the third failure retires the head, and the record goes to page 0 of the block that follows (R152, R153; that the
BLOCK_RETIRE takes a number from 3 on is the model's reading, log 22). With fewer than 16 blocks erased, or usable after such a
retirement, the part is BLANK with FEW_BLOCKS and without an image, its members ABSENT (R2), and the request is answered JOURNAL_DOWN.
When the image's IMAGE_END is durable the part is READY with the ARRAY_ID given, PART_STATE is offered, and the request is answered
OK. The model's readings in this: the ARRAY_ID is in force at completion, and the poll round begins at the acceptance (log 22); the
staging memory stays (log 5), and so does the log of sent messages (log 6). -/
def Obligations.FormatTaken : Prop :=
  ∀ (s : State) (tag : ReqTag), s.quiet →
    (∀ p : List Byte, s.takeable .format tag = some ⟨tag, .format, p, false⟩ →
        let arrayId := fieldAt p 0 8
        let refused (r : Result) : Prop := exec (.format tag) s = .next (s.answer tag r .empty)
        (s.part = .starting → refused .starting)
          ∧ (s.part = .ready → refused .wrongState)
          ∧ (s.part = .blank (some .storeFault) → refused .wrongState)
          ∧ (s.part = .frozen ∨ s.part = .blank none ∨ s.part = .blank (some .fewBlocks) →
              (arrayId = 0 → refused .badField)
                ∧ (arrayId ≠ 0 → s.gu.deferred = [] → s.entriesWhere (fun _ => true) = [] →
                    ∃ t : State, exec (.format tag) s = .next t
                      ∧ t.part = .starting ∧ t.stage = .service ∧ t.clock = ⟨s.clock.now, 1⟩
                      ∧ t.mp = (s.markTaken tag).mp ∧ t.pm = PlacementMap.reset
                      ∧ (∀ h, tableWf (Hold.free 0) s.gu.holds = true → t.hold h = Hold.free (s.hold h).generation)
                      ∧ t.gu.freeOrder = List.range 512 ∧ t.gu.holdLife = 10 ∧ t.gu.counters = s.gu.counters
                      ∧ t.me = { MoveEngine.reset with counters := s.me.counters }
                      ∧ t.sp = { StagingPool.reset with memory := s.sp.memory }
                      ∧ t.dp.flush = .waiting 1 s.clock.now ∧ t.dp.freeOrder = List.range 128
                      ∧ t.dp.counters = s.dp.counters ∧ t.dp.sent = s.dp.sent ++ [.flush]
                      ∧ t.sm.shelves = [] ∧ t.sm.transaction = some (0, s.clock.now)
                      ∧ t.jc.op = some (.erase s.clock.now 0)
                      ∧ t.jc.format = some ⟨tag, BitVec.ofNat 64 arrayId, false⟩ ∧ t.jc.counters = s.jc.counters)))
      ∧ (∀ start block f, s.jc.op = some (.erase start block) → s.jc.format = some f → block < 63 →
          exec (.eraseEnd true) s = .next { s with jc := { s.jc with
            blocks := tableWrite StoreBlock.written s.jc.blocks block ⟨.erased, 0⟩,
            op := some (.erase s.clock.now (block + 1)) } })
      ∧ (∀ f, s.jc.format = some f →
          let failing (c : Instr) (kind : FaultKind) (start : Nat) : Prop :=
            (c = .eraseEnd false ∧ kind = .storeErase)
              ∨ (c = .storeOpTimeout ∧ start + 2000000 ≤ s.clock.now ∧ kind = .storeTimeout)
          let lost (kind : FaultKind) (block : Nat) : State :=
            State.offerFault { FaultOffer.bare kind with storeBlock := some block }
              { s with jc := { s.jc with
                blocks := tableWrite StoreBlock.written s.jc.blocks block { s.storeBlock block with cond := .bad },
                op := none,
                counters := { s.jc.counters with
                  eraseFailures := min (s.jc.counters.eraseFailures + 1) 4294967295,
                  retired := min (s.jc.counters.retired + 1) 4294967295 } } }
          let few (t : State) : State := State.answer f.tag .journalDown .empty
            { t with
              part := .blank (some .fewBlocks), pm := { t.pm with members := [] }, agenda := [],
              jc := { t.jc with
                format := none, op := none, head := none, nextPage := 0, nextSeq := 0, queue := [], storePlace := [],
                imageRecord := none, imageStart := none, durable := Account.fresh } }
          (∀ start block c kind, s.jc.op = some (.erase start block) → block < 63 → failing c kind start →
              exec c s = .next { lost kind block with
                jc := { (lost kind block).jc with op := some (.erase s.clock.now (block + 1)) } })
            ∧ (∀ start c, s.jc.op = some (.erase start 63) → ∀ t : State,
                ((∃ kind, failing c kind start ∧ t = lost kind 63)
                  ∨ (c = .eraseEnd true ∧ t = { s with jc := { s.jc with
                      blocks := tableWrite StoreBlock.written s.jc.blocks 63 ⟨.erased, 0⟩, op := none } })) →
                ((t.blocksIn .erased).length < 16 → exec c s = .next (few t))
                  ∧ (∀ head, 16 ≤ (t.blocksIn .erased).length → head < 64 → (t.storeBlock head).cond = .erased →
                      (∀ b, b < head → (t.storeBlock b).cond ≠ .erased) → s.jc.state = .none → s.jc.queue = [] →
                      s.jc.storePlace = [] →
                      ∃ bad : BitVec 64, (∀ b, b < 64 → (bad.getLsbD b = true ↔ (t.storeBlock b).cond = .bad))
                        ∧ (let first : Record :=
                            ⟨1, .imageBegin f.arrayId Params.afterFormat bad false ⟨0, 0, 0, 0, 0, 0⟩, .jc, none⟩
                          exec c s = .next { t with jc := { t.jc with
                            format := some { f with erased := true },
                            blocks := tableWrite StoreBlock.written t.jc.blocks head
                              { t.storeBlock head with cond := .head },
                            head := some head, nextPage := 0, nextSeq := 2, imageRecord := some first,
                            durable := { Account.fresh with arrayId := f.arrayId, bad := bad },
                            op := some (.program s.clock.now head 0 first) } })))
            ∧ (∀ start block page r, f.erased = true → s.jc.op = some (.readBack start block page r) → s.jc.state = .none →
                s.jc.queue = [] → s.jc.storePlace = [] → s.jc.imageRecord = some r → s.jc.roomWait = [] →
                s.jc.head = some block → (s.storeBlock block).cond = .head → page + 1 < 256 → r.owner = .jc →
                (∃ arrayId params bad lost counts, r.body = .imageBegin arrayId params bad lost counts) →
                exec (.readBackEnd (pageBytes r.seq r.body)) s = .next { s with jc := { s.jc with
                  imageRecord := some ⟨2, .imageEnd 1 0, .jc, none⟩, imageStart := some (r.seq, block), nextSeq := 3,
                  nextPage := page + 1, op := some (.program s.clock.now block (page + 1) ⟨2, .imageEnd 1 0, .jc, none⟩),
                  counters := { s.jc.counters with durable := min (s.jc.counters.durable + 1) 4294967295 } } })
            ∧ (∀ start block page r kind c, f.erased = true → s.jc.state = .none → s.jc.head = some block → block < 64 →
                (s.storeBlock block).cond = .head → s.jc.nextRecord = some r → r.seq ≤ 2 → s.jc.nextSeq ≤ 4294967295 →
                16 ≤ s.usableBlocks →
                ((s.jc.op = some (.program start block page r) ∧ c = .pageProgramEnd false ∧ kind = .storeProgram)
                  ∨ (s.jc.op = some (.program start block page r) ∧ c = .storeOpTimeout ∧ start + 50000 ≤ s.clock.now
                      ∧ kind = .storeTimeout)
                  ∨ (s.jc.op = some (.readBack start block page r) ∧ c = .storeOpTimeout ∧ start + 50000 ≤ s.clock.now
                      ∧ kind = .storeTimeout)
                  ∨ (∃ bytes, s.jc.op = some (.readBack start block page r) ∧ c = .readBackEnd bytes
                      ∧ bytes ≠ pageBytes r.seq r.body ∧ kind = .storeProgram)) →
                let faulted (j : Journal) : State :=
                  State.offerFault { FaultOffer.bare kind with storeBlock := some block } { s with jc := j }
                let counted : JournalCounters := { s.jc.counters with
                  programFailures := min (s.jc.counters.programFailures + 1) 4294967295 }
                let dropped : JournalCounters := { counted with retired := min (s.jc.counters.retired + 1) 4294967295 }
                ((s.storeBlock block).failedPages ≠ 2 → page + 1 < 256 → exec c s = .next (faulted { s.jc with
                    blocks := tableWrite StoreBlock.written s.jc.blocks block
                      { s.storeBlock block with failedPages := (s.storeBlock block).failedPages + 1 },
                    nextPage := page + 1, op := some (.program s.clock.now block (page + 1) r), counters := counted }))
                  ∧ ((s.storeBlock block).failedPages = 2 → s.usableBlocks = 16 →
                      exec c s = .next (few (faulted { s.jc with
                        blocks := tableWrite StoreBlock.written s.jc.blocks block ⟨.bad, 3⟩, counters := dropped })))
                  ∧ (∀ next, (s.storeBlock block).failedPages = 2 → 17 ≤ s.usableBlocks →
                      s.followingBlock block = some next → (s.storeBlock next).cond = .erased →
                      exec c s = .next (faulted { s.jc with
                        blocks := tableWrite StoreBlock.written
                          (tableWrite StoreBlock.written s.jc.blocks block ⟨.bad, 3⟩) next
                          { s.storeBlock next with cond := .head },
                        head := some next, nextPage := 0, counters := dropped,
                        storePlace := s.jc.storePlace ++ [⟨if s.jc.nextSeq ≤ 2 then 3 + s.jc.storePlace.length
                          else s.jc.nextSeq, .blockRetire block, .jc, none⟩],
                        nextSeq := if s.jc.nextSeq ≤ 2 then s.jc.nextSeq else s.jc.nextSeq + 1,
                        op := some (.program s.clock.now next 0 r) }))))
      ∧ (∀ start block page f image, s.jc.op = some (.readBack start block page ⟨2, .imageEnd 1 0, .jc, none⟩) →
          s.jc.format = some f → f.erased = true → s.jc.state = .none → s.jc.queue = [] → s.jc.storePlace = [] →
          s.jc.imageRecord = some ⟨2, .imageEnd 1 0, .jc, none⟩ → s.jc.roomWait = [] → s.jc.imageStart = some image →
          s.jc.head = some block → (s.storeBlock block).cond = .head → page + 1 < 256 →
          (∀ b, (s.storeBlock b).cond ≠ .awaiting) →
          exec (.readBackEnd (pageBytes 2 (.imageEnd 1 0))) s = .next (State.answer f.tag .ok .empty
            (State.offerNotice (.partState .ready)
              { s with
                part := .ready,
                pm := { s.pm with arrayId := f.arrayId },
                me := { s.me with windowStart := some s.clock.now, tokens := s.me.moveRate },
                jc := { s.jc with
                  state := .writing, format := none, imageRecord := none, imageStart := none, newestImage := some image,
                  nextPage := page + 1, op := none,
                  counters := { s.jc.counters with durable := min (s.jc.counters.durable + 1) 4294967295 } } })))

/-! ## Placement, tags and damage (R6, R21, R24, R121, R124) -/

/-- The geometry of a set and the place of an offset (R6, R21). R is the smallest row count whose data capacity reaches S; N slots
of R·u blocks fit in the band, and one more would exceed it or 1024. Offset o of slot k lies in row r = ⌊o / (d·u)⌋, data unit
j = ⌊(o − r·d·u) / u⌋, at position j below the parity position (w − 1) − (r mod w) and j + 1 from it on, in the block
start + k·R·u + r·u + o mod u of that position's member. No two offsets of a set's slots share a member block, nor does one
share a block with a parity unit. -/
def Obligations.GeometryPlacesOffsets : Prop :=
  (∀ S w u B : Nat, 2 ≤ w → 1 ≤ u → 1 ≤ S →
      let rows := rowsPerSlot S w u
      let slots := slotCount S w u B
      S ≤ rows * ((w - 1) * u) ∧ (rows - 1) * ((w - 1) * u) < S
        ∧ slots * (rows * u) ≤ B ∧ slots ≤ 1024 ∧ (slots = 1024 ∨ B < (slots + 1) * (rows * u)))
    ∧ ∀ (e : SetEntry), e.positions.length = e.width → 2 ≤ e.width → 1 ≤ e.unit → (e.positions.map Position.member).Nodup →
      (∀ k o : Nat,
          let d := e.width - 1
          let r := o / (d * e.unit)
          let j := (o - r * (d * e.unit)) / e.unit
          let p := (e.width - 1) - r % e.width
          let m := if j < p then j else j + 1
          memberBlock e k o =
            ((e.positions.getD m ⟨0, 0⟩).member,
              (e.positions.getD m ⟨0, 0⟩).start + k * e.rows * e.unit + r * e.unit + o % e.unit))
        ∧ (∀ k k' o o' : Nat, o < e.rows * ((e.width - 1) * e.unit) → o' < e.rows * ((e.width - 1) * e.unit) →
            memberBlock e k o = memberBlock e k' o' → k = k' ∧ o = o')
        ∧ (∀ k k' o r i : Nat, o < e.rows * ((e.width - 1) * e.unit) → r < e.rows → i < e.unit →
            let parity := unitBlocks e k' r (parityPosition e.width r)
            memberBlock e k o ≠ (parity.1, parity.2 + i))

/-- The check of a block's tag (R24, with the tag's layout of spec/12 section D): GOOD where the guard equals the check of the data
and kind, owner and reference are as expected; POISONED where the guard equals its ones' complement and they are as expected;
CORRUPT in any other case. A block that the part tags is GOOD at its place; poison that the part makes is all-zero data and is
POISONED at its place.
The blocks that a lane lays in staging memory, at the positions of its row's pages, data units in order and parity last (R108, R111), and
no other one. A FILL row: zeros with the DATA or PAD tag of their place, and parity of zeros (R117). A MOVE row, its source read: the
pad offsets are zeros with their PAD tags (R22), the others stay as read, and parity is the exclusive-or of the data units (R116). A
lost unit that is rebuilt: each of its offsets in the row is the exclusive-or of the units read for it, with its DATA tag, or poison
where an entry of the Damage List holds its VLB (R114). A lost unit that is not: poison, noted as damage of the row with cause
SALVAGE where the home set has FAILED and SOURCE_LOST where not, and counted (R115, R116); that the ranges noted FOUND within it are
dropped is the model's reading (log 19). -/
def Obligations.TagCheckOutcomes : Prop :=
  (∀ (b : Block) (p : TagPlace) (data : BlockData),
    let guard := b.tag.extractLsb' 48 16
    let placed : Prop := b.tag.extractLsb' 44 4 = p.kind.code ∧ b.tag.extractLsb' 32 12 = BitVec.ofNat 12 p.owner
      ∧ b.tag.extractLsb' 0 32 = BitVec.ofNat 32 p.ref
    (checkTag b p = .good ↔ guard = guardOf b.data ∧ placed)
      ∧ (checkTag b p = .poisoned ↔ guard = ~~~(guardOf b.data) ∧ placed)
      ∧ (checkTag b p = .corrupt ↔ ¬((guard = guardOf b.data ∨ guard = ~~~(guardOf b.data)) ∧ placed))
      ∧ checkTag (taggedBlock data p) p = .good ∧ (taggedBlock data p).data = data
      ∧ checkTag (poisonBlock p) p = .poisoned ∧ (poisonBlock p).data = 0)
    ∧ ∀ (s : State) (n : Nat),
      let l := s.lane n
      let e := s.rowSet l
      let h := s.set (s.homePlace l).set
      let span := (e.width - 1) * e.unit
      let base := l.row * span
      let stop := min (base + span) s.slabBlocks
      let at' (i : Nat) : Nat := l.pages.getD (i / 16) 0 * 16 + i % 16
      let volume := (s.slab l.slab).volume
      let vlb (o : Nat) : Nat := s.volumeSlab l.slab * s.slabBlocks + o
      let tag (o : Nat) : TagPlace :=
        if o < s.slabBlocks then ⟨.data, volume, vlb o % 4294967296⟩ else ⟨.pad, volume, e.rows - 1⟩
      let parity : TagPlace := ⟨.parity, (s.writtenPlace l).set, l.row⟩
      let only (touched : Nat → Prop) (t : State) : Prop := ∀ q, ¬touched q → t.staged q = s.staged q
      l.pages.Nodup → (∀ p ∈ l.pages, p < 192) → l.pages.length * 16 = e.width * e.unit → 2 ≤ e.width → l.job.isSome = true →
      let filled := stageFill n s
      let assembled := stageParity n (stagePad n s)
      (∀ i, i < span → filled.staged (at' i) = taggedBlock 0 (tag (base + i)))
        ∧ (∀ b, b < e.unit → filled.staged (at' (span + b)) = taggedBlock 0 parity)
        ∧ only (fun q => ∃ i, i < e.width * e.unit ∧ q = at' i) filled ∧ { filled with sp := s.sp } = s
        ∧ (∀ i, i < span → s.slabBlocks ≤ base + i → assembled.staged (at' i) = taggedBlock 0 (tag (base + i)))
        ∧ (∀ i, i < span → base + i < s.slabBlocks → assembled.staged (at' i) = s.staged (at' i))
        ∧ (∀ b, b < e.unit → assembled.staged (at' (span + b)) = taggedBlock
            ((List.range (e.width - 1)).foldl (fun d k => d ^^^ (assembled.staged (at' (k * e.unit + b))).data) 0) parity)
        ∧ only (fun q => ∃ i, i < e.width * e.unit ∧ q = at' i) assembled ∧ { assembled with sp := s.sp } = s
        ∧ ∀ unit, 2 ≤ h.width → h.width ≤ 16 → 1 ≤ h.unit → h.unit ≤ 64 →
          let mine (o : Nat) : Prop := unit * h.unit ≤ o ∧ o < (unit + 1) * h.unit ∧ base ≤ o ∧ o < stop
          let others := ((List.range (h.width - 1)).map (fun k => unit / (h.width - 1) * (h.width - 1) + k)).filter
            (fun v => v ≠ unit && decide (v * h.unit < s.slabBlocks))
          let data (o : Nat) : BlockData := (List.range (others.length + 1)).foldl
            (fun d k => d ^^^ (s.staged (192 * 16 + k * h.unit + o % h.unit)).data) 0
          let rebuilt := rebuildUnit n unit s
          let poisoned := poisonUnit n unit s
          let first := max base (unit * h.unit)
          let count := min stop ((unit + 1) * h.unit) - first
          let cause : DamageCause := if h.state = .failed then .salvage else .sourceLost
          (∀ o, mine o → rebuilt.staged (at' (o - base)) =
              if damageCovers volume (vlb o) s.me.damage = true then poisonBlock (tag o) else taggedBlock (data o) (tag o))
            ∧ only (fun q => (∃ o, mine o ∧ q = at' (o - base)) ∨ (252 * 16 ≤ q ∧ q < 256 * 16)) rebuilt
            ∧ rebuilt.me.counters.reconstructions = min (s.me.counters.reconstructions + 1) 4294967295
            ∧ rebuilt.me.lanes = s.me.lanes
            ∧ (∀ o, mine o → poisoned.staged (at' (o - base)) = poisonBlock (tag o))
            ∧ only (fun q => ∃ o, mine o ∧ q = at' (o - base)) poisoned
            ∧ (1 ≤ count → poisoned.lane n = { l with work := { l.work with
                  damage := damageInsert ⟨volume, vlb first, count, cause⟩
                    (l.work.damage.filter (fun d => !(decide (vlb first ≤ d.first) && decide (d.stop ≤ vlb first + count)))) } }
                ∧ poisoned.me.counters = { s.me.counters with
                    poisonedBlocks := min (s.me.counters.poisonedBlocks + count) 4294967295 })
            ∧ (count = 0 → poisoned = s)

/-- The Damage List (R120, R121, R124). Adding a range covers what was covered and, where no part is dropped, the range, and
nothing else; it loses nothing in any case. Removing a range uncovers that range alone. Both keep the list in order with its
entries disjoint and not empty; adding keeps it at 1024 entries or fewer, and so does removing where nothing is split in a
full list. A range that no entry overlaps merges with the entries of its volume and cause that touch it, one or two, and with two the
list is one entry shorter; with none it takes a new entry, or is dropped from a full list. A neighbour with which the count would
exceed 2³² - 1 is passed over, and of two that do only singly the left one is taken (the model's choice, log 9). -/
def Obligations.DamageListKept : Prop :=
  let covered (l : List Damage) (v b : Nat) : Prop := ∃ e ∈ l, e.volume = v ∧ e.first ≤ b ∧ b < e.first + e.count
  let formed (l : List Damage) : Prop :=
    (∀ e ∈ l, 1 ≤ e.count)
      ∧ l.Pairwise (fun a b => a.volume < b.volume ∨ (a.volume = b.volume ∧ a.first + a.count ≤ b.first))
  ∀ (l : List Damage) (d : Damage) (v first count : Nat),
    (∀ v b, covered l v b → covered (damageAdd d l).1 v b)
      ∧ (∀ v b, covered (damageAdd d l).1 v b →
          covered l v b ∨ (v = d.volume ∧ d.first ≤ b ∧ b < d.first + d.count))
      ∧ ((damageAdd d l).2 = 0 → ∀ b, d.first ≤ b → b < d.first + d.count → covered (damageAdd d l).1 d.volume b)
      ∧ (formed l → formed (damageAdd d l).1)
      ∧ (l.length ≤ 1024 → (damageAdd d l).1.length ≤ 1024)
      ∧ (∀ w b, covered (damageRemove v first count l) w b ↔
          covered l w b ∧ ¬(w = v ∧ first ≤ b ∧ b < first + count))
      ∧ (formed l → formed (damageRemove v first count l))
      ∧ (formed l → l.length ≤ 1024 → (damageSplits v first count l = false ∨ l.length < 1024) →
          (damageRemove v first count l).length ≤ 1024)
      ∧ (formed l → 1 ≤ d.count →
          (∀ e ∈ l, e.volume = d.volume → e.first + e.count ≤ d.first ∨ d.first + d.count ≤ e.first) →
          let left (e : Damage) : Prop :=
            e ∈ l ∧ e.volume = d.volume ∧ e.cause = d.cause ∧ e.first + e.count = d.first ∧ e.count + d.count ≤ 4294967295
          let right (e : Damage) : Prop :=
            e ∈ l ∧ e.volume = d.volume ∧ e.cause = d.cause ∧ e.first = d.first + d.count ∧ d.count + e.count ≤ 4294967295
          let becomes (from' count : Nat) (merged : List Damage) : Prop :=
            (damageAdd d l).2 = 0 ∧ (damageAdd d l).1.length + merged.length = l.length + 1
              ∧ ∀ e, e ∈ (damageAdd d l).1 ↔ e = ⟨d.volume, from', count, d.cause⟩ ∨ (e ∈ l ∧ e ∉ merged)
          (∀ a b, left a → right b → a.count + d.count + b.count ≤ 4294967295 →
              becomes a.first (a.count + d.count + b.count) [a, b])
            ∧ (∀ a, left a → (∀ b, right b → 4294967295 < a.count + d.count + b.count) →
                becomes a.first (a.count + d.count) [a])
            ∧ (∀ b, right b → (∀ a, ¬left a) → becomes d.first (d.count + b.count) [b])
            ∧ ((∀ e, ¬left e ∧ ¬right e) → l.length < 1024 → becomes d.first d.count [])
            ∧ ((∀ e, ¬left e ∧ ¬right e) → 1024 ≤ l.length → damageAdd d l = (l, 1)))
end

