-- ==== Sys2Proof/Laws/Bytes.lean ====
section
/-! SUPPORT. Multi-byte fields: the length of what is written, and that a field reads back as what was written. -/

namespace Sys2Proof.Machine

@[simp] theorem length_beBytes (n v : Nat) : (beBytes n v).length = n := by
  induction n with
  | zero => rfl
  | succ n ih => simp [beBytes, ih]

theorem beNat_foldl (bytes : List Byte) (a : Nat) :
    bytes.foldl (fun n b => n * 256 + b.toNat) a = a * 256 ^ bytes.length + beNat bytes := by
  induction bytes generalizing a with
  | nil => simp [beNat]
  | cons b rest ih =>
    unfold beNat
    rw [List.foldl_cons, List.foldl_cons, ih, ih (0 * 256 + b.toNat), List.length_cons, Nat.pow_succ]
    rw [Nat.add_mul, Nat.zero_mul, Nat.zero_add, Nat.mul_assoc, Nat.mul_comm 256 (256 ^ rest.length)]
    omega

theorem beNat_cons (b : Byte) (rest : List Byte) : beNat (b :: rest) = b.toNat * 256 ^ rest.length + beNat rest := by
  unfold beNat
  rw [List.foldl_cons, beNat_foldl]
  simp [beNat]

/-- A field reads back as the number written, as far as its bytes hold it. -/
theorem beNat_beBytes (n v : Nat) : beNat (beBytes n v) = v % 256 ^ n := by
  induction n with
  | zero => simp [beBytes, beNat, Nat.mod_one]
  | succ n ih =>
    have hb : (BitVec.ofNat 8 (v / 256 ^ n)).toNat = v / 256 ^ n % 256 := by simp [BitVec.toNat_ofNat]
    rw [beBytes, beNat_cons, ih, length_beBytes, hb]
    have h1 := Nat.mod_pow_succ (x := v) (b := 256) (k := n)
    rw [Nat.mul_comm (v / 256 ^ n % 256)]
    omega

/-- A field that holds its number reads back as it. -/
theorem beNat_beBytes_of_lt {n v : Nat} (h : v < 256 ^ n) : beNat (beBytes n v) = v := by
  rw [beNat_beBytes, Nat.mod_eq_of_lt h]

/-- A field that lies at a place of some bytes. -/
theorem fieldAt_of_drop {bytes : List Byte} {i n v : Nat} {rest : List Byte} (h : bytes.drop i = beBytes n v ++ rest)
    (hv : v < 256 ^ n) : fieldAt bytes i n = v := by
  unfold fieldAt
  rw [h, List.take_left' (length_beBytes n v), beNat_beBytes_of_lt hv]

theorem byteAt_of_drop {bytes : List Byte} {i v : Nat} {rest : List Byte} (h : bytes.drop i = beBytes 1 v ++ rest)
    (hv : v < 256) : byteAt bytes i = v := by
  have h0 : bytes[i]? = some (BitVec.ofNat 8 v) := by
    have := congrArg (fun l => l[0]?) h
    simpa [beBytes] using this
  unfold byteAt
  rw [List.getD_eq_getElem?_getD, h0]
  simp [BitVec.toNat_ofNat, Nat.mod_eq_of_lt hv]

/-! ## The CRC-32 -/

theorem crc32Bits_lt {n crc : Nat} (h : crc < 2 ^ 32) : crc32Bits n crc < 2 ^ 32 := by
  induction n generalizing crc with
  | zero => exact h
  | succ n ih =>
    unfold crc32Bits
    apply ih
    split
    · exact Nat.xor_lt_two_pow (by omega) (by decide)
    · omega

/-- A CRC-32 has 32 bits. -/
theorem crc32_lt (bytes : List Byte) : crc32 bytes < 2 ^ 32 := by
  unfold crc32
  refine Nat.xor_lt_two_pow ?_ (by decide)
  have key : ∀ crc, crc < 2 ^ 32 → bytes.foldl crc32Step crc < 2 ^ 32 := by
    induction bytes with
    | nil => exact fun _ h => h
    | cons b rest ih => exact fun crc h => ih _ (crc32Bits_lt (Nat.xor_lt_two_pow h (by have := b.isLt; omega)))
  exact key _ (by decide)

end Sys2Proof.Machine
end

