-- ==== Sys2Proof/Laws/Tables.lean ====
section
/-! SUPPORT. The sparse tables: reading after writing, the canonical form, and the staging memory's. -/

namespace Sys2Proof.Machine

variable {α : Type}

theorem tableRead_tableErase_same (d : α) (t : List (Nat × α)) (k : Nat) : tableRead d (tableErase t k) k = d := by
  induction t with
  | nil => rfl
  | cons e rest ih =>
    obtain ⟨j, v⟩ := e
    by_cases h : j = k <;> simp [tableErase, tableRead, h, ih]

theorem tableRead_tableErase_other (d : α) (t : List (Nat × α)) {k k' : Nat} (hk : k' ≠ k) :
    tableRead d (tableErase t k) k' = tableRead d t k' := by
  induction t with
  | nil => rfl
  | cons e rest ih =>
    obtain ⟨j, v⟩ := e
    by_cases h : j = k
    · have : j ≠ k' := fun h' => hk (h'.symm.trans h)
      simp [tableErase, tableRead, h, ih, Ne.symm hk]
    · simp [tableErase, tableRead, h, ih]

theorem tableRead_tableInsert_same (d : α) (t : List (Nat × α)) (k : Nat) (v : α) (hk : ∀ w, (k, w) ∉ t) :
    tableRead d (tableInsert t k v) k = v := by
  induction t with
  | nil => simp [tableInsert, tableRead]
  | cons e rest ih =>
    obtain ⟨j, w⟩ := e
    have hj : j ≠ k := fun h => hk w (by simp [h])
    have hr : ∀ w, (k, w) ∉ rest := fun w hw => hk w (List.mem_cons_of_mem _ hw)
    by_cases h : k < j <;> simp [tableInsert, tableRead, h, hj, ih hr]

theorem tableRead_tableInsert_other (d : α) (t : List (Nat × α)) {k k' : Nat} (v : α) (hk : k' ≠ k) :
    tableRead d (tableInsert t k v) k' = tableRead d t k' := by
  induction t with
  | nil => simp [tableInsert, tableRead, Ne.symm hk]
  | cons e rest ih =>
    obtain ⟨j, w⟩ := e
    by_cases h : k < j <;> simp [tableInsert, tableRead, h, ih, Ne.symm hk]

theorem not_mem_tableErase (t : List (Nat × α)) (k : Nat) (w : α) : (k, w) ∉ tableErase t k := by
  induction t with
  | nil => simp [tableErase]
  | cons e rest ih =>
    obtain ⟨j, v⟩ := e
    by_cases h : j = k
    · simpa [tableErase, h] using ih
    · simp only [tableErase, h, if_false, List.mem_cons, Prod.mk.injEq, not_or]
      exact ⟨fun hh => h hh.1.symm, ih⟩

/-- A written key reads as what was written. -/
@[simp] theorem tableRead_tableWrite_same [DecidableEq α] (d : α) (t : List (Nat × α)) (k : Nat) (v : α) :
    tableRead d (tableWrite d t k v) k = v := by
  unfold tableWrite
  split
  · next h => rw [tableRead_tableErase_same, h]
  · exact tableRead_tableInsert_same _ _ _ _ (not_mem_tableErase t k)

/-- A key that is not the written one reads as before. -/
theorem tableRead_tableWrite_other [DecidableEq α] (d : α) (t : List (Nat × α)) {k k' : Nat} (v : α) (hk : k' ≠ k) :
    tableRead d (tableWrite d t k v) k' = tableRead d t k' := by
  unfold tableWrite
  split
  · exact tableRead_tableErase_other d t hk
  · rw [tableRead_tableInsert_other d _ v hk, tableRead_tableErase_other d t hk]

/-! ## The canonical form -/

theorem tableWfFrom_mono [DecidableEq α] {d : α} {t : List (Nat × α)} {low low' : Nat} (h : low' ≤ low)
    (hw : tableWfFrom d low t = true) : tableWfFrom d low' t = true := by
  cases t with
  | nil => rfl
  | cons e rest =>
    simp only [tableWfFrom, Bool.and_eq_true, decide_eq_true_eq] at hw ⊢
    exact ⟨⟨Nat.le_trans h hw.1.1, hw.1.2⟩, hw.2⟩

theorem tableWfFrom_tableErase [DecidableEq α] {d : α} {t : List (Nat × α)} {low : Nat} (k : Nat)
    (hw : tableWfFrom d low t = true) : tableWfFrom d low (tableErase t k) = true := by
  induction t generalizing low with
  | nil => rfl
  | cons e rest ih =>
    obtain ⟨j, v⟩ := e
    simp only [tableWfFrom, Bool.and_eq_true, decide_eq_true_eq] at hw
    by_cases h : j = k
    · simp only [tableErase, h, if_true]
      exact tableWfFrom_mono (Nat.le_trans hw.1.1 (Nat.le_succ j)) (ih hw.2)
    · simp only [tableErase, h, if_false, tableWfFrom, Bool.and_eq_true, decide_eq_true_eq]
      exact ⟨hw.1, ih hw.2⟩

theorem tableWfFrom_tableInsert [DecidableEq α] {d : α} {t : List (Nat × α)} {low k : Nat} {v : α} (hl : low ≤ k)
    (hv : v ≠ d) (hk : ∀ w, (k, w) ∉ t) (hw : tableWfFrom d low t = true) :
    tableWfFrom d low (tableInsert t k v) = true := by
  induction t generalizing low with
  | nil => simp [tableInsert, tableWfFrom, hl, hv]
  | cons e rest ih =>
    obtain ⟨j, w⟩ := e
    have hj : j ≠ k := fun h => hk w (by simp [h])
    have hr : ∀ w, (k, w) ∉ rest := fun w hw => hk w (List.mem_cons_of_mem _ hw)
    simp only [tableWfFrom, Bool.and_eq_true, decide_eq_true_eq] at hw
    by_cases h : k < j
    · simp only [tableInsert, h, if_true, tableWfFrom, Bool.and_eq_true, decide_eq_true_eq]
      exact ⟨⟨hl, hv⟩, ⟨⟨h, hw.1.2⟩, hw.2⟩⟩
    · simp only [tableInsert, h, if_false, tableWfFrom, Bool.and_eq_true, decide_eq_true_eq]
      exact ⟨hw.1, ih (by omega) hr hw.2⟩

/-- Writing keeps the canonical form. -/
theorem tableWf_tableWrite [DecidableEq α] {d : α} {t : List (Nat × α)} (k : Nat) (v : α) (hw : tableWf d t = true) :
    tableWf d (tableWrite d t k v) = true := by
  unfold tableWf tableWrite at *
  split
  · exact tableWfFrom_tableErase k hw
  · next h => exact tableWfFrom_tableInsert (Nat.zero_le k) h (not_mem_tableErase t k) (tableWfFrom_tableErase k hw)

theorem tableErase_of_not_mem {t : List (Nat × α)} {k : Nat} (h : ∀ w, (k, w) ∉ t) : tableErase t k = t := by
  induction t with
  | nil => rfl
  | cons e rest ih =>
    obtain ⟨j, v⟩ := e
    have hj : j ≠ k := fun hh => h v (by simp [hh])
    have hr : ∀ w, (k, w) ∉ rest := fun w hw => h w (List.mem_cons_of_mem _ hw)
    simp [tableErase, hj, ih hr]

theorem tableErase_tableErase (t : List (Nat × α)) (k : Nat) : tableErase (tableErase t k) k = tableErase t k :=
  tableErase_of_not_mem (not_mem_tableErase t k)

theorem tableErase_tableInsert {t : List (Nat × α)} {k : Nat} (v : α) (h : ∀ w, (k, w) ∉ t) :
    tableErase (tableInsert t k v) k = t := by
  induction t with
  | nil => simp [tableInsert, tableErase]
  | cons e rest ih =>
    obtain ⟨j, w⟩ := e
    have hj : j ≠ k := fun hh => h w (by simp [hh])
    have hr : ∀ w, (k, w) ∉ rest := fun w hw => h w (List.mem_cons_of_mem _ hw)
    by_cases hk : k < j
    · simp [tableInsert, tableErase, hk, hj, tableErase_of_not_mem hr]
    · simp [tableInsert, tableErase, hk, hj, ih hr]

/-- Of two writes of one key the second one stands. -/
@[simp] theorem tableWrite_tableWrite [DecidableEq α] (d : α) (t : List (Nat × α)) (k : Nat) (v w : α) :
    tableWrite d (tableWrite d t k v) k w = tableWrite d t k w := by
  have h : tableErase (tableWrite d t k v) k = tableErase t k := by
    unfold tableWrite
    split
    · exact tableErase_tableErase t k
    · exact tableErase_tableInsert v (not_mem_tableErase t k)
  generalize tableWrite d t k v = u at h
  simp only [tableWrite, h]

/-! ## Staging memory -/

/-- Every write to the staging memory keeps its canonical form. -/
theorem Memory.wf_write {m : List (Nat × Block)} (position : Nat) (b : Block) (h : Memory.wf m = true) :
    Memory.wf (Memory.write m position b) = true := tableWf_tableWrite position b h

theorem Memory.wf_reset : Memory.wf State.reset.sp.memory = true := rfl

@[simp] theorem Memory.read_write_same (m : List (Nat × Block)) (position : Nat) (b : Block) :
    Memory.read (Memory.write m position b) position = b := tableRead_tableWrite_same _ _ _ _

theorem Memory.read_write_other (m : List (Nat × Block)) {position p : Nat} (b : Block) (h : p ≠ position) :
    Memory.read (Memory.write m position b) p = Memory.read m p := tableRead_tableWrite_other _ _ _ h

end Sys2Proof.Machine
end

