-- ==== Sys2Proof/Laws/Damage.lean ====
section
/-! SUPPORT. The Damage List's operations keep its form (R120): adding a range, removing one, reading an image, and replaying a
record. -/

namespace Sys2Proof.Machine

/-! ## The order of the entries -/

theorem Damage.before_trans {a b c : Damage} (hb : 1 ≤ b.count) (h : a.before b) (h' : b.before c) : a.before c := by
  unfold Damage.before Damage.stop at *
  omega

/-- A range overlaps no entry of a list. -/
def apart (volume first stop : Nat) (l : List Damage) : Prop :=
  ∀ e ∈ l, e.volume = volume → e.stop ≤ first ∨ stop ≤ e.first

theorem Damage.before_or_after {d e : Damage} (h : e.volume = d.volume → e.stop ≤ d.first ∨ d.stop ≤ e.first) :
    d.before e ∨ e.before d := by
  unfold Damage.before
  rcases Nat.lt_trichotomy d.volume e.volume with hv | hv | hv
  · exact Or.inl (Or.inl hv)
  · rcases h hv.symm with h | h
    · exact Or.inr (Or.inr ⟨hv.symm, h⟩)
    · exact Or.inl (Or.inr ⟨hv, h⟩)
  · exact Or.inr (Or.inl hv)

theorem mem_damageInsert {d e : Damage} {l : List Damage} : e ∈ damageInsert d l ↔ e = d ∨ e ∈ l := by
  induction l with
  | nil => simp [damageInsert]
  | cons x rest ih =>
    unfold damageInsert
    split
    · simp
    · simp only [List.mem_cons, ih]
      exact ⟨fun h => h.elim (fun h => Or.inr (Or.inl h)) (fun h => h.elim Or.inl (fun h => Or.inr (Or.inr h))),
        fun h => h.elim (fun h => Or.inr (Or.inl h)) (fun h => h.elim Or.inl (fun h => Or.inr (Or.inr h)))⟩

theorem length_damageInsert (d : Damage) (l : List Damage) : (damageInsert d l).length = l.length + 1 := by
  induction l with
  | nil => rfl
  | cons x rest ih =>
    unfold damageInsert
    split
    · rfl
    · simp [ih]

/-- An entry that overlaps none of an ordered list goes to its place in the order. -/
theorem pairwise_damageInsert {d : Damage} {l : List Damage} (hd : 1 ≤ d.count) (hc : ∀ e ∈ l, 1 ≤ e.count)
    (ha : apart d.volume d.first d.stop l) (hp : l.Pairwise Damage.before) :
    (damageInsert d l).Pairwise Damage.before := by
  induction l with
  | nil => simp [damageInsert]
  | cons x rest ih =>
    have hx : 1 ≤ x.count := hc x (List.mem_cons_self ..)
    have hside := Damage.before_or_after (ha x (List.mem_cons_self ..))
    rw [List.pairwise_cons] at hp
    unfold damageInsert
    split
    · next hlt =>
      have hdx : d.before x := by
        refine hside.resolve_right (fun h => ?_)
        unfold Damage.before Damage.stop at h
        omega
      rw [List.pairwise_cons, List.pairwise_cons]
      refine ⟨fun e he => ?_, hp⟩
      rcases List.mem_cons.mp he with rfl | he
      · exact hdx
      · exact Damage.before_trans hx hdx (hp.1 e he)
    · next hge =>
      have hxd : x.before d := by
        refine hside.resolve_left (fun h => ?_)
        unfold Damage.before Damage.stop at h
        omega
      rw [List.pairwise_cons]
      refine ⟨fun e he => ?_, ih (fun e he => hc e (List.mem_cons_of_mem _ he))
        (fun e he => ha e (List.mem_cons_of_mem _ he)) hp.2⟩
      rcases mem_damageInsert.mp he with rfl | he
      · exact hxd
      · exact hp.1 e he

/-! ## Taking an entry out -/

theorem removeFirst_sublist (a : Damage) (l : List Damage) : (removeFirst a l).Sublist l := by
  induction l with
  | nil => exact List.Sublist.refl _
  | cons x rest ih =>
    unfold removeFirst
    split
    · exact List.sublist_cons_self x rest
    · exact ih.cons_cons x

theorem length_removeFirst {a : Damage} {l : List Damage} (h : a ∈ l) : (removeFirst a l).length + 1 = l.length := by
  induction l with
  | nil => simp at h
  | cons x rest ih =>
    unfold removeFirst
    split
    · rfl
    · next hx =>
      simp only [List.length_cons]
      rw [ih ((List.mem_cons.mp h).resolve_left (fun h => hx h.symm))]

theorem not_mem_removeFirst {a : Damage} {l : List Damage} (hc : ∀ e ∈ l, 1 ≤ e.count) (hp : l.Pairwise Damage.before) :
    a ∉ removeFirst a l := by
  induction l with
  | nil => simp [removeFirst]
  | cons x rest ih =>
    rw [List.pairwise_cons] at hp
    unfold removeFirst
    split
    · next hx =>
      subst hx
      intro h
      have hb := hp.1 x h
      have := hc x (List.mem_cons_self ..)
      unfold Damage.before Damage.stop at hb
      omega
    · next hx =>
      intro h
      exact (List.mem_cons.mp h).elim (fun h => hx h.symm)
        (ih (fun e he => hc e (List.mem_cons_of_mem _ he)) hp.2)

/-- The entries of an ordered list overlap each other nowhere. -/
theorem pairwise_apart {a : Damage} {l : List Damage} (ha : a ∈ l) (hp : l.Pairwise Damage.before) {e : Damage}
    (he : e ∈ l) (hne : e ≠ a) (hv : e.volume = a.volume) : e.stop ≤ a.first ∨ a.stop ≤ e.first := by
  induction l with
  | nil => simp at ha
  | cons x rest ih =>
    rw [List.pairwise_cons] at hp
    rcases List.mem_cons.mp ha with rfl | ha' <;> rcases List.mem_cons.mp he with rfl | he'
    · exact absurd rfl hne
    · have := hp.1 e he'
      unfold Damage.before at this
      omega
    · have := hp.1 a ha'
      unfold Damage.before at this
      omega
    · exact ih ha' hp.2 he'

/-! ## Adding a part -/

/-- The entry that a part becomes: alone, or merged with the entries that touch it. It covers what it replaces. -/
theorem damageFormed_replace {d : Damage} {l k : List Damage} (hl : damageFormed l) (hs : k.Sublist l) (hd : 1 ≤ d.count)
    (hlen : k.length < Config.maxDamage) (ha : apart d.volume d.first d.stop k) : damageFormed (damageInsert d k) := by
  obtain ⟨-, hc, hp⟩ := hl
  have hck : ∀ e ∈ k, 1 ≤ e.count := fun e he => hc e (hs.subset he)
  refine ⟨?_, fun e he => ?_, pairwise_damageInsert hd hck ha (hp.sublist hs)⟩
  · rw [length_damageInsert]
    exact hlen
  · rcases mem_damageInsert.mp he with rfl | he
    · exact hd
    · exact hck e he

/-- What adding a part answers: the list keeps its form, and each entry of the new list is an old one, or lies in the part's volume
between old borders that touch the part. -/
theorem addPart_formed {volume first stop : Nat} {cause : DamageCause} {l : List Damage} (hl : damageFormed l)
    (hr : first < stop) (ha : apart volume first stop l) :
    damageFormed (addPart volume cause first stop l).1
      ∧ ∀ p q, stop ≤ p → p < q → apart volume p q l → apart volume p q (addPart volume cause first stop l).1 := by
  have hc := hl.2.1
  have hp := hl.2.2
  have hleft : ∀ a, l.find? (fun e => e.volume = volume && e.cause = cause && e.stop = first
        && stop - e.first ≤ maxDamageCount) = some a →
      a ∈ l ∧ a.volume = volume ∧ a.stop = first := fun a h => by
    have := List.find?_some h
    simp only [Bool.and_eq_true, decide_eq_true_eq] at this
    exact ⟨List.mem_of_find?_eq_some h, this.1.1.1, this.1.2⟩
  have hright : ∀ b, l.find? (fun e => e.volume = volume && e.cause = cause && e.first = stop
        && e.stop - first ≤ maxDamageCount) = some b →
      b ∈ l ∧ b.volume = volume ∧ b.first = stop := fun b h => by
    have := List.find?_some h
    simp only [Bool.and_eq_true, decide_eq_true_eq] at this
    exact ⟨List.mem_of_find?_eq_some h, this.1.1.1, this.1.2⟩
  -- a new entry of its own
  have hnew : l.length < Config.maxDamage →
      damageFormed (damageInsert ⟨volume, first, stop - first, cause⟩ l)
        ∧ ∀ p q, stop ≤ p → p < q → apart volume p q l →
          apart volume p q (damageInsert ⟨volume, first, stop - first, cause⟩ l) := fun hlen => by
    have hstop : first + (stop - first) = stop := by omega
    refine ⟨damageFormed_replace hl (List.Sublist.refl l) (by show 1 ≤ stop - first; omega) hlen
      (by simpa [Damage.stop, hstop] using ha), fun p q hp1 hpq hpart e he hv => ?_⟩
    rcases mem_damageInsert.mp he with rfl | he
    · left
      simp only [Damage.stop]
      omega
    · exact hpart e he hv
  -- an entry merged on its left
  have hmerge : ∀ a, a ∈ l → a.volume = volume → a.stop = first →
      damageFormed (damageInsert ⟨volume, a.first, stop - a.first, cause⟩ (removeFirst a l))
        ∧ ∀ p q, stop ≤ p → p < q → apart volume p q l →
          apart volume p q (damageInsert ⟨volume, a.first, stop - a.first, cause⟩ (removeFirst a l)) :=
    fun a hal hav has => by
      have hac := hc a hal
      have hlt : a.first < first := by unfold Damage.stop at has; omega
      have hstop : a.first + (stop - a.first) = stop := by omega
      have hlen := length_removeFirst hal
      have hmax := hl.1
      refine ⟨damageFormed_replace hl (removeFirst_sublist a l) (by show 1 ≤ stop - a.first; omega) (by omega)
        (fun e he hv => ?_), fun p q hp1 hpq hpart e he hv => ?_⟩
      · have hel := (removeFirst_sublist a l).subset he
        have hne : e ≠ a := fun h => not_mem_removeFirst hc hp (h ▸ he)
        have h1 := pairwise_apart hal hp hel hne (hv.trans hav.symm)
        have h2 := ha e hel hv
        have h3 := hc e hel
        simp only [Damage.stop] at *
        omega
      · rcases mem_damageInsert.mp he with rfl | he
        · left
          simp only [Damage.stop]
          omega
        · exact hpart e ((removeFirst_sublist a l).subset he) hv
  unfold addPart
  dsimp only
  split
  · next a b hfa hfb =>
    obtain ⟨hal, hav, has⟩ := hleft a hfa
    obtain ⟨hbl, hbv, hbf⟩ := hright b hfb
    have hac := hc a hal
    have hbc := hc b hbl
    have hab : b ≠ a := fun h => by subst h; unfold Damage.stop at has; omega
    have hbr : b ∈ removeFirst a l := by
      have key : ∀ k : List Damage, b ∈ k → b ∈ removeFirst a k := fun k => by
        induction k with
        | nil => exact id
        | cons x rest ih =>
          intro h
          unfold removeFirst
          split
          · next hx => exact (List.mem_cons.mp h).resolve_left (fun h => hab (h.trans hx))
          · rcases List.mem_cons.mp h with h | h
            · exact List.mem_cons.mpr (Or.inl h)
            · exact List.mem_cons_of_mem _ (ih h)
      exact key l hbl
    split
    · have hs : (removeFirst b (removeFirst a l)).Sublist l :=
        (removeFirst_sublist b _).trans (removeFirst_sublist a l)
      have hlt : a.first < first := by unfold Damage.stop at has; omega
      have hbs : stop < b.stop := by unfold Damage.stop; omega
      have hstop : a.first + (b.stop - a.first) = b.stop := by omega
      have hla := length_removeFirst hal
      have hlb := length_removeFirst hbr
      have hmax := hl.1
      refine ⟨damageFormed_replace hl hs (by show 1 ≤ b.stop - a.first; omega) (by omega) (fun e he hv => ?_),
        fun p q hp1 hpq hpart e he hv => ?_⟩
      · have hel := hs.subset he
        have her := (removeFirst_sublist b _).subset he
        have hna : e ≠ a := fun h => not_mem_removeFirst hc hp (h ▸ her)
        have hnb : e ≠ b := fun h => not_mem_removeFirst
          (fun e he => hc e ((removeFirst_sublist a l).subset he)) (hp.sublist (removeFirst_sublist a l)) (h ▸ he)
        have h1 := pairwise_apart hal hp hel hna (hv.trans hav.symm)
        have h2 := pairwise_apart hbl hp hel hnb (hv.trans hbv.symm)
        have h3 := ha e hel hv
        have h4 := hc e hel
        simp only [Damage.stop] at *
        omega
      · rcases mem_damageInsert.mp he with rfl | he
        · left
          have := hpart b hbl hbv
          simp only [Damage.stop] at *
          omega
        · exact hpart e (hs.subset he) hv
    · exact hmerge a hal hav has
  · next a hfa hfb =>
    obtain ⟨hal, hav, has⟩ := hleft a hfa
    exact hmerge a hal hav has
  · next b hfa hfb =>
    obtain ⟨hbl, hbv, hbf⟩ := hright b hfb
    have hbc := hc b hbl
    have hbs : stop < b.stop := by unfold Damage.stop; omega
    have hstop : first + (b.stop - first) = b.stop := by omega
    have hlen := length_removeFirst hbl
    have hmax := hl.1
    refine ⟨damageFormed_replace hl (removeFirst_sublist b l) (by show 1 ≤ b.stop - first; omega) (by omega)
      (fun e he hv => ?_), fun p q hp1 hpq hpart e he hv => ?_⟩
    · have hel := (removeFirst_sublist b l).subset he
      have hne : e ≠ b := fun h => not_mem_removeFirst hc hp (h ▸ he)
      have h1 := pairwise_apart hbl hp hel hne (hv.trans hbv.symm)
      have h2 := ha e hel hv
      have h3 := hc e hel
      simp only [Damage.stop] at *
      omega
    · rcases mem_damageInsert.mp he with rfl | he
      · left
        have := hpart b hbl hbv
        simp only [Damage.stop] at *
        omega
      · exact hpart e ((removeFirst_sublist b l).subset he) hv
  · split
    · next hlen => exact hnew hlen
    · exact ⟨hl, fun p q _ _ h => h⟩

/-! ## Adding a range -/

/-- Parts in ascending order, none of them empty, apart from the list's entries. -/
def partsFit (volume : Nat) (l : List Damage) : List (Nat × Nat) → Prop
  | [] => True
  | p :: rest => p.1 < p.2 ∧ apart volume p.1 p.2 l ∧ (∀ q ∈ rest, p.2 ≤ q.1) ∧ partsFit volume l rest

theorem partsFit_mono {volume : Nat} {l k : List Damage} {parts : List (Nat × Nat)} {low : Nat}
    (h : ∀ p q, low ≤ p → p < q → apart volume p q l → apart volume p q k) (hlow : ∀ q ∈ parts, low ≤ q.1)
    (hf : partsFit volume l parts) : partsFit volume k parts := by
  induction parts with
  | nil => trivial
  | cons p rest ih =>
    exact ⟨hf.1, h _ _ (hlow p (List.mem_cons_self ..)) hf.1 hf.2.1, hf.2.2.1,
      ih (fun q hq => hlow q (List.mem_cons_of_mem _ hq)) hf.2.2.2⟩

theorem addParts_formed {volume : Nat} {cause : DamageCause} {parts : List (Nat × Nat)} {l : List Damage}
    (hl : damageFormed l) (hf : partsFit volume l parts) : damageFormed (addParts volume cause parts l).1 := by
  induction parts generalizing l with
  | nil => exact hl
  | cons p rest ih =>
    obtain ⟨first, stop⟩ := p
    obtain ⟨h1, h2, h3, h4⟩ := hf
    obtain ⟨hone, hkeep⟩ := addPart_formed (cause := cause) hl h1 h2
    exact ih hone (partsFit_mono hkeep h3 h4)

theorem uncovered_low {volume : Nat} {l : List Damage} {first stop : Nat} :
    ∀ p ∈ uncovered volume l first stop, first ≤ p.1 := by
  induction l generalizing first with
  | nil =>
    intro p hp
    unfold uncovered at hp
    split at hp <;> simp at hp
    subst hp
    exact Nat.le_refl _
  | cons e rest ih =>
    intro p hp
    unfold uncovered at hp
    split at hp
    · rcases List.mem_append.mp hp with hp | hp
      · split at hp <;> simp at hp
        subst hp
        exact Nat.le_refl _
      · exact Nat.le_trans (Nat.le_max_left _ _) (ih p hp)
    · exact ih p hp

/-- The uncovered parts of a range fit an ordered list. -/
theorem partsFit_uncovered {volume : Nat} {l k : List Damage} {first stop : Nat} (hc : ∀ e ∈ l, 1 ≤ e.count)
    (hp : l.Pairwise Damage.before) (hk : ∀ e ∈ k, e.volume = volume → e ∈ l ∨ e.stop ≤ first) :
    partsFit volume k (uncovered volume l first stop) := by
  induction l generalizing first with
  | nil =>
    unfold uncovered
    split
    · next h =>
      exact ⟨h, fun e he hv => Or.inl ((hk e he hv).resolve_left (by simp)), by simp, trivial⟩
    · trivial
  | cons x rest ih =>
    rw [List.pairwise_cons] at hp
    have hxc := hc x (List.mem_cons_self ..)
    have hcr : ∀ e ∈ rest, 1 ≤ e.count := fun e he => hc e (List.mem_cons_of_mem _ he)
    unfold uncovered
    split
    · next hv =>
      have hrest : partsFit volume k (uncovered volume rest (max first x.stop) stop) :=
        ih hcr hp.2 (fun e he hev => (hk e he hev).elim
          (fun h => (List.mem_cons.mp h).elim (fun h => Or.inr (h ▸ Nat.le_max_right _ _)) Or.inl)
          (fun h => Or.inr (Nat.le_trans h (Nat.le_max_left _ _))))
      split
      · next hlt =>
        refine ⟨hlt, fun e he hev => ?_, fun q hq => ?_, hrest⟩
        · rcases hk e he hev with h | h
          · right
            rcases List.mem_cons.mp h with rfl | h
            · exact Nat.min_le_left _ _
            · have := hp.1 e h
              simp only [Damage.before, Damage.stop] at this
              have := Nat.min_le_left x.first stop
              show min x.first stop ≤ e.first
              omega
          · exact Or.inl h
        · have := uncovered_low q hq
          simp only [Damage.stop] at this
          show min x.first stop ≤ q.1
          omega
      · exact hrest
    · next hv =>
      exact ih hcr hp.2 (fun e he hev => (hk e he hev).elim
        (fun h => (List.mem_cons.mp h).elim (fun h => absurd (h ▸ hev) hv) Or.inl) Or.inr)

/-- A range that no entry of a list overlaps is one uncovered part. -/
theorem uncovered_apart {volume first stop : Nat} {l : List Damage} (hc : ∀ e ∈ l, 1 ≤ e.count) (hr : first < stop)
    (ha : apart volume first stop l) : uncovered volume l first stop = [(first, stop)] := by
  have beyond : ∀ (k : List Damage) (from' : Nat), stop ≤ from' → uncovered volume k from' stop = [] := fun k => by
    induction k with
    | nil => intro from' h; simp [uncovered, h]
    | cons e rest ih =>
      intro from' h
      have := Nat.min_le_right e.first stop
      have hmax : stop ≤ max from' e.stop := Nat.le_trans h (Nat.le_max_left _ _)
      have hlow : ¬from' < min e.first stop := by omega
      simp only [uncovered, hlow, ih _ hmax, ih _ h, if_false, List.nil_append, ite_self]
  induction l with
  | nil => simp [uncovered, hr]
  | cons e rest ih =>
    have ih := ih (fun x hx => hc x (List.mem_cons_of_mem _ hx)) (fun x hx => ha x (List.mem_cons_of_mem _ hx))
    have hec := hc e (List.mem_cons_self ..)
    have hside := ha e (List.mem_cons_self ..)
    unfold uncovered
    split
    · next hv =>
      rcases hside hv with h | h
      · have hlow : ¬first < min e.first stop := by
          have := Nat.min_le_left e.first stop
          unfold Damage.stop at h
          omega
        rw [if_neg hlow, Nat.max_eq_left h, ih, List.nil_append]
      · have hmin : min e.first stop = stop := Nat.min_eq_right h
        have hmax : stop ≤ max first e.stop := by
          have := Nat.le_max_right first e.stop
          unfold Damage.stop at this ⊢
          omega
        rw [hmin, if_pos hr, beyond _ _ hmax, List.append_nil]
    · exact ih

/-- Adding a range that no entry overlaps is adding one part (R121). -/
theorem damageAdd_apart {d : Damage} {l : List Damage} (hc : ∀ e ∈ l, 1 ≤ e.count) (hd : 1 ≤ d.count)
    (ha : apart d.volume d.first d.stop l) :
    damageAdd d l = ((addPart d.volume d.cause d.first d.stop l).1,
      if (addPart d.volume d.cause d.first d.stop l).2 then 1 else 0) := by
  unfold damageAdd
  rw [uncovered_apart hc (by unfold Damage.stop; omega) ha]
  simp [addParts]

/-- Adding a range keeps the form of the Damage List. -/
theorem damageAdd_formed {d : Damage} {l : List Damage} (hl : damageFormed l) : damageFormed (damageAdd d l).1 :=
  addParts_formed hl (partsFit_uncovered hl.2.1 hl.2.2 (fun _ h _ => Or.inl h))

/-- A list of ranges added one after another has the form. -/
theorem foldl_damageAdd_formed {ds l : List Damage} (hl : damageFormed l) :
    damageFormed (ds.foldl (fun l d => (damageAdd d l).1) l) := by
  induction ds generalizing l with
  | nil => exact hl
  | cons d rest ih => exact ih (damageAdd_formed hl)

theorem damageFormed_nil : damageFormed [] := ⟨Nat.zero_le _, by simp, List.Pairwise.nil⟩

theorem addAll_formed (ds : List Damage) : damageFormed (addAll ds) := foldl_damageAdd_formed damageFormed_nil

/-! ## Removing a range -/

theorem mem_damageCut {volume first stop : Nat} {e d : Damage} (he : 1 ≤ e.count) (h : d ∈ damageCut volume first stop e) :
    1 ≤ d.count ∧ d.volume = e.volume ∧ e.first ≤ d.first ∧ d.stop ≤ e.stop := by
  unfold damageCut at h
  split at h
  · next hx =>
    obtain ⟨-, hx1, hx2⟩ := hx
    unfold Damage.stop at hx2
    rcases List.mem_append.mp h with h | h <;> split at h <;> simp at h <;> subst h <;>
      refine ⟨?_, rfl, ?_, ?_⟩ <;> simp only [Damage.stop] at * <;> omega
  · simp only [List.mem_singleton] at h
    subst h
    exact ⟨he, rfl, Nat.le_refl _, Nat.le_refl _⟩

theorem damageCut_pairwise (volume first stop : Nat) (hr : first ≤ stop) (e : Damage) :
    (damageCut volume first stop e).Pairwise Damage.before := by
  unfold damageCut
  split
  · split <;> split <;> simp [Damage.before, Damage.stop] <;> omega
  · simp

theorem damageRemove_pairwise {volume first count : Nat} {l : List Damage} (hc : ∀ e ∈ l, 1 ≤ e.count)
    (hp : l.Pairwise Damage.before) : (damageRemove volume first count l).Pairwise Damage.before := by
  unfold damageRemove
  induction l with
  | nil => simp
  | cons x rest ih =>
    rw [List.pairwise_cons] at hp
    rw [List.flatMap_cons, List.pairwise_append]
    refine ⟨damageCut_pairwise _ _ _ (Nat.le_add_right _ _) x, ih (fun e he => hc e (List.mem_cons_of_mem _ he)) hp.2,
      fun a ha b hb => ?_⟩
    obtain ⟨e, he, hb⟩ := List.mem_flatMap.mp hb
    obtain ⟨-, hav, -, has⟩ := mem_damageCut (hc x (List.mem_cons_self ..)) ha
    obtain ⟨-, hbv, hbf, -⟩ := mem_damageCut (hc e (List.mem_cons_of_mem _ he)) hb
    have := hp.1 e he
    unfold Damage.before at *
    omega

/-- An entry that the range splits in two. -/
def splitBy (volume first count : Nat) (e : Damage) : Bool :=
  decide (e.volume = volume) && decide (e.first < first) && decide (first + count < e.stop)

theorem length_damageCut (volume first count : Nat) (e : Damage) :
    (damageCut volume first (first + count) e).length ≤ 1 + (if splitBy volume first count e then 1 else 0) := by
  unfold damageCut splitBy
  split
  · split <;> split <;> simp_all
  · simp

/-- Removing a range adds at most one entry, and none where it splits none. -/
theorem length_damageRemove {volume first count : Nat} {l : List Damage} (hp : l.Pairwise Damage.before) :
    (damageRemove volume first count l).length ≤ l.length + (if damageSplits volume first count l then 1 else 0) := by
  have key : ∀ k : List Damage, k.Pairwise Damage.before →
      (damageRemove volume first count k).length
        ≤ k.length + (if k.any (splitBy volume first count) then 1 else 0) := fun k => by
    induction k with
    | nil => simp [damageRemove]
    | cons x rest ih =>
      intro hp
      rw [List.pairwise_cons] at hp
      have h1 := length_damageCut volume first count x
      have h2 := ih hp.2
      simp only [damageRemove, List.flatMap_cons, List.length_append, List.length_cons, List.any_cons] at h2 ⊢
      by_cases hx : splitBy volume first count x = true
      · have hnone : rest.any (splitBy volume first count) = false := by
          rw [List.any_eq_false]
          intro e he hs
          have := hp.1 e he
          simp only [splitBy, Bool.and_eq_true, decide_eq_true_eq] at hx hs
          unfold Damage.before at this
          omega
        simp only [hx, hnone, if_true, Bool.true_or] at h1 h2 ⊢
        simp only [Bool.false_eq_true, if_false, Nat.add_zero] at h2
        omega
      · simp only [Bool.not_eq_true] at hx
        simp only [hx, Bool.false_or, Bool.false_eq_true, if_false, Nat.add_zero] at h1 ⊢
        omega
  exact key l hp

/-- Removing a range keeps the form of the Damage List, where it does not split an entry of a full list. -/
theorem damageRemove_formed {volume first count : Nat} {l : List Damage} (hl : damageFormed l)
    (hs : (damageSplits volume first count l && decide (Config.maxDamage ≤ l.length)) = false) :
    damageFormed (damageRemove volume first count l) := by
  obtain ⟨h1, h2, h3⟩ := hl
  refine ⟨?_, fun d hd => ?_, damageRemove_pairwise h2 h3⟩
  · have h := length_damageRemove (volume := volume) (first := first) (count := count) h3
    by_cases hx : damageSplits volume first count l = true
    · simp only [hx, Bool.true_and, decide_eq_false_iff_not, if_true] at hs h
      omega
    · simp only [hx] at h
      simp at h
      omega
  · obtain ⟨e, he, hd⟩ := List.mem_flatMap.mp hd
    exact (mem_damageCut (h2 e he) hd).1

/-! ## The lasting state -/

theorem withDamage_damage (a : Account) (l : List Damage) (n : Nat) : (a.withDamage l n).damage = l := rfl

theorem forEach_account {α : Type} {f : α → Account → Account} (hf : ∀ x a, (f x a).damage = a.damage) (l : List α)
    (a : Account) : (forEach f l a).damage = a.damage := by
  induction l generalizing a with
  | nil => rfl
  | cons x rest ih => exact (ih (f x a)).trans (hf x a)

/-- A record keeps the form of the Damage List that the durable records define. -/
theorem applyRecord_formed (seq : Nat) (body : RecordBody) {a : Account} (h : damageFormed a.damage) :
    damageFormed (applyRecord seq body a).damage := by
  cases body with
  | damageAdd d => exact damageAdd_formed h
  | damageClear volume first count =>
    simp only [applyRecord]
    split
    · exact h
    · next hs => exact damageRemove_formed h (by simpa using hs)
  | setDefine id unit bandLength positions =>
    simp only [applyRecord]
    rw [forEach_account]
    · exact h
    · exact fun _ _ => rfl
  | setRetire id =>
    simp only [applyRecord]
    split
    · exact h
    · rw [forEach_account]
      · exact h
      · exact fun _ _ => rfl
  | growPart placements =>
    simp only [applyRecord]
    split <;> exact h
  | growClose parts =>
    simp only [applyRecord, closeGrowth]
    split
    · exact h
    · split
      · show damageFormed (Account.damage (forEach _ _ _))
        rw [forEach_account]
        · exact h
        · exact fun _ _ => rfl
      · exact h
  | jobEnd slab kind => cases kind <;> exact h
  | _ => exact h

theorem readImage_formed (arrayId : BitVec 64) (params : Params) (bad : BitVec 64) (lost : Bool) (counts : ImageCounts)
    (parts : List (List Byte)) : damageFormed (readImage arrayId params bad lost counts parts).damage := addAll_formed _

end Sys2Proof.Machine
end

