-- ==== Sys2Proof/Laws/State.lean ====
section
/-! SUPPORT. What each update of the state does to each field, every lemma true by computation. -/

namespace Sys2Proof.Machine

@[simp] theorem onMp_clock (f : MsgPort → MsgPort) (s : State) : (s.onMp f).clock = s.clock := rfl
@[simp] theorem onMp_part (f : MsgPort → MsgPort) (s : State) : (s.onMp f).part = s.part := rfl
@[simp] theorem onMp_stage (f : MsgPort → MsgPort) (s : State) : (s.onMp f).stage = s.stage := rfl
@[simp] theorem onMp_draining (f : MsgPort → MsgPort) (s : State) : (s.onMp f).draining = s.draining := rfl
@[simp] theorem onMp_mp (f : MsgPort → MsgPort) (s : State) : (s.onMp f).mp = f s.mp := rfl
@[simp] theorem onMp_pm (f : MsgPort → MsgPort) (s : State) : (s.onMp f).pm = s.pm := rfl
@[simp] theorem onMp_gu (f : MsgPort → MsgPort) (s : State) : (s.onMp f).gu = s.gu := rfl
@[simp] theorem onMp_me (f : MsgPort → MsgPort) (s : State) : (s.onMp f).me = s.me := rfl
@[simp] theorem onMp_sp (f : MsgPort → MsgPort) (s : State) : (s.onMp f).sp = s.sp := rfl
@[simp] theorem onMp_dp (f : MsgPort → MsgPort) (s : State) : (s.onMp f).dp = s.dp := rfl
@[simp] theorem onMp_sm (f : MsgPort → MsgPort) (s : State) : (s.onMp f).sm = s.sm := rfl
@[simp] theorem onMp_jc (f : MsgPort → MsgPort) (s : State) : (s.onMp f).jc = s.jc := rfl
@[simp] theorem onMp_agenda (f : MsgPort → MsgPort) (s : State) : (s.onMp f).agenda = s.agenda := rfl
@[simp] theorem onMp_pending (f : MsgPort → MsgPort) (s : State) : (s.onMp f).pending = s.pending := rfl

@[simp] theorem onPm_clock (f : PlacementMap → PlacementMap) (s : State) : (s.onPm f).clock = s.clock := rfl
@[simp] theorem onPm_part (f : PlacementMap → PlacementMap) (s : State) : (s.onPm f).part = s.part := rfl
@[simp] theorem onPm_stage (f : PlacementMap → PlacementMap) (s : State) : (s.onPm f).stage = s.stage := rfl
@[simp] theorem onPm_draining (f : PlacementMap → PlacementMap) (s : State) : (s.onPm f).draining = s.draining := rfl
@[simp] theorem onPm_mp (f : PlacementMap → PlacementMap) (s : State) : (s.onPm f).mp = s.mp := rfl
@[simp] theorem onPm_pm (f : PlacementMap → PlacementMap) (s : State) : (s.onPm f).pm = f s.pm := rfl
@[simp] theorem onPm_gu (f : PlacementMap → PlacementMap) (s : State) : (s.onPm f).gu = s.gu := rfl
@[simp] theorem onPm_me (f : PlacementMap → PlacementMap) (s : State) : (s.onPm f).me = s.me := rfl
@[simp] theorem onPm_sp (f : PlacementMap → PlacementMap) (s : State) : (s.onPm f).sp = s.sp := rfl
@[simp] theorem onPm_dp (f : PlacementMap → PlacementMap) (s : State) : (s.onPm f).dp = s.dp := rfl
@[simp] theorem onPm_sm (f : PlacementMap → PlacementMap) (s : State) : (s.onPm f).sm = s.sm := rfl
@[simp] theorem onPm_jc (f : PlacementMap → PlacementMap) (s : State) : (s.onPm f).jc = s.jc := rfl
@[simp] theorem onPm_agenda (f : PlacementMap → PlacementMap) (s : State) : (s.onPm f).agenda = s.agenda := rfl
@[simp] theorem onPm_pending (f : PlacementMap → PlacementMap) (s : State) : (s.onPm f).pending = s.pending := rfl

@[simp] theorem onGu_clock (f : GrantUnit → GrantUnit) (s : State) : (s.onGu f).clock = s.clock := rfl
@[simp] theorem onGu_part (f : GrantUnit → GrantUnit) (s : State) : (s.onGu f).part = s.part := rfl
@[simp] theorem onGu_stage (f : GrantUnit → GrantUnit) (s : State) : (s.onGu f).stage = s.stage := rfl
@[simp] theorem onGu_draining (f : GrantUnit → GrantUnit) (s : State) : (s.onGu f).draining = s.draining := rfl
@[simp] theorem onGu_mp (f : GrantUnit → GrantUnit) (s : State) : (s.onGu f).mp = s.mp := rfl
@[simp] theorem onGu_pm (f : GrantUnit → GrantUnit) (s : State) : (s.onGu f).pm = s.pm := rfl
@[simp] theorem onGu_gu (f : GrantUnit → GrantUnit) (s : State) : (s.onGu f).gu = f s.gu := rfl
@[simp] theorem onGu_me (f : GrantUnit → GrantUnit) (s : State) : (s.onGu f).me = s.me := rfl
@[simp] theorem onGu_sp (f : GrantUnit → GrantUnit) (s : State) : (s.onGu f).sp = s.sp := rfl
@[simp] theorem onGu_dp (f : GrantUnit → GrantUnit) (s : State) : (s.onGu f).dp = s.dp := rfl
@[simp] theorem onGu_sm (f : GrantUnit → GrantUnit) (s : State) : (s.onGu f).sm = s.sm := rfl
@[simp] theorem onGu_jc (f : GrantUnit → GrantUnit) (s : State) : (s.onGu f).jc = s.jc := rfl
@[simp] theorem onGu_agenda (f : GrantUnit → GrantUnit) (s : State) : (s.onGu f).agenda = s.agenda := rfl
@[simp] theorem onGu_pending (f : GrantUnit → GrantUnit) (s : State) : (s.onGu f).pending = s.pending := rfl

@[simp] theorem onMe_clock (f : MoveEngine → MoveEngine) (s : State) : (s.onMe f).clock = s.clock := rfl
@[simp] theorem onMe_part (f : MoveEngine → MoveEngine) (s : State) : (s.onMe f).part = s.part := rfl
@[simp] theorem onMe_stage (f : MoveEngine → MoveEngine) (s : State) : (s.onMe f).stage = s.stage := rfl
@[simp] theorem onMe_draining (f : MoveEngine → MoveEngine) (s : State) : (s.onMe f).draining = s.draining := rfl
@[simp] theorem onMe_mp (f : MoveEngine → MoveEngine) (s : State) : (s.onMe f).mp = s.mp := rfl
@[simp] theorem onMe_pm (f : MoveEngine → MoveEngine) (s : State) : (s.onMe f).pm = s.pm := rfl
@[simp] theorem onMe_gu (f : MoveEngine → MoveEngine) (s : State) : (s.onMe f).gu = s.gu := rfl
@[simp] theorem onMe_me (f : MoveEngine → MoveEngine) (s : State) : (s.onMe f).me = f s.me := rfl
@[simp] theorem onMe_sp (f : MoveEngine → MoveEngine) (s : State) : (s.onMe f).sp = s.sp := rfl
@[simp] theorem onMe_dp (f : MoveEngine → MoveEngine) (s : State) : (s.onMe f).dp = s.dp := rfl
@[simp] theorem onMe_sm (f : MoveEngine → MoveEngine) (s : State) : (s.onMe f).sm = s.sm := rfl
@[simp] theorem onMe_jc (f : MoveEngine → MoveEngine) (s : State) : (s.onMe f).jc = s.jc := rfl
@[simp] theorem onMe_agenda (f : MoveEngine → MoveEngine) (s : State) : (s.onMe f).agenda = s.agenda := rfl
@[simp] theorem onMe_pending (f : MoveEngine → MoveEngine) (s : State) : (s.onMe f).pending = s.pending := rfl

@[simp] theorem onSp_clock (f : StagingPool → StagingPool) (s : State) : (s.onSp f).clock = s.clock := rfl
@[simp] theorem onSp_part (f : StagingPool → StagingPool) (s : State) : (s.onSp f).part = s.part := rfl
@[simp] theorem onSp_stage (f : StagingPool → StagingPool) (s : State) : (s.onSp f).stage = s.stage := rfl
@[simp] theorem onSp_draining (f : StagingPool → StagingPool) (s : State) : (s.onSp f).draining = s.draining := rfl
@[simp] theorem onSp_mp (f : StagingPool → StagingPool) (s : State) : (s.onSp f).mp = s.mp := rfl
@[simp] theorem onSp_pm (f : StagingPool → StagingPool) (s : State) : (s.onSp f).pm = s.pm := rfl
@[simp] theorem onSp_gu (f : StagingPool → StagingPool) (s : State) : (s.onSp f).gu = s.gu := rfl
@[simp] theorem onSp_me (f : StagingPool → StagingPool) (s : State) : (s.onSp f).me = s.me := rfl
@[simp] theorem onSp_sp (f : StagingPool → StagingPool) (s : State) : (s.onSp f).sp = f s.sp := rfl
@[simp] theorem onSp_dp (f : StagingPool → StagingPool) (s : State) : (s.onSp f).dp = s.dp := rfl
@[simp] theorem onSp_sm (f : StagingPool → StagingPool) (s : State) : (s.onSp f).sm = s.sm := rfl
@[simp] theorem onSp_jc (f : StagingPool → StagingPool) (s : State) : (s.onSp f).jc = s.jc := rfl
@[simp] theorem onSp_agenda (f : StagingPool → StagingPool) (s : State) : (s.onSp f).agenda = s.agenda := rfl
@[simp] theorem onSp_pending (f : StagingPool → StagingPool) (s : State) : (s.onSp f).pending = s.pending := rfl

@[simp] theorem onDp_clock (f : DrivePort → DrivePort) (s : State) : (s.onDp f).clock = s.clock := rfl
@[simp] theorem onDp_part (f : DrivePort → DrivePort) (s : State) : (s.onDp f).part = s.part := rfl
@[simp] theorem onDp_stage (f : DrivePort → DrivePort) (s : State) : (s.onDp f).stage = s.stage := rfl
@[simp] theorem onDp_draining (f : DrivePort → DrivePort) (s : State) : (s.onDp f).draining = s.draining := rfl
@[simp] theorem onDp_mp (f : DrivePort → DrivePort) (s : State) : (s.onDp f).mp = s.mp := rfl
@[simp] theorem onDp_pm (f : DrivePort → DrivePort) (s : State) : (s.onDp f).pm = s.pm := rfl
@[simp] theorem onDp_gu (f : DrivePort → DrivePort) (s : State) : (s.onDp f).gu = s.gu := rfl
@[simp] theorem onDp_me (f : DrivePort → DrivePort) (s : State) : (s.onDp f).me = s.me := rfl
@[simp] theorem onDp_sp (f : DrivePort → DrivePort) (s : State) : (s.onDp f).sp = s.sp := rfl
@[simp] theorem onDp_dp (f : DrivePort → DrivePort) (s : State) : (s.onDp f).dp = f s.dp := rfl
@[simp] theorem onDp_sm (f : DrivePort → DrivePort) (s : State) : (s.onDp f).sm = s.sm := rfl
@[simp] theorem onDp_jc (f : DrivePort → DrivePort) (s : State) : (s.onDp f).jc = s.jc := rfl
@[simp] theorem onDp_agenda (f : DrivePort → DrivePort) (s : State) : (s.onDp f).agenda = s.agenda := rfl
@[simp] theorem onDp_pending (f : DrivePort → DrivePort) (s : State) : (s.onDp f).pending = s.pending := rfl

@[simp] theorem onSm_clock (f : ShelfMonitor → ShelfMonitor) (s : State) : (s.onSm f).clock = s.clock := rfl
@[simp] theorem onSm_part (f : ShelfMonitor → ShelfMonitor) (s : State) : (s.onSm f).part = s.part := rfl
@[simp] theorem onSm_stage (f : ShelfMonitor → ShelfMonitor) (s : State) : (s.onSm f).stage = s.stage := rfl
@[simp] theorem onSm_draining (f : ShelfMonitor → ShelfMonitor) (s : State) : (s.onSm f).draining = s.draining := rfl
@[simp] theorem onSm_mp (f : ShelfMonitor → ShelfMonitor) (s : State) : (s.onSm f).mp = s.mp := rfl
@[simp] theorem onSm_pm (f : ShelfMonitor → ShelfMonitor) (s : State) : (s.onSm f).pm = s.pm := rfl
@[simp] theorem onSm_gu (f : ShelfMonitor → ShelfMonitor) (s : State) : (s.onSm f).gu = s.gu := rfl
@[simp] theorem onSm_me (f : ShelfMonitor → ShelfMonitor) (s : State) : (s.onSm f).me = s.me := rfl
@[simp] theorem onSm_sp (f : ShelfMonitor → ShelfMonitor) (s : State) : (s.onSm f).sp = s.sp := rfl
@[simp] theorem onSm_dp (f : ShelfMonitor → ShelfMonitor) (s : State) : (s.onSm f).dp = s.dp := rfl
@[simp] theorem onSm_sm (f : ShelfMonitor → ShelfMonitor) (s : State) : (s.onSm f).sm = f s.sm := rfl
@[simp] theorem onSm_jc (f : ShelfMonitor → ShelfMonitor) (s : State) : (s.onSm f).jc = s.jc := rfl
@[simp] theorem onSm_agenda (f : ShelfMonitor → ShelfMonitor) (s : State) : (s.onSm f).agenda = s.agenda := rfl
@[simp] theorem onSm_pending (f : ShelfMonitor → ShelfMonitor) (s : State) : (s.onSm f).pending = s.pending := rfl

@[simp] theorem onJc_clock (f : Journal → Journal) (s : State) : (s.onJc f).clock = s.clock := rfl
@[simp] theorem onJc_part (f : Journal → Journal) (s : State) : (s.onJc f).part = s.part := rfl
@[simp] theorem onJc_stage (f : Journal → Journal) (s : State) : (s.onJc f).stage = s.stage := rfl
@[simp] theorem onJc_draining (f : Journal → Journal) (s : State) : (s.onJc f).draining = s.draining := rfl
@[simp] theorem onJc_mp (f : Journal → Journal) (s : State) : (s.onJc f).mp = s.mp := rfl
@[simp] theorem onJc_pm (f : Journal → Journal) (s : State) : (s.onJc f).pm = s.pm := rfl
@[simp] theorem onJc_gu (f : Journal → Journal) (s : State) : (s.onJc f).gu = s.gu := rfl
@[simp] theorem onJc_me (f : Journal → Journal) (s : State) : (s.onJc f).me = s.me := rfl
@[simp] theorem onJc_sp (f : Journal → Journal) (s : State) : (s.onJc f).sp = s.sp := rfl
@[simp] theorem onJc_dp (f : Journal → Journal) (s : State) : (s.onJc f).dp = s.dp := rfl
@[simp] theorem onJc_sm (f : Journal → Journal) (s : State) : (s.onJc f).sm = s.sm := rfl
@[simp] theorem onJc_jc (f : Journal → Journal) (s : State) : (s.onJc f).jc = f s.jc := rfl
@[simp] theorem onJc_agenda (f : Journal → Journal) (s : State) : (s.onJc f).agenda = s.agenda := rfl
@[simp] theorem onJc_pending (f : Journal → Journal) (s : State) : (s.onJc f).pending = s.pending := rfl

@[simp] theorem post_clock (i : Internal) (s : State) : (s.post i).clock = s.clock := rfl
@[simp] theorem post_part (i : Internal) (s : State) : (s.post i).part = s.part := rfl
@[simp] theorem post_stage (i : Internal) (s : State) : (s.post i).stage = s.stage := rfl
@[simp] theorem post_draining (i : Internal) (s : State) : (s.post i).draining = s.draining := rfl
@[simp] theorem post_mp (i : Internal) (s : State) : (s.post i).mp = s.mp := rfl
@[simp] theorem post_pm (i : Internal) (s : State) : (s.post i).pm = s.pm := rfl
@[simp] theorem post_gu (i : Internal) (s : State) : (s.post i).gu = s.gu := rfl
@[simp] theorem post_me (i : Internal) (s : State) : (s.post i).me = s.me := rfl
@[simp] theorem post_sp (i : Internal) (s : State) : (s.post i).sp = s.sp := rfl
@[simp] theorem post_dp (i : Internal) (s : State) : (s.post i).dp = s.dp := rfl
@[simp] theorem post_sm (i : Internal) (s : State) : (s.post i).sm = s.sm := rfl
@[simp] theorem post_jc (i : Internal) (s : State) : (s.post i).jc = s.jc := rfl
@[simp] theorem post_agenda (i : Internal) (s : State) : (s.post i).agenda = s.agenda ++ [i] := rfl
@[simp] theorem post_pending (i : Internal) (s : State) : (s.post i).pending = s.pending := rfl

@[simp] theorem setMember_clock (id : Nat) (m : Member) (s : State) : (s.setMember id m).clock = s.clock := rfl
@[simp] theorem setMember_part (id : Nat) (m : Member) (s : State) : (s.setMember id m).part = s.part := rfl
@[simp] theorem setMember_stage (id : Nat) (m : Member) (s : State) : (s.setMember id m).stage = s.stage := rfl
@[simp] theorem setMember_draining (id : Nat) (m : Member) (s : State) : (s.setMember id m).draining = s.draining := rfl
@[simp] theorem setMember_mp (id : Nat) (m : Member) (s : State) : (s.setMember id m).mp = s.mp := rfl
@[simp] theorem setMember_pm (id : Nat) (m : Member) (s : State) : (s.setMember id m).pm = { s.pm with members := tableWrite Member.absent s.pm.members id m } := rfl
@[simp] theorem setMember_gu (id : Nat) (m : Member) (s : State) : (s.setMember id m).gu = s.gu := rfl
@[simp] theorem setMember_me (id : Nat) (m : Member) (s : State) : (s.setMember id m).me = s.me := rfl
@[simp] theorem setMember_sp (id : Nat) (m : Member) (s : State) : (s.setMember id m).sp = s.sp := rfl
@[simp] theorem setMember_dp (id : Nat) (m : Member) (s : State) : (s.setMember id m).dp = s.dp := rfl
@[simp] theorem setMember_sm (id : Nat) (m : Member) (s : State) : (s.setMember id m).sm = s.sm := rfl
@[simp] theorem setMember_jc (id : Nat) (m : Member) (s : State) : (s.setMember id m).jc = s.jc := rfl
@[simp] theorem setMember_agenda (id : Nat) (m : Member) (s : State) : (s.setMember id m).agenda = s.agenda := rfl
@[simp] theorem setMember_pending (id : Nat) (m : Member) (s : State) : (s.setMember id m).pending = s.pending := rfl

@[simp] theorem setSet_clock (t : Nat) (e : SetEntry) (s : State) : (s.setSet t e).clock = s.clock := rfl
@[simp] theorem setSet_part (t : Nat) (e : SetEntry) (s : State) : (s.setSet t e).part = s.part := rfl
@[simp] theorem setSet_stage (t : Nat) (e : SetEntry) (s : State) : (s.setSet t e).stage = s.stage := rfl
@[simp] theorem setSet_draining (t : Nat) (e : SetEntry) (s : State) : (s.setSet t e).draining = s.draining := rfl
@[simp] theorem setSet_mp (t : Nat) (e : SetEntry) (s : State) : (s.setSet t e).mp = s.mp := rfl
@[simp] theorem setSet_pm (t : Nat) (e : SetEntry) (s : State) : (s.setSet t e).pm = { s.pm with sets := tableWrite SetEntry.unused s.pm.sets t e } := rfl
@[simp] theorem setSet_gu (t : Nat) (e : SetEntry) (s : State) : (s.setSet t e).gu = s.gu := rfl
@[simp] theorem setSet_me (t : Nat) (e : SetEntry) (s : State) : (s.setSet t e).me = s.me := rfl
@[simp] theorem setSet_sp (t : Nat) (e : SetEntry) (s : State) : (s.setSet t e).sp = s.sp := rfl
@[simp] theorem setSet_dp (t : Nat) (e : SetEntry) (s : State) : (s.setSet t e).dp = s.dp := rfl
@[simp] theorem setSet_sm (t : Nat) (e : SetEntry) (s : State) : (s.setSet t e).sm = s.sm := rfl
@[simp] theorem setSet_jc (t : Nat) (e : SetEntry) (s : State) : (s.setSet t e).jc = s.jc := rfl
@[simp] theorem setSet_agenda (t : Nat) (e : SetEntry) (s : State) : (s.setSet t e).agenda = s.agenda := rfl
@[simp] theorem setSet_pending (t : Nat) (e : SetEntry) (s : State) : (s.setSet t e).pending = s.pending := rfl

@[simp] theorem setVolume_clock (v : Nat) (e : Volume) (s : State) : (s.setVolume v e).clock = s.clock := rfl
@[simp] theorem setVolume_part (v : Nat) (e : Volume) (s : State) : (s.setVolume v e).part = s.part := rfl
@[simp] theorem setVolume_stage (v : Nat) (e : Volume) (s : State) : (s.setVolume v e).stage = s.stage := rfl
@[simp] theorem setVolume_draining (v : Nat) (e : Volume) (s : State) : (s.setVolume v e).draining = s.draining := rfl
@[simp] theorem setVolume_mp (v : Nat) (e : Volume) (s : State) : (s.setVolume v e).mp = s.mp := rfl
@[simp] theorem setVolume_pm (v : Nat) (e : Volume) (s : State) : (s.setVolume v e).pm = { s.pm with volumes := tableWrite Volume.unused s.pm.volumes v e } := rfl
@[simp] theorem setVolume_gu (v : Nat) (e : Volume) (s : State) : (s.setVolume v e).gu = s.gu := rfl
@[simp] theorem setVolume_me (v : Nat) (e : Volume) (s : State) : (s.setVolume v e).me = s.me := rfl
@[simp] theorem setVolume_sp (v : Nat) (e : Volume) (s : State) : (s.setVolume v e).sp = s.sp := rfl
@[simp] theorem setVolume_dp (v : Nat) (e : Volume) (s : State) : (s.setVolume v e).dp = s.dp := rfl
@[simp] theorem setVolume_sm (v : Nat) (e : Volume) (s : State) : (s.setVolume v e).sm = s.sm := rfl
@[simp] theorem setVolume_jc (v : Nat) (e : Volume) (s : State) : (s.setVolume v e).jc = s.jc := rfl
@[simp] theorem setVolume_agenda (v : Nat) (e : Volume) (s : State) : (s.setVolume v e).agenda = s.agenda := rfl
@[simp] theorem setVolume_pending (v : Nat) (e : Volume) (s : State) : (s.setVolume v e).pending = s.pending := rfl

@[simp] theorem setSlab_clock (g : Nat) (e : Slab) (s : State) : (s.setSlab g e).clock = s.clock := rfl
@[simp] theorem setSlab_part (g : Nat) (e : Slab) (s : State) : (s.setSlab g e).part = s.part := rfl
@[simp] theorem setSlab_stage (g : Nat) (e : Slab) (s : State) : (s.setSlab g e).stage = s.stage := rfl
@[simp] theorem setSlab_draining (g : Nat) (e : Slab) (s : State) : (s.setSlab g e).draining = s.draining := rfl
@[simp] theorem setSlab_mp (g : Nat) (e : Slab) (s : State) : (s.setSlab g e).mp = s.mp := rfl
@[simp] theorem setSlab_pm (g : Nat) (e : Slab) (s : State) : (s.setSlab g e).pm = { s.pm with slabs := tableWrite Slab.unused s.pm.slabs g e } := rfl
@[simp] theorem setSlab_gu (g : Nat) (e : Slab) (s : State) : (s.setSlab g e).gu = s.gu := rfl
@[simp] theorem setSlab_me (g : Nat) (e : Slab) (s : State) : (s.setSlab g e).me = s.me := rfl
@[simp] theorem setSlab_sp (g : Nat) (e : Slab) (s : State) : (s.setSlab g e).sp = s.sp := rfl
@[simp] theorem setSlab_dp (g : Nat) (e : Slab) (s : State) : (s.setSlab g e).dp = s.dp := rfl
@[simp] theorem setSlab_sm (g : Nat) (e : Slab) (s : State) : (s.setSlab g e).sm = s.sm := rfl
@[simp] theorem setSlab_jc (g : Nat) (e : Slab) (s : State) : (s.setSlab g e).jc = s.jc := rfl
@[simp] theorem setSlab_agenda (g : Nat) (e : Slab) (s : State) : (s.setSlab g e).agenda = s.agenda := rfl
@[simp] theorem setSlab_pending (g : Nat) (e : Slab) (s : State) : (s.setSlab g e).pending = s.pending := rfl

@[simp] theorem setHold_clock (h : Nat) (e : Hold) (s : State) : (s.setHold h e).clock = s.clock := rfl
@[simp] theorem setHold_part (h : Nat) (e : Hold) (s : State) : (s.setHold h e).part = s.part := rfl
@[simp] theorem setHold_stage (h : Nat) (e : Hold) (s : State) : (s.setHold h e).stage = s.stage := rfl
@[simp] theorem setHold_draining (h : Nat) (e : Hold) (s : State) : (s.setHold h e).draining = s.draining := rfl
@[simp] theorem setHold_mp (h : Nat) (e : Hold) (s : State) : (s.setHold h e).mp = s.mp := rfl
@[simp] theorem setHold_pm (h : Nat) (e : Hold) (s : State) : (s.setHold h e).pm = s.pm := rfl
@[simp] theorem setHold_gu (h : Nat) (e : Hold) (s : State) : (s.setHold h e).gu = { s.gu with holds := tableWrite (Hold.free 0) s.gu.holds h e } := rfl
@[simp] theorem setHold_me (h : Nat) (e : Hold) (s : State) : (s.setHold h e).me = s.me := rfl
@[simp] theorem setHold_sp (h : Nat) (e : Hold) (s : State) : (s.setHold h e).sp = s.sp := rfl
@[simp] theorem setHold_dp (h : Nat) (e : Hold) (s : State) : (s.setHold h e).dp = s.dp := rfl
@[simp] theorem setHold_sm (h : Nat) (e : Hold) (s : State) : (s.setHold h e).sm = s.sm := rfl
@[simp] theorem setHold_jc (h : Nat) (e : Hold) (s : State) : (s.setHold h e).jc = s.jc := rfl
@[simp] theorem setHold_agenda (h : Nat) (e : Hold) (s : State) : (s.setHold h e).agenda = s.agenda := rfl
@[simp] theorem setHold_pending (h : Nat) (e : Hold) (s : State) : (s.setHold h e).pending = s.pending := rfl

@[simp] theorem setLane_clock (n : Nat) (l : Lane) (s : State) : (s.setLane n l).clock = s.clock := rfl
@[simp] theorem setLane_part (n : Nat) (l : Lane) (s : State) : (s.setLane n l).part = s.part := rfl
@[simp] theorem setLane_stage (n : Nat) (l : Lane) (s : State) : (s.setLane n l).stage = s.stage := rfl
@[simp] theorem setLane_draining (n : Nat) (l : Lane) (s : State) : (s.setLane n l).draining = s.draining := rfl
@[simp] theorem setLane_mp (n : Nat) (l : Lane) (s : State) : (s.setLane n l).mp = s.mp := rfl
@[simp] theorem setLane_pm (n : Nat) (l : Lane) (s : State) : (s.setLane n l).pm = s.pm := rfl
@[simp] theorem setLane_gu (n : Nat) (l : Lane) (s : State) : (s.setLane n l).gu = s.gu := rfl
@[simp] theorem setLane_me (n : Nat) (l : Lane) (s : State) : (s.setLane n l).me = { s.me with lanes := tableWrite Lane.idle s.me.lanes n l } := rfl
@[simp] theorem setLane_sp (n : Nat) (l : Lane) (s : State) : (s.setLane n l).sp = s.sp := rfl
@[simp] theorem setLane_dp (n : Nat) (l : Lane) (s : State) : (s.setLane n l).dp = s.dp := rfl
@[simp] theorem setLane_sm (n : Nat) (l : Lane) (s : State) : (s.setLane n l).sm = s.sm := rfl
@[simp] theorem setLane_jc (n : Nat) (l : Lane) (s : State) : (s.setLane n l).jc = s.jc := rfl
@[simp] theorem setLane_agenda (n : Nat) (l : Lane) (s : State) : (s.setLane n l).agenda = s.agenda := rfl
@[simp] theorem setLane_pending (n : Nat) (l : Lane) (s : State) : (s.setLane n l).pending = s.pending := rfl

@[simp] theorem setRing_clock (e : Nat) (r : RingEntry) (s : State) : (s.setRing e r).clock = s.clock := rfl
@[simp] theorem setRing_part (e : Nat) (r : RingEntry) (s : State) : (s.setRing e r).part = s.part := rfl
@[simp] theorem setRing_stage (e : Nat) (r : RingEntry) (s : State) : (s.setRing e r).stage = s.stage := rfl
@[simp] theorem setRing_draining (e : Nat) (r : RingEntry) (s : State) : (s.setRing e r).draining = s.draining := rfl
@[simp] theorem setRing_mp (e : Nat) (r : RingEntry) (s : State) : (s.setRing e r).mp = s.mp := rfl
@[simp] theorem setRing_pm (e : Nat) (r : RingEntry) (s : State) : (s.setRing e r).pm = s.pm := rfl
@[simp] theorem setRing_gu (e : Nat) (r : RingEntry) (s : State) : (s.setRing e r).gu = s.gu := rfl
@[simp] theorem setRing_me (e : Nat) (r : RingEntry) (s : State) : (s.setRing e r).me = s.me := rfl
@[simp] theorem setRing_sp (e : Nat) (r : RingEntry) (s : State) : (s.setRing e r).sp = s.sp := rfl
@[simp] theorem setRing_dp (e : Nat) (r : RingEntry) (s : State) : (s.setRing e r).dp = { s.dp with ring := tableWrite (RingEntry.free 0) s.dp.ring e r } := rfl
@[simp] theorem setRing_sm (e : Nat) (r : RingEntry) (s : State) : (s.setRing e r).sm = s.sm := rfl
@[simp] theorem setRing_jc (e : Nat) (r : RingEntry) (s : State) : (s.setRing e r).jc = s.jc := rfl
@[simp] theorem setRing_agenda (e : Nat) (r : RingEntry) (s : State) : (s.setRing e r).agenda = s.agenda := rfl
@[simp] theorem setRing_pending (e : Nat) (r : RingEntry) (s : State) : (s.setRing e r).pending = s.pending := rfl

@[simp] theorem setShelf_clock (a : Nat) (e : Shelf) (s : State) : (s.setShelf a e).clock = s.clock := rfl
@[simp] theorem setShelf_part (a : Nat) (e : Shelf) (s : State) : (s.setShelf a e).part = s.part := rfl
@[simp] theorem setShelf_stage (a : Nat) (e : Shelf) (s : State) : (s.setShelf a e).stage = s.stage := rfl
@[simp] theorem setShelf_draining (a : Nat) (e : Shelf) (s : State) : (s.setShelf a e).draining = s.draining := rfl
@[simp] theorem setShelf_mp (a : Nat) (e : Shelf) (s : State) : (s.setShelf a e).mp = s.mp := rfl
@[simp] theorem setShelf_pm (a : Nat) (e : Shelf) (s : State) : (s.setShelf a e).pm = s.pm := rfl
@[simp] theorem setShelf_gu (a : Nat) (e : Shelf) (s : State) : (s.setShelf a e).gu = s.gu := rfl
@[simp] theorem setShelf_me (a : Nat) (e : Shelf) (s : State) : (s.setShelf a e).me = s.me := rfl
@[simp] theorem setShelf_sp (a : Nat) (e : Shelf) (s : State) : (s.setShelf a e).sp = s.sp := rfl
@[simp] theorem setShelf_dp (a : Nat) (e : Shelf) (s : State) : (s.setShelf a e).dp = s.dp := rfl
@[simp] theorem setShelf_sm (a : Nat) (e : Shelf) (s : State) : (s.setShelf a e).sm = { s.sm with shelves := tableWrite Shelf.unseen s.sm.shelves a e } := rfl
@[simp] theorem setShelf_jc (a : Nat) (e : Shelf) (s : State) : (s.setShelf a e).jc = s.jc := rfl
@[simp] theorem setShelf_agenda (a : Nat) (e : Shelf) (s : State) : (s.setShelf a e).agenda = s.agenda := rfl
@[simp] theorem setShelf_pending (a : Nat) (e : Shelf) (s : State) : (s.setShelf a e).pending = s.pending := rfl

@[simp] theorem setStoreBlock_clock (b : Nat) (e : StoreBlock) (s : State) : (s.setStoreBlock b e).clock = s.clock := rfl
@[simp] theorem setStoreBlock_part (b : Nat) (e : StoreBlock) (s : State) : (s.setStoreBlock b e).part = s.part := rfl
@[simp] theorem setStoreBlock_stage (b : Nat) (e : StoreBlock) (s : State) : (s.setStoreBlock b e).stage = s.stage := rfl
@[simp] theorem setStoreBlock_draining (b : Nat) (e : StoreBlock) (s : State) : (s.setStoreBlock b e).draining = s.draining := rfl
@[simp] theorem setStoreBlock_mp (b : Nat) (e : StoreBlock) (s : State) : (s.setStoreBlock b e).mp = s.mp := rfl
@[simp] theorem setStoreBlock_pm (b : Nat) (e : StoreBlock) (s : State) : (s.setStoreBlock b e).pm = s.pm := rfl
@[simp] theorem setStoreBlock_gu (b : Nat) (e : StoreBlock) (s : State) : (s.setStoreBlock b e).gu = s.gu := rfl
@[simp] theorem setStoreBlock_me (b : Nat) (e : StoreBlock) (s : State) : (s.setStoreBlock b e).me = s.me := rfl
@[simp] theorem setStoreBlock_sp (b : Nat) (e : StoreBlock) (s : State) : (s.setStoreBlock b e).sp = s.sp := rfl
@[simp] theorem setStoreBlock_dp (b : Nat) (e : StoreBlock) (s : State) : (s.setStoreBlock b e).dp = s.dp := rfl
@[simp] theorem setStoreBlock_sm (b : Nat) (e : StoreBlock) (s : State) : (s.setStoreBlock b e).sm = s.sm := rfl
@[simp] theorem setStoreBlock_jc (b : Nat) (e : StoreBlock) (s : State) : (s.setStoreBlock b e).jc = { s.jc with blocks := tableWrite StoreBlock.written s.jc.blocks b e } := rfl
@[simp] theorem setStoreBlock_agenda (b : Nat) (e : StoreBlock) (s : State) : (s.setStoreBlock b e).agenda = s.agenda := rfl
@[simp] theorem setStoreBlock_pending (b : Nat) (e : StoreBlock) (s : State) : (s.setStoreBlock b e).pending = s.pending := rfl

@[simp] theorem layBlock_clock (position : Nat) (b : Block) (s : State) : (s.layBlock position b).clock = s.clock := rfl
@[simp] theorem layBlock_part (position : Nat) (b : Block) (s : State) : (s.layBlock position b).part = s.part := rfl
@[simp] theorem layBlock_stage (position : Nat) (b : Block) (s : State) : (s.layBlock position b).stage = s.stage := rfl
@[simp] theorem layBlock_draining (position : Nat) (b : Block) (s : State) : (s.layBlock position b).draining = s.draining := rfl
@[simp] theorem layBlock_mp (position : Nat) (b : Block) (s : State) : (s.layBlock position b).mp = s.mp := rfl
@[simp] theorem layBlock_pm (position : Nat) (b : Block) (s : State) : (s.layBlock position b).pm = s.pm := rfl
@[simp] theorem layBlock_gu (position : Nat) (b : Block) (s : State) : (s.layBlock position b).gu = s.gu := rfl
@[simp] theorem layBlock_me (position : Nat) (b : Block) (s : State) : (s.layBlock position b).me = s.me := rfl
@[simp] theorem layBlock_sp (position : Nat) (b : Block) (s : State) : (s.layBlock position b).sp = { s.sp with memory := Memory.write s.sp.memory position b } := rfl
@[simp] theorem layBlock_dp (position : Nat) (b : Block) (s : State) : (s.layBlock position b).dp = s.dp := rfl
@[simp] theorem layBlock_sm (position : Nat) (b : Block) (s : State) : (s.layBlock position b).sm = s.sm := rfl
@[simp] theorem layBlock_jc (position : Nat) (b : Block) (s : State) : (s.layBlock position b).jc = s.jc := rfl
@[simp] theorem layBlock_agenda (position : Nat) (b : Block) (s : State) : (s.layBlock position b).agenda = s.agenda := rfl
@[simp] theorem layBlock_pending (position : Nat) (b : Block) (s : State) : (s.layBlock position b).pending = s.pending := rfl

@[simp] theorem placeFrame_clock (f : OutFrame) (s : State) : (s.placeFrame f).clock = s.clock := rfl
@[simp] theorem placeFrame_part (f : OutFrame) (s : State) : (s.placeFrame f).part = s.part := rfl
@[simp] theorem placeFrame_stage (f : OutFrame) (s : State) : (s.placeFrame f).stage = s.stage := rfl
@[simp] theorem placeFrame_draining (f : OutFrame) (s : State) : (s.placeFrame f).draining = s.draining := rfl
@[simp] theorem placeFrame_mp (f : OutFrame) (s : State) : (s.placeFrame f).mp = { s.mp with outbound := s.mp.outbound ++ [f] } := rfl
@[simp] theorem placeFrame_pm (f : OutFrame) (s : State) : (s.placeFrame f).pm = s.pm := rfl
@[simp] theorem placeFrame_gu (f : OutFrame) (s : State) : (s.placeFrame f).gu = s.gu := rfl
@[simp] theorem placeFrame_me (f : OutFrame) (s : State) : (s.placeFrame f).me = s.me := rfl
@[simp] theorem placeFrame_sp (f : OutFrame) (s : State) : (s.placeFrame f).sp = s.sp := rfl
@[simp] theorem placeFrame_dp (f : OutFrame) (s : State) : (s.placeFrame f).dp = s.dp := rfl
@[simp] theorem placeFrame_sm (f : OutFrame) (s : State) : (s.placeFrame f).sm = s.sm := rfl
@[simp] theorem placeFrame_jc (f : OutFrame) (s : State) : (s.placeFrame f).jc = s.jc := rfl
@[simp] theorem placeFrame_agenda (f : OutFrame) (s : State) : (s.placeFrame f).agenda = s.agenda := rfl
@[simp] theorem placeFrame_pending (f : OutFrame) (s : State) : (s.placeFrame f).pending = s.pending := rfl

@[simp] theorem send_clock (m : FabricMsg) (s : State) : (s.send m).clock = s.clock := rfl
@[simp] theorem send_part (m : FabricMsg) (s : State) : (s.send m).part = s.part := rfl
@[simp] theorem send_stage (m : FabricMsg) (s : State) : (s.send m).stage = s.stage := rfl
@[simp] theorem send_draining (m : FabricMsg) (s : State) : (s.send m).draining = s.draining := rfl
@[simp] theorem send_mp (m : FabricMsg) (s : State) : (s.send m).mp = s.mp := rfl
@[simp] theorem send_pm (m : FabricMsg) (s : State) : (s.send m).pm = s.pm := rfl
@[simp] theorem send_gu (m : FabricMsg) (s : State) : (s.send m).gu = s.gu := rfl
@[simp] theorem send_me (m : FabricMsg) (s : State) : (s.send m).me = s.me := rfl
@[simp] theorem send_sp (m : FabricMsg) (s : State) : (s.send m).sp = s.sp := rfl
@[simp] theorem send_dp (m : FabricMsg) (s : State) : (s.send m).dp = { s.dp with sent := s.dp.sent ++ [m] } := rfl
@[simp] theorem send_sm (m : FabricMsg) (s : State) : (s.send m).sm = s.sm := rfl
@[simp] theorem send_jc (m : FabricMsg) (s : State) : (s.send m).jc = s.jc := rfl
@[simp] theorem send_agenda (m : FabricMsg) (s : State) : (s.send m).agenda = s.agenda := rfl
@[simp] theorem send_pending (m : FabricMsg) (s : State) : (s.send m).pending = s.pending := rfl

@[simp] theorem setErrorRun_clock (id run : Nat) (s : State) : (State.setErrorRun id run s).clock = s.clock := rfl
@[simp] theorem setErrorRun_part (id run : Nat) (s : State) : (State.setErrorRun id run s).part = s.part := rfl
@[simp] theorem setErrorRun_stage (id run : Nat) (s : State) : (State.setErrorRun id run s).stage = s.stage := rfl
@[simp] theorem setErrorRun_draining (id run : Nat) (s : State) : (State.setErrorRun id run s).draining = s.draining := rfl
@[simp] theorem setErrorRun_mp (id run : Nat) (s : State) : (State.setErrorRun id run s).mp = s.mp := rfl
@[simp] theorem setErrorRun_pm (id run : Nat) (s : State) : (State.setErrorRun id run s).pm = s.pm := rfl
@[simp] theorem setErrorRun_gu (id run : Nat) (s : State) : (State.setErrorRun id run s).gu = s.gu := rfl
@[simp] theorem setErrorRun_me (id run : Nat) (s : State) : (State.setErrorRun id run s).me = s.me := rfl
@[simp] theorem setErrorRun_sp (id run : Nat) (s : State) : (State.setErrorRun id run s).sp = s.sp := rfl
@[simp] theorem setErrorRun_dp (id run : Nat) (s : State) : (State.setErrorRun id run s).dp = { s.dp with errorRuns := tableWrite 0 s.dp.errorRuns id run } := rfl
@[simp] theorem setErrorRun_sm (id run : Nat) (s : State) : (State.setErrorRun id run s).sm = s.sm := rfl
@[simp] theorem setErrorRun_jc (id run : Nat) (s : State) : (State.setErrorRun id run s).jc = s.jc := rfl
@[simp] theorem setErrorRun_agenda (id run : Nat) (s : State) : (State.setErrorRun id run s).agenda = s.agenda := rfl
@[simp] theorem setErrorRun_pending (id run : Nat) (s : State) : (State.setErrorRun id run s).pending = s.pending := rfl

end Sys2Proof.Machine
end

