-- ==== Sys2Proof/Laws/Journal.lean ====
section
/-! SUPPORT. What queueing a record does where the journal takes it at once, the changes of slots, and the pages that a lane asks for
and gives back. -/

set_option Elab.async false

namespace Sys2Proof.Machine

/-! ## Records -/

/-- A record that the entry does not check again: any but a DAMAGE_CLEAR. -/
def RecordBody.plain : RecordBody → Bool
  | .damageClear .. => false
  | _ => true

/-- A plain record with a number left takes it. -/
theorem enterRecord_plain {owner : JOwner} {w : Work} {s : State} (hp : w.body.plain = true)
    (hn : s.jc.nextSeq ≤ Config.sequenceMax) : enterRecord owner w s = numberRecord owner w s := by
  obtain ⟨body, reply⟩ := w
  unfold enterRecord
  rw [if_pos hn]
  cases body <;> simp_all [RecordBody.plain]

/-- With a page for it in the head, or an operation under way, the store begins the lowest-numbered record or goes on. -/
theorem kickStore_started {s : State} (hw : s.jc.state = .writing) (ho : s.jc.op.isSome = true ∨ s.headSpent = false)
    {r : Record} (hr : s.jc.nextRecord = some r) : kickStore s = s.onJc (Journal.started s.now) := by
  unfold kickStore
  by_cases hop : s.jc.op = none
  · have hh : s.headSpent = false := by
      rcases ho with h | h
      · simp [hop] at h
      · exact h
    rw [if_pos ⟨hop, Or.inl (by simp [Journal.active, hw])⟩]
    have hn : openNext s = s := by
      unfold openNext
      split
      · rfl
      · rw [if_neg (by simp [hh])]
    have hi : imageDue s = s := by
      unfold imageDue
      rw [if_neg (by simp [hw])]
    rw [hn, hi]
    simp only [hr, hh, Bool.false_eq_true, if_false]
    unfold programRecord
    cases hd : s.jc.head with
    | none => simp [State.onJc, Journal.started, hop, hr, hd]
    | some h => simp [State.onJc, Journal.started, hop, hr, hd]
  · rw [if_neg (fun h => hop h.1)]
    cases ho' : s.jc.op with
    | none => exact absurd ho' hop
    | some o => simp [State.onJc, Journal.started, ho']

/-- Of two records, one of which there is, one is the lower-numbered. -/
theorem lowerRecord_isSome {a b : Option Record} (h : a.isSome = true) : (lowerRecord a b).isSome = true := by
  cases a with
  | none => simp at h
  | some x =>
    cases b with
    | none => rfl
    | some y =>
      simp only [lowerRecord]
      split <;> rfl

/-- With a record in the queue there is a next one. -/
theorem nextRecord_some {j : Journal} (h : j.queue ≠ []) : ∃ r, j.nextRecord = some r := by
  have hq : j.queue.head?.isSome = true := by
    cases hq : j.queue with
    | nil => exact absurd hq h
    | cons a rest => rfl
  exact Option.isSome_iff_exists.1 (lowerRecord_isSome (lowerRecord_isSome hq))

/-- A plain record queued while the journal is open: it has its number, the store goes on, and its owner is told. -/
theorem queueWork_open {owner : JOwner} {w : Work} {s : State} (h : s.journalOpen) (hp : w.body.plain = true) :
    queueWork owner w s =
      (s.withRecord owner w.body w.reply).post (.recordQueued ⟨s.jc.nextSeq, w.body, owner, w.reply⟩) := by
  obtain ⟨hw, hr, hl, hn, ho⟩ := h
  have ha : s.jc.active = true := by simp [Journal.active, hw]
  unfold queueWork
  rw [ha, hr, hl, enterRecord_plain hp hn]
  simp only [List.isEmpty_nil, Bool.and_self, if_true]
  obtain ⟨r, hnr⟩ := nextRecord_some
    (j := { s.jc with queue := s.jc.queue ++ [⟨s.jc.nextSeq, w.body, owner, w.reply⟩], nextSeq := s.jc.nextSeq + 1 })
    (by simp)
  rw [kickStore_started (s := numberRecord owner w s) hw ho hnr]
  rfl

/-! ## Slots -/

/-- A change of a slot record that neither enters nor leaves FREE changes that record alone. -/
theorem writeSlot_same {p : Place} {v : Slot} {s : State} (h : (s.slot p).state = .free ↔ v.state = .free) :
    s.writeSlot p v = s.onPm (fun m => { m with slots := tableWrite Slot.free m.slots (slotKey p) v }) := by
  unfold State.writeSlot
  by_cases hf : (s.slot p).state = .free
  · have hv := h.1 hf
    simp [hf, hv]
  · have hv : ¬v.state = .free := fun hv => hf (h.2 hv)
    simp [hf, hv]

theorem raiseRef_eq (q : Place) (s : State) :
    s.raiseRef q = s.onPm (fun m =>
      { m with slots := tableWrite Slot.free m.slots (slotKey q) { s.slot q with refs := (s.slot q).refs + 1 } }) :=
  writeSlot_same Iff.rfl

theorem holdSlot_eq (n : Nat) (q : Place) (s : State) :
    s.holdSlot n q = s.onPm (fun m =>
      { m with slots := tableWrite Slot.free m.slots (slotKey q) { s.slot q with lane := some n } }) :=
  writeSlot_same Iff.rfl

/-- A slot written changes slots and sets alone. -/
theorem writeSlot_pm (p : Place) (v : Slot) (s : State) : ∃ m, s.writeSlot p v = { s with pm := m } := by
  unfold State.writeSlot
  dsimp only
  split
  · exact ⟨_, rfl⟩
  · split <;> exact ⟨_, rfl⟩

/-- A record that no request waits for is queued at once where the journal takes it, whatever its kind. -/
theorem queueRecord_open {owner : JOwner} {body : RecordBody} {s : State} (h : s.journalOpen) :
    queueRecord owner body s
      = (s.withRecord owner body none).post (.recordQueued ⟨s.jc.nextSeq, body, owner, none⟩) := by
  obtain ⟨hw, hr, he, hn, ho⟩ := h
  have hq : enterRecord owner ⟨body, none⟩ s = numberRecord owner ⟨body, none⟩ s := by
    unfold enterRecord
    rw [if_pos hn]
    cases body <;> rfl
  unfold queueRecord queueWork
  rw [if_pos (by simp [Journal.active, hw]), if_pos (by simp [hr, he]), hq]
  obtain ⟨r, hr'⟩ := nextRecord_some (j := (numberRecord owner ⟨body, none⟩ s).jc)
    (by simp [numberRecord, State.onJc, State.post])
  rw [kickStore_started (s := numberRecord owner ⟨body, none⟩ s) hw ho hr']
  rfl

/-! ## Pages asked for and released -/

/-- A lane that does not wait for pages, or holds some, asks for none. -/
theorem askPages_none {n : Nat} {s : State} (h : (s.lane n).state ≠ .waitPages ∨ (s.lane n).pages ≠ []) :
    askPages n s = s := by
  unfold askPages
  dsimp only
  rw [if_neg]
  rintro ⟨h1, h2, -⟩
  exact h.elim (fun h => h h1) (fun h => h h2)

/-- A lane that asks for pages joins the wait list where others wait or too few pages are free. -/
theorem askPages_waits {n : Nat} {s : State} (hs : (s.lane n).state = .waitPages) (hp : (s.lane n).pages = [])
    (hr : s.waitsForRoom (.lane n) = false) (hl : s.onPageList n = false)
    (hw : s.sp.waiting ≠ [] ∨ s.sp.free.length < rowPages (s.rowSet (s.lane n))) :
    askPages n s = s.onSp (fun p => { p with waiting := p.waiting ++ [(n, rowPages (s.rowSet (s.lane n)))] }) := by
  unfold askPages
  dsimp only
  rw [if_pos ⟨hs, hp, hr, hl⟩, if_neg]
  rintro ⟨h1, h2⟩
  rcases hw with h | h
  · exact h h1
  · omega

/-- A lane that asks for pages takes the lowest free ones where nobody waits and enough are free. -/
theorem askPages_takes {n : Nat} {s : State} (hs : (s.lane n).state = .waitPages) (hp : (s.lane n).pages = [])
    (hr : s.waitsForRoom (.lane n) = false) (hl : s.onPageList n = false) (hw : s.sp.waiting = [])
    (hf : rowPages (s.rowSet (s.lane n)) ≤ s.sp.free.length) :
    askPages n s = ((s.onSp (fun p => { p with free := p.free.drop (rowPages (s.rowSet (s.lane n))) })).onLane n
      (fun l => { l with pages := s.sp.free.take (rowPages (s.rowSet (s.lane n))) })).post (.pagesGranted n) := by
  unfold askPages
  dsimp only
  rw [if_pos ⟨hs, hp, hr, hl⟩, if_pos ⟨hw, hf⟩]
  unfold reservePages
  rw [if_pos hs]
  simp [State.onLane, State.lane, State.onSp] at hp ⊢
  rw [hp]
  simp

/-- Pages are released to the free list alone where nobody waits for any. -/
theorem releasePages_alone {n : Nat} {s : State} (hw : s.sp.waiting = []) :
    releasePages n s = (s.onSp (fun p => { p with free := (s.lane n).pages.foldr insertRising p.free })).setLane n
      { s.lane n with pages := [] } := by
  have h : ∀ (k : Nat) (t : State), t.sp.waiting = [] → servePages k t = t := by
    intro k t ht
    cases k with
    | zero => rfl
    | succ k => simp [servePages, ht]
  unfold releasePages releaseAs
  exact h _ _ (by simpa [State.setLane, State.onMe, State.onSp] using hw)

/-! ## Works dropped from the room wait list -/

/-- No work of a lane that passes the test waits for room once such works have been dropped. -/
theorem dropWorks_dropped {n : Nat} {p : Work → Bool} {s : State} :
    ∀ e ∈ (dropWorks n p s).jc.roomWait, e.1 = .lane n → ∀ w ∈ e.2, p w = false := by
  intro e he hn w hw
  simp only [dropWorks, State.onJc, List.mem_filter, List.mem_map] at he
  obtain ⟨⟨e', _, rfl⟩, _⟩ := he
  split at hw
  · simpa using (List.mem_filter.mp hw).2
  · next h => exact absurd (by simpa [h] using hn) h

/-- Dropping works of a lane changes the room wait list alone. -/
theorem dropWorks_eq (n : Nat) (p : Work → Bool) (s : State) :
    ∃ waiting, dropWorks n p s = { s with jc := { s.jc with roomWait := waiting } } := ⟨_, rfl⟩

end Sys2Proof.Machine
end

