-- ==== Sys2Proof/Laws/Pages.lean ====
section
/-! SUPPORT. The division of the general pages between the free ones and the lanes (R108): what changing a lane's record, taking
pages and giving them back do to it. -/

namespace Sys2Proof.Machine

/-! ## The pages held, lane after lane -/

theorem pagesHeld_cons (e : Nat × Lane) (rest : List (Nat × Lane)) : pagesHeld (e :: rest) = e.2.pages ++ pagesHeld rest := by
  simp [pagesHeld]

theorem pagesHeld_insert (lanes : List (Nat × Lane)) (n : Nat) (l : Lane) :
    (pagesHeld (tableInsert lanes n l)).Perm (l.pages ++ pagesHeld lanes) := by
  induction lanes with
  | nil => simp [tableInsert, pagesHeld]
  | cons e rest ih =>
    obtain ⟨j, w⟩ := e
    unfold tableInsert
    split
    · rw [pagesHeld_cons]
    · rw [pagesHeld_cons, pagesHeld_cons]
      refine (List.Perm.append_left _ ih).trans ?_
      rw [← List.append_assoc, ← List.append_assoc]
      exact List.Perm.append_right _ List.perm_append_comm

theorem tableWfFrom_not_mem {lanes : List (Nat × Lane)} {low n : Nat} (h : tableWfFrom Lane.idle low lanes = true)
    (hn : n < low) : ∀ w, (n, w) ∉ lanes := by
  induction lanes generalizing low with
  | nil => simp
  | cons e rest ih =>
    obtain ⟨j, v⟩ := e
    simp only [tableWfFrom, Bool.and_eq_true, decide_eq_true_eq] at h
    intro w hw
    rcases List.mem_cons.mp hw with hw | hw
    · simp only [Prod.mk.injEq] at hw
      omega
    · exact ih h.2 (by omega) w hw

theorem tableRead_of_not_mem {lanes : List (Nat × Lane)} {n : Nat} (h : ∀ w, (n, w) ∉ lanes) :
    tableRead Lane.idle lanes n = Lane.idle := by
  induction lanes with
  | nil => rfl
  | cons e rest ih =>
    obtain ⟨j, v⟩ := e
    have hj : j ≠ n := fun hh => h v (by simp [hh])
    simp only [tableRead, if_neg hj]
    exact ih (fun w hw => h w (List.mem_cons_of_mem _ hw))

/-- The pages that a lane holds are the ones its record lists. -/
theorem pagesHeld_erase {lanes : List (Nat × Lane)} {low : Nat} (h : tableWfFrom Lane.idle low lanes = true) (n : Nat) :
    (pagesHeld lanes).Perm ((tableRead Lane.idle lanes n).pages ++ pagesHeld (tableErase lanes n)) := by
  induction lanes generalizing low with
  | nil => simp [pagesHeld, tableRead, tableErase, Lane.idle]
  | cons e rest ih =>
    obtain ⟨j, v⟩ := e
    simp only [tableWfFrom, Bool.and_eq_true, decide_eq_true_eq] at h
    by_cases hj : j = n
    · subst hj
      have hrest := tableWfFrom_not_mem h.2 (Nat.lt_succ_self j)
      simp only [tableErase, tableRead, if_true, tableErase_of_not_mem hrest, pagesHeld_cons]
      exact List.Perm.refl _
    · simp only [tableErase, tableRead, if_neg hj, pagesHeld_cons]
      refine (List.Perm.append_left _ (ih h.2)).trans ?_
      rw [← List.append_assoc, ← List.append_assoc]
      exact List.Perm.append_right _ List.perm_append_comm

/-- Writing a lane's record. -/
theorem pagesHeld_write (lanes : List (Nat × Lane)) (n : Nat) (l : Lane) :
    (pagesHeld (tableWrite Lane.idle lanes n l)).Perm (l.pages ++ pagesHeld (tableErase lanes n)) := by
  unfold tableWrite
  split
  · next hl => simp [hl, Lane.idle]
  · exact pagesHeld_insert _ n l

/-- A change of a lane's record, and of the free pages by what the record gains or gives back. -/
theorem pagesDivided_write {free free' : List Nat} {lanes : List (Nat × Lane)} {n : Nat} {l : Lane}
    (h : pagesDivided free lanes) (hp : (free' ++ l.pages).Perm (free ++ (tableRead Lane.idle lanes n).pages))
    (hi : l.state = .idle → l.pages = []) : pagesDivided free' (tableWrite Lane.idle lanes n l) := by
  obtain ⟨h1, h2, h3⟩ := h
  refine ⟨?_, tableWf_tableWrite n l h2, fun k => ?_⟩
  · have hw := pagesHeld_write lanes n l
    have he := pagesHeld_erase h2 n
    refine ((List.Perm.append_left _ hw).trans ?_).trans ((List.Perm.append_left _ he).symm.trans h1)
    rw [← List.append_assoc, ← List.append_assoc]
    exact List.Perm.append_right _ hp
  · by_cases hk : k = n
    · subst hk
      rw [tableRead_tableWrite_same]
      exact hi
    · rw [tableRead_tableWrite_other _ _ _ hk]
      exact h3 k

/-- Every page free, every lane in IDLE: what every reset leaves. -/
theorem pagesDivided_reset : pagesDivided (List.range 192) [] := ⟨by simp [pagesHeld, Config.generalPages], rfl, fun _ _ => rfl⟩

/-! ## Giving pages back -/

theorem insertRising_perm {n : Nat} {l : List Nat} (h : n ∉ l) : (insertRising n l).Perm (n :: l) := by
  induction l with
  | nil => exact List.Perm.refl _
  | cons m rest ih =>
    have hm : n ≠ m := fun hh => h (hh ▸ List.mem_cons_self ..)
    unfold insertRising
    split
    · exact List.Perm.refl _
    · exact ((ih (fun hh => h (List.mem_cons_of_mem _ hh))).cons m).trans (List.Perm.swap n m rest)

theorem foldr_insertRising_perm {pages free : List Nat} (h : (pages ++ free).Nodup) :
    (pages.foldr insertRising free).Perm (pages ++ free) := by
  induction pages with
  | nil => exact List.Perm.refl _
  | cons p rest ih =>
    simp only [List.cons_append, List.nodup_cons] at h
    have hr := ih h.2
    exact (insertRising_perm (fun hh => h.1 (hr.subset hh))).trans (hr.cons p)

/-- No page is free and held at once. -/
theorem pagesDivided_nodup {free : List Nat} {lanes : List (Nat × Lane)} (h : pagesDivided free lanes) (n : Nat) :
    ((tableRead Lane.idle lanes n).pages ++ free).Nodup := by
  obtain ⟨h1, h2, -⟩ := h
  have hn : (free ++ pagesHeld lanes).Nodup := h1.nodup_iff.mpr List.nodup_range
  have he := pagesHeld_erase h2 n
  have hall := ((List.Perm.append_left free he).nodup_iff).mp hn
  rw [← List.append_assoc] at hall
  exact (List.perm_append_comm.nodup_iff).mp (hall.sublist (List.sublist_append_left _ _))

end Sys2Proof.Machine
end

