-- ==== Sys2Proof/Laws/Settle.lean ====
section
/-! SUPPORT. How a command concludes: exchanges taken one after another, and the states in which nothing is left to take. -/

set_option Elab.async false

namespace Sys2Proof.Machine

/-- With no exchange left, taking exchanges changes nothing. -/
theorem settle_quiet (n : Nat) {t : State} (h : t.agenda = []) : settle n t = t := by
  cases n with
  | zero => rfl
  | succ n => simp [settle, h]

/-- One exchange that posts nothing. -/
theorem settle_one (n : Nat) {t : State} {i : Internal} (h : t.agenda = [i])
    (hq : (handle i { t with agenda := [] }).agenda = []) : settle (n + 1) t = handle i { t with agenda := [] } := by
  have hs : settle (n + 1) t = settle n { handle i { t with agenda := [] } with
      agenda := (handle i { t with agenda := [] }).agenda ++ [] } := by
    rw [settle, h]
  rw [hs, List.append_nil]
  exact settle_quiet n hq

/-- The first of several exchanges posts nothing. -/
theorem settle_cons (n : Nat) {t : State} {i : Internal} {rest : List Internal} (h : t.agenda = i :: rest)
    (hq : (handle i { t with agenda := [] }).agenda = []) :
    settle (n + 1) t = settle n { handle i { t with agenda := [] } with agenda := rest } := by
  have hs : settle (n + 1) t = settle n { handle i { t with agenda := [] } with
      agenda := (handle i { t with agenda := [] }).agenda ++ rest } := by
    rw [settle, h]
  rw [hs, hq, List.nil_append]

/-- The bound leaves room for one exchange and more. -/
theorem settleBound_succ : ∃ n, settleBound = n + 1 := ⟨999999, rfl⟩

/-- A command that leaves no exchange, lets no time pass, leaves the queue of commands, and does not end the last job ends in
the state it made. -/
theorem finish_quiet {s t : State} (ha : t.agenda = []) (hc : t.clock = s.clock) (hp : t.pending = s.pending)
    (hj : t.jobsIdle = s.jobsIdle) : finish s t = t := by
  unfold finish
  rw [settle_quiet _ ha]
  unfold offerIdle closeStep
  rw [hj]
  cases s.jobsIdle <;> simp [← hc, ← hp]

/-- A command that makes a state in which nothing is left to take answers that state. -/
theorem next_finish {s t u : State} (h : t = u) (ha : u.agenda = []) (hc : u.clock = s.clock) (hp : u.pending = s.pending)
    (hj : u.jobsIdle = s.jobsIdle) : (Host.Outcome.next (finish s t) : Answer) = .next u := by
  rw [h, finish_quiet ha hc hp hj]

/-- The same, with one exchange that posts nothing. -/
theorem finish_one {s t u : State} {i : Internal} (ha : t.agenda = [i]) (hu : handle i { t with agenda := [] } = u)
    (hq : u.agenda = []) (hc : u.clock = s.clock) (hp : u.pending = s.pending) (hj : u.jobsIdle = s.jobsIdle) :
    finish s t = u := by
  unfold finish
  obtain ⟨n, hn⟩ := settleBound_succ
  rw [hn, settle_one n ha (by rw [hu]; exact hq), hu]
  unfold offerIdle closeStep
  rw [hj]
  cases s.jobsIdle <;> simp [← hc, ← hp]

/-- A state with one exchange posted, once that exchange is taken off. -/
theorem post_cleared {t : State} (i : Internal) (h : t.agenda = []) : { t.post i with agenda := [] } = t := by
  cases t
  simp only [State.post] at h ⊢
  rw [h]

/-- A command that posts one exchange, which posts nothing, answers the state that the exchange makes. -/
theorem next_post {s t u : State} {i : Internal} (ha : t.agenda = []) (hu : handle i t = u) (hq : u.agenda = [])
    (hc : u.clock = s.clock) (hp : u.pending = s.pending) (hj : u.jobsIdle = s.jobsIdle) :
    (Host.Outcome.next (finish s (t.post i)) : Answer) = .next u := by
  have h1 : (t.post i).agenda = [i] := by
    simp [State.post, ha]
  rw [finish_one h1 (by rw [post_cleared i ha]; exact hu) hq hc hp hj]

/-- A command that ends the last job offers JOBS_IDLE. -/
theorem finish_idle {s t : State} (ha : t.agenda = []) (hc : t.clock = s.clock) (hp : t.pending = s.pending) :
    finish s t = offerIdle s t := by
  unfold finish
  rw [settle_quiet _ ha]
  unfold offerIdle closeStep
  split
  · unfold State.offerNotice State.placeFrame
    split
    · split <;> simp [State.onMp, ← hc, ← hp]
    · simp [← hc, ← hp]
  · simp [← hc, ← hp]

/-- Neither time nor the queue of commands is changed by a command. -/
theorem finish_clock (s t : State) : (finish s t).clock = s.clock := rfl
theorem finish_pending (s t : State) : (finish s t).pending = s.pending := rfl
theorem finishReset_pending (s t : State) : (finishReset s t).pending = s.pending := rfl

/-! ## Requests -/

/-- A request that its owner takes now concludes with its serving. -/
theorem takeRequest_serves {k : ReqKind} {tag : ReqTag} {f : List Byte → State → State} {s : State} {p : List Byte}
    (h : s.serves k tag p) : takeRequest k tag f s = .next (finish s (f p s)) := by
  obtain ⟨-, ht, hr⟩ := h
  simp only [takeRequest, ht, conclude, serveRequest, hr]

/-- A request that its owner does not take now changes nothing. -/
theorem takeRequest_none {k : ReqKind} {tag : ReqTag} {f : List Byte → State → State} {s : State}
    (h : s.takeable k tag = none) : takeRequest k tag f s = .next s := by
  simp only [takeRequest, h]

/-! ## Answers and notices change the Message Port alone -/

theorem answer_eq (tag : ReqTag) (r : Result) (b : ReplyBody) (s : State) : ∃ m, s.answer tag r b = { s with mp := m } := by
  unfold State.answer
  split
  · exact ⟨_, rfl⟩
  · exact ⟨s.mp, rfl⟩

theorem offerNotice_eq (n : Notice) (s : State) : ∃ m, s.offerNotice n = { s with mp := m } := by
  unfold State.offerNotice
  split
  · split
    · exact ⟨_, rfl⟩
    · exact ⟨_, rfl⟩
  · exact ⟨s.mp, rfl⟩

theorem offerFault_eq (o : FaultOffer) (s : State) : ∃ m, s.offerFault o = { s with mp := m } := by
  unfold State.offerFault
  split
  · obtain ⟨m, hm⟩ := offerNotice_eq (.fault ⟨o, 0, false⟩) (s.onMp (fun m => { m with fault := some ⟨o, 0, false⟩ }))
    exact ⟨m, by simpa [State.onMp] using hm⟩
  · exact ⟨_, rfl⟩

/-- A change of the Message Port alone concludes with that change. -/
theorem finish_mp {s : State} (hs : s.quiet) (m : MsgPort) : finish s { s with mp := m } = { s with mp := m } :=
  finish_quiet hs rfl rfl rfl

theorem finish_answer {s : State} (hs : s.quiet) (tag : ReqTag) (r : Result) (b : ReplyBody) :
    finish s (s.answer tag r b) = s.answer tag r b := by
  obtain ⟨m, hm⟩ := answer_eq tag r b s
  rw [hm]
  exact finish_mp hs m

theorem finish_refuse {s : State} (hs : s.quiet) (tag : ReqTag) (r : Result) :
    finish s (s.refuse tag r) = s.refuse tag r := finish_answer hs tag r .empty

end Sys2Proof.Machine
end

