-- ==== Sys2Proof/Laws/Sound.lean ====
section
/-! SUPPORT. Every operation of the part keeps its limits and forms (State.sound): one lemma for each operation. -/

set_option Elab.async false

namespace Sys2Proof.Machine

/-! ## The base: updates of one block -/

theorem sound_of_eq {s t : State} (h : s.sound) (hmp : t.mp = s.mp) (hgu : t.gu = s.gu) (hjc : t.jc = s.jc)
    (hsp : t.sp = s.sp) (hdp : t.dp = s.dp) (hc : t.clock = s.clock) (hme : t.me = s.me) : t.sound := by
  unfold State.sound at *
  rw [hmp, hgu, hjc, hsp, hdp, hc, hme]
  exact h

theorem forEach_sound {α : Type} {f : α → State → State} {l : List α} {s : State}
    (hf : ∀ a s, s.sound → (f a s).sound) (h : s.sound) : (forEach f l s).sound := by
  induction l generalizing s with
  | nil => exact h
  | cons a rest ih => exact ih (hf a s h)

theorem ite_sound {c : Prop} [Decidable c] {a b : State} (ha : a.sound) (hb : b.sound) :
    (if c then a else b).sound := by
  split
  · exact ha
  · exact hb

/-- A change of the Message Port that leaves its queues. -/
theorem onMp_sound {f : MsgPort → MsgPort} {s : State} (h : s.sound) (ho : (f s.mp).outbound = s.mp.outbound)
    (hr : (f s.mp).requests = s.mp.requests) (ht : (f s.mp).openTags = s.mp.openTags) : (s.onMp f).sound := by
  obtain ⟨⟨h1, h2, h3, h4, h5⟩, hp⟩ := h
  refine ⟨⟨?_, ?_, ?_, ?_, ?_⟩, hp⟩
  · simpa [ho] using h1
  · simpa [hr] using h2
  · simpa [ht] using h3
  · simpa [ho, ht] using h4
  · simpa [hr, ht] using h5

theorem onPm_sound {f : PlacementMap → PlacementMap} {s : State} (h : s.sound) : (s.onPm f).sound := h
theorem onSm_sound {f : ShelfMonitor → ShelfMonitor} {s : State} (h : s.sound) : (s.onSm f).sound := h

theorem onMe_sound {f : MoveEngine → MoveEngine} {s : State} (h : s.sound) (hl : (f s.me).lanes = s.me.lanes)
    (hd : (f s.me).damage = s.me.damage) : (s.onMe f).sound := by
  obtain ⟨h1, h2, h3, h4⟩ := h
  refine ⟨h1, h2, ?_, ?_⟩
  · simpa [hd] using h3
  · simpa [hl] using h4

theorem onGu_sound {f : GrantUnit → GrantUnit} {s : State} (h : s.sound)
    (hd : (f s.gu).deferred.length ≤ s.gu.deferred.length) : (s.onGu f).sound := by
  obtain ⟨h1, ⟨h2, h2'⟩, h3⟩ := h
  exact ⟨h1, ⟨Nat.le_trans hd h2, h2'⟩, h3⟩

theorem onJc_sound {f : Journal → Journal} {s : State} (h : s.sound)
    (hq : (f s.jc).queue.length ≤ s.jc.queue.length) : (s.onJc f).sound := by
  obtain ⟨h1, ⟨h2, h3, h4⟩, h5⟩ := h
  exact ⟨h1, ⟨h2, Nat.le_trans hq h3, h4⟩, h5⟩

theorem onSp_sound {f : StagingPool → StagingPool} {s : State} (h : s.sound) (hm : (f s.sp).memory = s.sp.memory)
    (hf : (f s.sp).free = s.sp.free) : (s.onSp f).sound := by
  obtain ⟨h1, ⟨h2, h3, h4, h5⟩, h6, h7⟩ := h
  refine ⟨h1, ⟨h2, h3, ?_, h5⟩, h6, ?_⟩
  · simpa [hm] using h4
  · simpa [hf] using h7

theorem onDp_sound {f : DrivePort → DrivePort} {s : State} (h : s.sound) (he : (f s.dp).errorRuns = s.dp.errorRuns) :
    (s.onDp f).sound := by
  obtain ⟨h1, ⟨h2, h3, h4, h5, h6⟩, h7⟩ := h
  exact ⟨h1, ⟨h2, h3, h4, by simpa [he] using h5, h6⟩, h7⟩

theorem post_sound {i : Internal} {s : State} (h : s.sound) : (s.post i).sound := h

theorem layBlock_sound {position : Nat} {b : Block} {s : State} (h : s.sound) : (s.layBlock position b).sound := by
  obtain ⟨h1, ⟨h2, h3, h4, h5⟩, h6⟩ := h
  exact ⟨h1, ⟨h2, h3, Memory.wf_write position b h4, h5⟩, h6⟩

theorem setErrorRun_sound {id run : Nat} {s : State} (h : s.sound) (hr : run ≤ 3) : (s.setErrorRun id run).sound := by
  obtain ⟨h1, ⟨h2, h3, h4, h5, h6⟩, h7⟩ := h
  refine ⟨h1, ⟨h2, h3, h4, fun id' => ?_, h6⟩, h7⟩
  by_cases hk : id' = id
  · subst hk
    simpa [State.setErrorRun] using hr
  · simpa [State.setErrorRun, tableRead_tableWrite_other _ _ _ hk] using h5 id'

/-- A change of a lane's record that leaves its pages, and brings no lane to IDLE. -/
def keepsPages (l l' : Lane) : Prop := l'.pages = l.pages ∧ (l'.state = .idle → l.state = .idle)

theorem setLane_sound {n : Nat} {l : Lane} {s : State} (h : s.sound) (hp : l.pages = (s.lane n).pages)
    (hi : l.state = .idle → l.pages = []) : (s.setLane n l).sound := by
  obtain ⟨h1, h2, h3, h4⟩ := h
  exact ⟨h1, h2, h3, pagesDivided_write h4 (by rw [hp]; exact List.Perm.refl _) hi⟩

/-- A lane in IDLE holds no page. -/
theorem idle_pages {n : Nat} {s : State} (h : s.sound) (hi : (s.lane n).state = .idle) : (s.lane n).pages = [] :=
  h.2.2.2.2.2 n hi

theorem onLane_sound {n : Nat} {f : Lane → Lane} {s : State} (hs : s.sound) (hf : ∀ l, keepsPages l (f l)) :
    (s.onLane n f).sound :=
  setLane_sound hs (hf _).1 (fun hi => (hf _).1.trans (idle_pages hs ((hf _).2 hi)))

/-- The Damage List is replaced by one in its form. -/
theorem withDamage_sound {f : MoveEngine → MoveEngine} {s : State} (h : s.sound) (hl : (f s.me).lanes = s.me.lanes)
    (hd : damageFormed (f s.me).damage) : (s.onMe f).sound := by
  obtain ⟨h1, h2, h3, h4⟩ := h
  refine ⟨h1, h2, hd, ?_⟩
  simpa [hl] using h4

theorem with_part_sound {x : PartState} {s : State} (h : s.sound) : State.sound { s with part := x } := h
theorem with_stage_sound {x : Stage} {s : State} (h : s.sound) : State.sound { s with stage := x } := h
theorem with_draining_sound {x : Bool} {s : State} (h : s.sound) : State.sound { s with draining := x } := h
theorem with_agenda_sound {x : List Internal} {s : State} (h : s.sound) : State.sound { s with agenda := x } := h
theorem with_part_stage_sound {x : PartState} {y : Stage} {s : State} (h : s.sound) :
    State.sound { s with part := x, stage := y } := h
theorem with_part_agenda_sound {x : PartState} {y : List Internal} {s : State} (h : s.sound) :
    State.sound { s with part := x, agenda := y } := h

/-! ## The outbound queue -/

theorem noticeCount_append (a : List OutFrame) (f : OutFrame) :
    noticeCount (a ++ [f]) = noticeCount a + (if f.isReply then 0 else 1) := by
  cases f <;> simp [noticeCount, OutFrame.isReply]

theorem replyCount_append (a : List OutFrame) (f : OutFrame) :
    replyCount (a ++ [f]) = replyCount a + (if f.isReply then 1 else 0) := by
  cases f <;> simp [replyCount, OutFrame.isReply, List.filter]

/-- Closing an open tag gives up one reply place. -/
theorem length_closeTag {tags : List ReqTag} {tag : ReqTag} (hn : tags.Nodup) (hm : tag ∈ tags) :
    (tags.filter (fun t => t ≠ tag)).length + 1 = tags.length := by
  induction tags with
  | nil => simp at hm
  | cons t rest ih =>
    rw [List.nodup_cons] at hn
    by_cases ht : t = tag
    · subst ht
      have hr : rest.filter (fun u => decide (u ≠ t)) = rest := by
        rw [List.filter_eq_self]
        intro u hu
        exact decide_eq_true (fun h => hn.1 (h ▸ hu))
      rw [List.filter_cons_of_neg (by simp), hr]
      rfl
    · rw [List.filter_cons_of_pos (by simpa using ht), List.length_cons, List.length_cons,
        ih hn.2 ((List.mem_cons.mp hm).resolve_left (fun h => ht h.symm))]

theorem answer_sound {tag : ReqTag} {r : Result} {b : ReplyBody} {s : State} (h : s.sound) : (s.answer tag r b).sound := by
  unfold State.answer
  split
  · next hm =>
    obtain ⟨⟨h1, h2, h3, h4, h5⟩, hp⟩ := h
    refine ⟨⟨?_, Nat.le_trans (List.length_filter_le _ _) h2, h3.filter _, ?_, fun q hq => ?_⟩, hp⟩
    · show noticeCount (s.mp.outbound ++ [_]) ≤ _
      rw [noticeCount_append]
      exact h1
    · show replyCount (s.mp.outbound ++ [_]) + (s.mp.openTags.filter (fun t => t ≠ tag)).length ≤ _
      rw [replyCount_append]
      have := length_closeTag h3 hm
      simp only [OutFrame.isReply, if_true]
      omega
    · obtain ⟨hq, hne⟩ := List.mem_filter.mp hq
      exact List.mem_filter.mpr ⟨h5 q hq, hne⟩
  · exact h

theorem refuse_sound {tag : ReqTag} {r : Result} {s : State} (h : s.sound) : (s.refuse tag r).sound := answer_sound h

theorem markTaken_sound {tag : ReqTag} {s : State} (h : s.sound) : (s.markTaken tag).sound := by
  obtain ⟨⟨h1, h2, h3, h4, h5⟩, hp⟩ := h
  refine ⟨⟨h1, ?_, h3, h4, fun q hq => ?_⟩, hp⟩
  · simpa [State.markTaken] using h2
  · obtain ⟨r, hr, rfl⟩ := List.mem_map.mp hq
    have := h5 r hr
    split <;> exact this

theorem offerNotice_sound {n : Notice} {s : State} (h : s.sound) : (s.offerNotice n).sound := by
  unfold State.offerNotice
  split
  · split
    · next hn =>
      obtain ⟨⟨h1, h2, h3, h4, h5⟩, hp⟩ := h
      refine ⟨⟨?_, h2, h3, ?_, h5⟩, hp⟩
      · show noticeCount (s.mp.outbound ++ [_]) ≤ _
        rw [noticeCount_append]
        simpa [OutFrame.isReply] using Nat.succ_le_of_lt hn
      · show replyCount (s.mp.outbound ++ [_]) + s.mp.openTags.length ≤ _
        rw [replyCount_append]
        exact h4
    · refine onMp_sound h rfl ?_ rfl
      rfl
  · exact h

theorem offerFault_sound {o : FaultOffer} {s : State} (h : s.sound) : (s.offerFault o).sound := by
  unfold State.offerFault
  split
  · refine offerNotice_sound (onMp_sound h rfl ?_ rfl)
    rfl
  · refine onMp_sound h rfl ?_ rfl
    rfl

/-! ## The Journal Queue -/

theorem numberRecord_sound {owner : JOwner} {w : Work} {s : State} (h : s.sound) (hr : s.jc.hasRoom = true) :
    (numberRecord owner w s).sound := by
  obtain ⟨h1, ⟨h2, -, h4⟩, h5⟩ := h
  refine ⟨h1, ⟨h2, ?_, h4⟩, h5⟩
  simp only [Journal.hasRoom, Bool.and_eq_true, decide_eq_true_eq] at hr
  simpa [numberRecord] using Nat.succ_le_of_lt hr.2

theorem clearDamage_sound {volume first count : Nat} {s : State} (h : s.sound)
    (hs : (damageSplits volume first count s.me.damage && decide (Config.maxDamage ≤ s.me.damage.length)) = false) :
    (clearDamage volume first count s).sound := by
  unfold clearDamage
  refine withDamage_sound h rfl ?_
  exact damageRemove_formed h.2.2.1 hs

theorem enterRecord_sound {owner : JOwner} {w : Work} {s : State} (h : s.sound) (hr : s.jc.hasRoom = true) :
    (enterRecord owner w s).sound := by
  unfold enterRecord
  split
  · split
    · split
      · exact refuse_sound h
      · split
        · exact refuse_sound h
        · next hs => exact numberRecord_sound (clearDamage_sound h (by simpa using hs)) hr
    · exact numberRecord_sound h hr
  · exact post_sound (onJc_sound h (Nat.le_refl _))

theorem serveRoom_sound {s : State} (h : s.sound) : (serveRoom s).sound := by
  unfold serveRoom
  split
  · exact h
  · split
    · next hr =>
      simp only [Bool.and_eq_true] at hr
      split
      · exact post_sound (onJc_sound h (Nat.le_refl _))
      · exact post_sound (enterRecord_sound (onJc_sound h (Nat.le_refl _)) hr.1)
    · split
      · exact post_sound h
      · exact h

/-! ## Ops -/

theorem setMember_sound {id : Nat} {m : Member} {s : State} (hs : s.sound) : (State.setMember id m s).sound := by
  unfold State.setMember
  repeat' (first | with_reducible (first | exact hs | apply onPm_sound))

theorem setSet_sound {t : Nat} {e : SetEntry} {s : State} (hs : s.sound) : (State.setSet t e s).sound := by
  unfold State.setSet
  repeat' (first | with_reducible (first | exact hs | apply onPm_sound))

theorem setVolume_sound {v : Nat} {e : Volume} {s : State} (hs : s.sound) : (State.setVolume v e s).sound := by
  unfold State.setVolume
  repeat' (first | with_reducible (first | exact hs | apply onPm_sound))

theorem setSlab_sound {g : Nat} {e : Slab} {s : State} (hs : s.sound) : (State.setSlab g e s).sound := by
  unfold State.setSlab
  repeat' (first | with_reducible (first | exact hs | apply onPm_sound))

theorem setHold_sound {i : Nat} {e : Hold} {s : State} (h : s.sound) : (s.setHold i e).sound := h

theorem setRing_sound {e : Nat} {r : RingEntry} {s : State} (hs : s.sound) : (State.setRing e r s).sound := by
  unfold State.setRing
  repeat' (first | with_reducible (first | exact hs | apply onDp_sound) | rfl)

theorem setShelf_sound {a : Nat} {e : Shelf} {s : State} (hs : s.sound) : (State.setShelf a e s).sound := by
  unfold State.setShelf
  repeat' (first | with_reducible (first | exact hs | apply onSm_sound))

theorem setStoreBlock_sound {b : Nat} {e : StoreBlock} {s : State}
    (hs : s.sound) : (State.setStoreBlock b e s).sound := by
  unfold State.setStoreBlock
  repeat' (first | with_reducible (first | exact hs | apply onJc_sound) | exact Nat.le_refl _)

/-! ## Placement -/

theorem writeSlot_sound {p : Place} {v : Slot} {s : State} (hs : s.sound) : (State.writeSlot p v s).sound := by
  unfold State.writeSlot
  dsimp only
  repeat' (first | with_reducible (first | exact hs | apply onPm_sound | apply setSet_sound | apply ite_sound))

theorem leavePlace_sound {p : Place} {s : State} (hs : s.sound) : (State.leavePlace p s).sound := by
  unfold State.leavePlace
  repeat' (first | with_reducible (first | exact hs | apply writeSlot_sound))

theorem raiseRef_sound {p : Place} {s : State} (hs : s.sound) : (State.raiseRef p s).sound := by
  unfold State.raiseRef
  repeat' (first | with_reducible (first | exact hs | apply writeSlot_sound))

theorem lowerRef_sound {p : Place} {s : State} (hs : s.sound) : (State.lowerRef p s).sound := by
  unfold State.lowerRef
  repeat' (first | with_reducible (first | exact hs | apply writeSlot_sound))

theorem holdSlot_sound {n : Nat} {p : Place} {s : State} (hs : s.sound) : (State.holdSlot n p s).sound := by
  unfold State.holdSlot
  repeat' (first | with_reducible (first | exact hs | apply writeSlot_sound))

theorem releaseSlot_sound {p : Place} {s : State} (hs : s.sound) : (State.releaseSlot p s).sound := by
  unfold State.releaseSlot
  repeat' (first | with_reducible (first | exact hs | apply writeSlot_sound))

theorem freeSlot_sound {p : Place} {s : State} (hs : s.sound) : (State.freeSlot p s).sound := by
  unfold State.freeSlot
  repeat' (first | with_reducible (first | exact hs | apply writeSlot_sound))

theorem takeSlot_sound {p : Place} {state : SlotState} {g : Nat} {s : State}
    (hs : s.sound) : (State.takeSlot p state g s).sound := by
  unfold State.takeSlot
  repeat' (first | with_reducible (first | exact hs | apply writeSlot_sound))

theorem recomputeReady_sound {v : Nat} {s : State} (hs : s.sound) : (State.recomputeReady v s).sound := by
  unfold State.recomputeReady
  dsimp only
  repeat' (first | with_reducible (first | exact hs | apply setVolume_sound | apply offerNotice_sound
                                         | apply ite_sound))

/-! ## Journal -/

theorem condition_sound {b : Nat} {c : BlockCond} {s : State} (hs : s.sound) : (State.condition b c s).sound := by
  unfold State.condition
  repeat' (first | with_reducible (first | exact hs | apply setStoreBlock_sound))

theorem moveHead_sound {h b : Nat} {s : State} (hs : s.sound) : (moveHead h b s).sound := by
  unfold moveHead
  dsimp only
  repeat' (first | with_reducible (first | exact hs | apply condition_sound | apply onJc_sound | apply ite_sound)
                 | split | exact Nat.le_refl _)

theorem moveSpentHead_sound {s : State} (hs : s.sound) : (moveSpentHead s).sound := by
  unfold moveSpentHead
  repeat' (first | with_reducible (first | exact hs | apply moveHead_sound | apply ite_sound) | split)

theorem beginCompaction_sound {s : State} (hs : s.sound) : (beginCompaction s).sound := by
  unfold beginCompaction
  repeat' (first | with_reducible (first | exact hs | apply onJc_sound | apply offerNotice_sound)
                 | exact Nat.le_refl _)

theorem compactionCheck_sound {s : State} (hs : s.sound) : (compactionCheck s).sound := by
  unfold compactionCheck
  repeat' (first | with_reducible (first | exact hs | apply beginCompaction_sound | apply ite_sound))

theorem openNext_sound {s : State} (hs : s.sound) : (openNext s).sound := by
  unfold openNext
  repeat' (first | with_reducible (first | exact hs | apply compactionCheck_sound | apply moveHead_sound
                                         | apply post_sound | apply ite_sound)
                 | split)

theorem programRecord_sound {r : Record} {s : State} (hs : s.sound) : (programRecord r s).sound := by
  unfold programRecord
  repeat' (first | with_reducible (first | exact hs | apply onJc_sound) | split | exact Nat.le_refl _)

theorem nextImageRecord_sound {s : State} (hs : s.sound) : (nextImageRecord s).sound := by
  unfold nextImageRecord
  dsimp only
  repeat' (first | with_reducible (first | exact hs | apply onJc_sound | apply post_sound | apply ite_sound)
                 | split | exact Nat.le_refl _)

theorem eraseOldest_sound {s : State} (hs : s.sound) : (eraseOldest s).sound := by
  unfold eraseOldest
  repeat' (first | with_reducible (first | exact hs | apply onJc_sound) | split | exact Nat.le_refl _)

theorem imageDue_sound {s : State} (hs : s.sound) : (imageDue s).sound := by
  unfold imageDue
  repeat' (first | with_reducible (first | exact hs | apply nextImageRecord_sound | apply ite_sound))

theorem kickStore_sound {s : State} (hs : s.sound) : (kickStore s).sound := by
  unfold kickStore
  dsimp only
  repeat' (first | with_reducible (first | exact hs | apply imageDue_sound | apply openNext_sound
                                         | apply eraseOldest_sound | apply programRecord_sound | apply ite_sound)
                 | split)

theorem queueWork_sound {owner : JOwner} {w : Work} {s : State} (h : s.sound) : (queueWork owner w s).sound := by
  unfold queueWork
  split
  · split
    · next hr =>
      simp only [Bool.and_eq_true] at hr
      exact kickStore_sound (enterRecord_sound h hr.1)
    · exact onJc_sound h (Nat.le_refl _)
  · exact h

theorem queueRecord_sound {owner : JOwner} {body : RecordBody} {s : State}
    (hs : s.sound) : (queueRecord owner body s).sound := by
  unfold queueRecord
  repeat' (first | with_reducible (first | exact hs | apply queueWork_sound))

theorem endCompaction_sound {s : State} (hs : s.sound) : (endCompaction s).sound := by
  unfold endCompaction
  dsimp only
  repeat' (first | with_reducible (first | exact hs | apply condition_sound | apply onJc_sound
                                         | apply offerNotice_sound)
                 | refine forEach_sound (fun a s hs => ?_) ?_ | split | exact Nat.le_refl _)

theorem imageBegun_sound {r : Record} {block : Nat} {s : State} (hs : s.sound) : (imageBegun r block s).sound := by
  unfold imageBegun
  repeat' (first | with_reducible (first | exact hs | apply onJc_sound | apply ite_sound) | split
                 | exact Nat.le_refl _)

theorem imageEnded_sound {r : Record} {s : State} (hs : s.sound) : (imageEnded r s).sound := by
  unfold imageEnded
  repeat' (first | with_reducible (first | exact hs | apply endCompaction_sound | apply ite_sound) | split)

theorem recordIsDurable_sound {block page : Nat} {r : Record} {s : State}
    (hs : s.sound) : (recordIsDurable block page r s).sound := by
  unfold recordIsDurable
  dsimp only
  repeat' (first | with_reducible (first | exact hs | apply onJc_sound | apply imageEnded_sound
                                         | apply imageBegun_sound | apply kickStore_sound | apply serveRoom_sound
                                         | apply post_sound | apply ite_sound)
                 | split | exact Nat.le_refl _ | exact List.length_filter_le _ _)

theorem markBad_sound {b : Nat} {s : State} (hs : s.sound) : (markBad b s).sound := by
  unfold markBad
  repeat' (first | with_reducible (first | exact hs | apply condition_sound | apply onJc_sound)
                 | exact Nat.le_refl _)

theorem placeRetire_sound {b : Nat} {s : State} (hs : s.sound) : (placeRetire b s).sound := by
  unfold placeRetire
  repeat' (first | with_reducible (first | exact hs | apply onJc_sound | apply post_sound | apply ite_sound)
                 | split | exact Nat.le_refl _)

theorem retireBlock_sound {b : Nat} {s : State} (hs : s.sound) : (retireBlock b s).sound := by
  unfold retireBlock
  dsimp only
  repeat' (first | with_reducible (first | exact hs | apply placeRetire_sound | apply markBad_sound
                                         | apply post_sound | apply ite_sound))

theorem programFailed_sound {kind : FaultKind} {block page : Nat} {s : State}
    (hs : s.sound) : (programFailed kind block page s).sound := by
  unfold programFailed
  dsimp only
  repeat' (first | with_reducible (first | exact hs | apply offerFault_sound | apply setStoreBlock_sound
                                         | apply onJc_sound | apply retireBlock_sound | apply ite_sound)
                 | split | exact Nat.le_refl _)

theorem eraseFailed_sound {kind : FaultKind} {block : Nat} {s : State}
    (hs : s.sound) : (eraseFailed kind block s).sound := by
  unfold eraseFailed
  dsimp only
  repeat' (first | with_reducible (first | exact hs | apply offerFault_sound | apply onJc_sound
                                         | apply retireBlock_sound)
                 | exact Nat.le_refl _)

theorem eraseSucceeded_sound {block : Nat} {s : State} (hs : s.sound) : (eraseSucceeded block s).sound := by
  unfold eraseSucceeded
  repeat' (first | with_reducible (first | exact hs | apply setStoreBlock_sound | apply onJc_sound)
                 | exact Nat.le_refl _)

theorem enterFrozen_sound {cause : FrozenCause} {s : State} (h : s.sound) : (enterFrozen cause s).sound := by
  unfold enterFrozen
  exact offerNotice_sound (with_part_agenda_sound (onJc_sound (s := s) h (Nat.zero_le _)))

theorem freezeJournal_sound {cause : FrozenCause} {s : State} (hs : s.sound) : (freezeJournal cause s).sound := by
  unfold freezeJournal
  repeat' (first | with_reducible (first | exact hs | apply enterFrozen_sound | apply ite_sound))

/-! ## DrivePort -/

theorem send_sound {m : FabricMsg} {s : State} (hs : s.sound) : (State.send m s).sound := by
  unfold State.send
  repeat' (first | with_reducible (first | exact hs | apply onDp_sound) | rfl)

theorem countLate_sound {s : State} (hs : s.sound) : (countLate s).sound := by
  unfold countLate
  repeat' (first | with_reducible (first | exact hs | apply onDp_sound) | rfl)

theorem countFailure_sound {id : Nat} {s : State} (hs : s.sound) : (countFailure id s).sound := by
  unfold countFailure
  dsimp only
  repeat' (first | with_reducible (first | exact hs | apply setErrorRun_sound | apply post_sound | apply ite_sound)
                 | split | exact Nat.zero_le _ | exact Nat.min_le_left _ _)

theorem layPage_sound {c : Cmd} {block : Nat} {b : Block} {s : State}
    (hs : s.sound) : (layPage c block b s).sound := by
  unfold layPage
  repeat' (first | with_reducible (first | exact hs | apply layBlock_sound | apply onDp_sound) | split | rfl)

theorem freeLabelPlace_sound {c : Cmd} {s : State} (hs : s.sound) : (freeLabelPlace c s).sound := by
  unfold freeLabelPlace
  repeat' (first | with_reducible (first | exact hs | apply onDp_sound) | split | rfl)

theorem offerCompletionFault_sound {c : Cmd} {status : CmdStatus} {firstFailed : Nat} {s : State}
    (hs : s.sound) : (offerCompletionFault c status firstFailed s).sound := by
  unfold offerCompletionFault
  repeat' (first | with_reducible (first | exact hs | apply offerFault_sound | apply ite_sound) | split)

theorem completeUnissued_sound {c : Cmd} {s : State} (hs : s.sound) : (completeUnissued c s).sound := by
  unfold completeUnissued
  dsimp only
  repeat' (first | with_reducible (first | exact hs | apply freeLabelPlace_sound
                                         | apply offerCompletionFault_sound | apply post_sound))

theorem issue_sound {e : Nat} {c : Cmd} {s : State} (hs : s.sound) : (issue e c s).sound := by
  unfold issue
  dsimp only
  repeat' (first | with_reducible (first | exact hs | apply setRing_sound | apply onDp_sound | apply send_sound)
                 | rfl)

theorem accept_sound {c : Cmd} {s : State} (hs : s.sound) : (accept c s).sound := by
  unfold accept
  repeat' (first | with_reducible (first | exact hs | apply completeUnissued_sound | apply issue_sound
                                         | apply onDp_sound | apply ite_sound)
                 | split | rfl)

theorem takeLabelPlace_sound {p : Nat} {rest : List Nat} {c : Cmd} {s : State}
    (hs : s.sound) : (takeLabelPlace p rest c s).sound := by
  unfold takeLabelPlace
  dsimp only
  repeat' (first | with_reducible (first | exact hs | apply onDp_sound | apply accept_sound) | rfl)

theorem handOver_sound {c : Cmd} {s : State} (hs : s.sound) : (handOver c s).sound := by
  unfold handOver
  repeat' (first | with_reducible (first | exact hs | apply accept_sound | apply takeLabelPlace_sound
                                         | apply onDp_sound)
                 | split | rfl)

theorem serveRing_sound {n : Nat} {s : State} (h : s.sound) : (serveRing n s).sound := by
  induction n generalizing s with
  | zero => exact h
  | succ n ih =>
    unfold serveRing
    split
    · exact ih (ite_sound (completeUnissued_sound (onDp_sound h rfl)) (issue_sound (onDp_sound h rfl)))
    · exact h

theorem serveLabels_sound {n : Nat} {s : State} (h : s.sound) : (serveLabels n s).sound := by
  induction n generalizing s with
  | zero => exact h
  | succ n ih =>
    unfold serveLabels
    split
    · exact ih (takeLabelPlace_sound (onDp_sound h rfl))
    · exact h

theorem serveCommands_sound {s : State} (hs : s.sound) : (serveCommands s).sound := by
  unfold serveCommands
  dsimp only
  repeat' (first | with_reducible (first | exact hs | apply serveRing_sound | apply serveLabels_sound
                                         | apply ite_sound))

theorem freeEntry_sound {e : Nat} {c : Cmd} {s : State} (hs : s.sound) : (freeEntry e c s).sound := by
  unfold freeEntry
  dsimp only
  repeat' (first | with_reducible (first | exact hs | apply setRing_sound | apply freeLabelPlace_sound
                                         | apply onDp_sound)
                 | rfl)

theorem updateRun_sound {c : Cmd} {status : CmdStatus} {counted : Bool} {s : State}
    (hs : s.sound) : (updateRun c status counted s).sound := by
  unfold updateRun
  repeat' (first | with_reducible (first | exact hs | apply countFailure_sound | apply setErrorRun_sound
                                         | apply ite_sound)
                 | split | exact Nat.zero_le _)

theorem completeEntry_sound {e : Nat} {status : CmdStatus} {firstFailed : Nat} {counted : Bool} {s : State}
    (hs : s.sound) : (completeEntry e status firstFailed counted s).sound := by
  unfold completeEntry
  dsimp only
  repeat' (first | with_reducible (first | exact hs | apply freeEntry_sound | apply offerCompletionFault_sound
                                         | apply updateRun_sound | apply post_sound)
                 | split)

theorem cancelEntry_sound {e : Nat} {s : State} (hs : s.sound) : (cancelEntry e s).sound := by
  unfold cancelEntry
  repeat' (first | with_reducible (first | exact hs | apply freeEntry_sound | apply send_sound) | split)

theorem withdraw_sound {p : Cmd → Bool} {s : State} (hs : s.sound) : (withdraw p s).sound := by
  unfold withdraw
  dsimp only
  repeat' (first | with_reducible (first | exact hs | apply onDp_sound | apply freeLabelPlace_sound)
                 | refine forEach_sound (fun a s hs => ?_) ?_ | rfl)

theorem cancelCommands_sound {p : Cmd → Bool} {s : State} (hs : s.sound) : (cancelCommands p s).sound := by
  unfold cancelCommands
  dsimp only
  repeat' (first | with_reducible (first | exact hs | apply withdraw_sound | apply serveCommands_sound
                                         | apply cancelEntry_sound)
                 | refine forEach_sound (fun a s hs => ?_) ?_)

theorem endEntry_sound {e : Nat} {s : State} (hs : s.sound) : (endEntry e s).sound := by
  unfold endEntry
  repeat' (first | with_reducible (first | exact hs | apply completeEntry_sound | apply send_sound))

theorem endCommands_sound {p : Cmd → Bool} {s : State} (hs : s.sound) : (endCommands p s).sound := by
  unfold endCommands
  repeat' (first | with_reducible (first | exact hs | apply serveCommands_sound | apply endEntry_sound)
                 | refine forEach_sound (fun a s hs => ?_) ?_)

theorem sendFlush_sound {s : State} (hs : s.sound) : (sendFlush s).sound := by
  unfold sendFlush
  repeat' (first | with_reducible (first | exact hs | apply onDp_sound | apply send_sound) | rfl)

theorem flushDone_sound {s : State} (hs : s.sound) : (flushDone s).sound := by
  unfold flushDone
  repeat' (first | with_reducible (first | exact hs | apply serveCommands_sound | apply onDp_sound) | rfl)

/-! ## Lanes -/

theorem reservePages_sound {n count : Nat} {s : State} (hs : s.sound) : (reservePages n count s).sound := by
  unfold reservePages
  split
  · next hw =>
    obtain ⟨h1, h2, h3, h4⟩ := hs
    refine ⟨h1, h2, h3, pagesDivided_write (free' := s.sp.free.drop count) h4 ?_ (fun hi => ?_)⟩
    · show (s.sp.free.drop count ++ ((s.lane n).pages ++ s.sp.free.take count)).Perm (s.sp.free ++ (s.lane n).pages)
      refine List.perm_append_comm.trans ?_
      rw [List.append_assoc, List.take_append_drop]
      exact List.perm_append_comm
    · exact absurd (hw.symm.trans hi) nofun
  · exact hs

theorem servePages_sound {n : Nat} {s : State} (h : s.sound) : (servePages n s).sound := by
  induction n generalizing s with
  | zero => exact h
  | succ n ih =>
    unfold servePages
    split
    · exact h
    · split
      · refine ih (reservePages_sound (onSp_sound h ?_ ?_)) <;> rfl
      · exact h

theorem askPages_sound {n : Nat} {s : State} (hs : s.sound) : (askPages n s).sound := by
  unfold askPages
  dsimp only
  repeat' (first | with_reducible (first | exact hs | apply reservePages_sound | apply onSp_sound
                                         | apply ite_sound)
                 | split | rfl)

theorem releaseAs_sound {n : Nat} {l : Lane} {s : State} (hs : s.sound) (hl : l.pages = []) : (releaseAs n l s).sound := by
  unfold releaseAs
  refine servePages_sound ?_
  obtain ⟨h1, h2, h3, h4⟩ := hs
  refine ⟨h1, h2, h3, pagesDivided_write (free' := (s.lane n).pages.foldr insertRising s.sp.free) h4 ?_ (fun _ => hl)⟩
  rw [hl, List.append_nil]
  exact (foldr_insertRising_perm (pagesDivided_nodup h4 n)).trans List.perm_append_comm

theorem releasePages_sound {n : Nat} {s : State} (hs : s.sound) : (releasePages n s).sound := releaseAs_sound hs rfl

theorem leavePageList_sound {n : Nat} {s : State} (hs : s.sound) : (leavePageList n s).sound := by
  unfold leavePageList
  repeat' (first | with_reducible (first | exact hs | apply servePages_sound | apply onSp_sound) | rfl)

theorem enterToken_sound {n : Nat} {s : State} (hs : s.sound) : (enterToken n s).sound := by
  unfold enterToken
  dsimp only
  repeat' (first | with_reducible (first | exact hs | apply onLane_sound | apply onMe_sound | apply post_sound
                                         | apply ite_sound)
                 | rfl | exact fun _ => ⟨rfl, id⟩ | exact fun _ => ⟨rfl, nofun⟩)

theorem leaveTokens_sound {n : Nat} {s : State} (hs : s.sound) : (leaveTokens n s).sound := by
  unfold leaveTokens
  repeat' (first | with_reducible (first | exact hs | apply onMe_sound)
                 | rfl)

theorem serveTokens_sound {n : Nat} {s : State} (h : s.sound) : (serveTokens n s).sound := by
  induction n generalizing s with
  | zero => exact h
  | succ n ih =>
    unfold serveTokens
    split
    · exact h
    · split
      · refine ih (post_sound (onMe_sound h ?_ ?_)) <;> rfl
      · exact h

theorem passTokens_sound {s : State} (hs : s.sound) : (passTokens s).sound := by
  unfold passTokens
  dsimp only
  repeat' (first | with_reducible (first | exact hs | apply onMe_sound | apply post_sound)
                 | refine forEach_sound (fun a s hs => ?_) ?_
                 | rfl)

theorem startAttempt_sound {n : Nat} {s : State} (hs : s.sound) : (startAttempt n s).sound := by
  unfold startAttempt
  dsimp only
  repeat' (first | with_reducible (first | exact hs | apply onLane_sound | apply askPages_sound | apply ite_sound)
                 | exact fun _ => ⟨rfl, id⟩ | exact fun _ => ⟨rfl, nofun⟩)

theorem askRecovery_sound {n : Nat} {s : State} (hs : s.sound) : (askRecovery n s).sound := by
  unfold askRecovery
  dsimp only
  repeat' (first | with_reducible (first | exact hs | apply onLane_sound | apply onSp_sound | apply post_sound
                                         | apply ite_sound)
                 | split | rfl
                 | exact fun _ => ⟨rfl, id⟩ | exact fun _ => ⟨rfl, nofun⟩)

theorem releaseRecovery_sound {n : Nat} {s : State} (hs : s.sound) : (releaseRecovery n s).sound := by
  unfold releaseRecovery
  repeat' (first | with_reducible (first | exact hs | apply onSp_sound | apply post_sound | apply ite_sound)
                 | split | rfl)

theorem leaveRecovery_sound {n : Nat} {s : State} (hs : s.sound) : (leaveRecovery n s).sound := by
  unfold leaveRecovery
  repeat' (first | with_reducible (first | exact hs | apply onSp_sound) | rfl)

theorem handOverAll_sound {n : Nat} {cmds : List Cmd} {s : State} (hs : s.sound) : (handOverAll n cmds s).sound := by
  unfold handOverAll
  repeat' (first | with_reducible (first | exact hs | apply handOver_sound | apply onLane_sound)
                 | refine forEach_sound (fun a s hs => ?_) ?_
                 | exact fun _ => ⟨rfl, id⟩ | exact fun _ => ⟨rfl, nofun⟩)

theorem issueReads_sound {n : Nat} {s : State} (hs : s.sound) : (issueReads n s).sound := by
  unfold issueReads
  dsimp only
  repeat' (first | with_reducible (first | exact hs | apply handOverAll_sound | apply onLane_sound)
                 | exact fun _ => ⟨rfl, id⟩ | exact fun _ => ⟨rfl, nofun⟩)

theorem loseUnit_sound {n unit : Nat} {s : State} (hs : s.sound) : (loseUnit n unit s).sound := by
  unfold loseUnit
  repeat' (first | with_reducible (first | exact hs | apply onLane_sound)
                 | exact fun _ => ⟨rfl, id⟩ | exact fun _ => ⟨rfl, nofun⟩)

theorem noteDamage_sound {n offset count : Nat} {cause : DamageCause} {s : State}
    (hs : s.sound) : (noteDamage n offset count cause s).sound := by
  unfold noteDamage
  dsimp only
  repeat' (first | with_reducible (first | exact hs | apply onLane_sound)
                 | exact fun _ => ⟨rfl, id⟩ | exact fun _ => ⟨rfl, nofun⟩)

theorem checkRun_sound {n unit : Nat} {c : Cmd} {s : State} (hs : s.sound) : (checkRun n unit c s).sound := by
  unfold checkRun
  dsimp only
  repeat' (first | with_reducible (first | exact hs | apply loseUnit_sound | apply offerFault_sound
                                         | apply noteDamage_sound)
                 | refine forEach_sound (fun a s hs => ?_) ?_ | split)

theorem runCompleted_sound {n unit : Nat} {c : Completion} {s : State}
    (hs : s.sound) : (runCompleted n unit c s).sound := by
  unfold runCompleted
  dsimp only
  repeat' (first | with_reducible (first | exact hs | apply checkRun_sound | apply loseUnit_sound
                                         | apply post_sound | apply ite_sound))

theorem poisonOffset_sound {n offset : Nat} {s : State} (hs : s.sound) : (poisonOffset n offset s).sound := by
  unfold poisonOffset
  dsimp only
  repeat' (first | with_reducible (first | exact hs | apply layBlock_sound))

theorem poisonUnit_sound {n unit : Nat} {s : State} (hs : s.sound) : (poisonUnit n unit s).sound := by
  unfold poisonUnit
  dsimp only
  repeat' (first | with_reducible (first | exact hs | apply poisonOffset_sound | apply onMe_sound
                                         | apply onLane_sound | apply noteDamage_sound | apply ite_sound)
                 | refine forEach_sound (fun a s hs => ?_) ?_ | split
                 | rfl | exact fun _ => ⟨rfl, id⟩ | exact fun _ => ⟨rfl, nofun⟩)

theorem startRebuild_sound {n : Nat} {s : State} (hs : s.sound) : (startRebuild n s).sound := by
  unfold startRebuild
  dsimp only
  repeat' (first | with_reducible (first | exact hs | apply onLane_sound | apply handOverAll_sound) | split
                 | exact fun _ => ⟨rfl, id⟩ | exact fun _ => ⟨rfl, nofun⟩)

theorem recoveryGranted_sound {n : Nat} {s : State} (hs : s.sound) : (recoveryGranted n s).sound := by
  unfold recoveryGranted
  repeat' (first | with_reducible (first | exact hs | apply startRebuild_sound | apply ite_sound))

theorem failSurvivor_sound {n : Nat} {v : Option Nat} {s : State} (hs : s.sound) : (failSurvivor n v s).sound := by
  unfold failSurvivor
  repeat' (first | with_reducible (first | exact hs | apply onLane_sound)
                 | exact fun _ => ⟨rfl, id⟩ | exact fun _ => ⟨rfl, nofun⟩)

theorem checkSurvivor_sound {n : Nat} {v : Option Nat} {c : Cmd} {s : State}
    (hs : s.sound) : (checkSurvivor n v c s).sound := by
  unfold checkSurvivor
  dsimp only
  repeat' (first | with_reducible (first | exact hs | apply failSurvivor_sound | apply offerFault_sound
                                         | apply ite_sound)
                 | split)

theorem rebuildBlock_sound {n unit : Nat} {i : Nat} {s : State} (hs : s.sound) : (rebuildBlock n unit i s).sound := by
  unfold rebuildBlock
  dsimp only
  repeat' (first | with_reducible (first | exact hs | apply layBlock_sound | apply poisonOffset_sound
                                         | apply onMe_sound | apply ite_sound)
                 | rfl)

theorem rebuildUnit_sound {n unit : Nat} {s : State} (hs : s.sound) : (rebuildUnit n unit s).sound := by
  unfold rebuildUnit
  dsimp only
  repeat' (first | with_reducible (first | exact hs | apply rebuildBlock_sound | apply onMe_sound)
                 | refine forEach_sound (fun a s hs => ?_) ?_
                 | rfl)

theorem unitsSettled_sound {n : Nat} {units : List Nat} {s : State}
    (hs : s.sound) : (unitsSettled n units s).sound := by
  unfold unitsSettled
  repeat' (first | with_reducible (first | exact hs | apply onLane_sound | apply post_sound)
                 | exact fun _ => ⟨rfl, id⟩ | exact fun _ => ⟨rfl, nofun⟩)

theorem finishRebuild_sound {n : Nat} {s : State} (hs : s.sound) : (finishRebuild n s).sound := by
  unfold finishRebuild
  dsimp only
  repeat' (first | with_reducible (first | exact hs | apply unitsSettled_sound | apply releaseRecovery_sound
                                         | apply rebuildUnit_sound | apply poisonUnit_sound | apply ite_sound)
                 | refine forEach_sound (fun a s hs => ?_) ?_ | split)

theorem rebuildCompleted_sound {n : Nat} {v : Option Nat} {c : Completion} {s : State}
    (hs : s.sound) : (rebuildCompleted n v c s).sound := by
  unfold rebuildCompleted
  dsimp only
  repeat' (first | with_reducible (first | exact hs | apply checkSurvivor_sound | apply failSurvivor_sound
                                         | apply finishRebuild_sound | apply post_sound | apply ite_sound))

theorem stagePad_sound {n : Nat} {s : State} (hs : s.sound) : (stagePad n s).sound := by
  unfold stagePad
  dsimp only
  repeat' (first | with_reducible (first | exact hs | apply layBlock_sound)
                 | refine forEach_sound (fun a s hs => ?_) ?_)

theorem stageParity_sound {n : Nat} {s : State} (hs : s.sound) : (stageParity n s).sound := by
  unfold stageParity
  dsimp only
  repeat' (first | with_reducible (first | exact hs | apply layBlock_sound)
                 | refine forEach_sound (fun a s hs => ?_) ?_)

theorem stageFill_sound {n : Nat} {s : State} (hs : s.sound) : (stageFill n s).sound := by
  unfold stageFill
  dsimp only
  repeat' (first | with_reducible (first | exact hs | apply layBlock_sound)
                 | refine forEach_sound (fun a s hs => ?_) ?_)

theorem issueWrites_sound {n : Nat} {s : State} (hs : s.sound) : (issueWrites n s).sound := by
  unfold issueWrites
  dsimp only
  repeat' (first | with_reducible (first | exact hs | apply onLane_sound | apply handOverAll_sound
                                         | apply post_sound | apply ite_sound)
                 | exact fun _ => ⟨rfl, id⟩ | exact fun _ => ⟨rfl, nofun⟩)

theorem settleLost_sound {n : Nat} {s : State} (hs : s.sound) : (settleLost n s).sound := by
  unfold settleLost
  dsimp only
  repeat' (first | with_reducible (first | exact hs | apply issueWrites_sound | apply stageParity_sound
                                         | apply stagePad_sound | apply unitsSettled_sound
                                         | apply poisonUnit_sound | apply askRecovery_sound | apply ite_sound)
                 | refine forEach_sound (fun a s hs => ?_) ?_ | split)

theorem unitDone_sound {n position : Nat} {s : State} (hs : s.sound) : (unitDone n position s).sound := by
  unfold unitDone
  repeat' (first | with_reducible (first | exact hs | apply onLane_sound)
                 | exact fun _ => ⟨rfl, id⟩ | exact fun _ => ⟨rfl, nofun⟩)

theorem rowProgress_sound {n : Nat} {s : State} (hs : s.sound) : (rowProgress n s).sound := by
  unfold rowProgress
  dsimp only
  repeat' (first | with_reducible (first | exact hs | apply post_sound | apply ite_sound))

theorem dropWorks_sound {n : Nat} {p : Work → Bool} {s : State} (hs : s.sound) : (dropWorks n p s).sound := by
  unfold dropWorks
  dsimp only
  repeat' (first | with_reducible (first | exact hs | apply onJc_sound | apply ite_sound) | split
                 | exact Nat.le_refl _)

theorem abandonRow_sound {n : Nat} {s : State} (hs : s.sound) : (abandonRow n s).sound := by
  unfold abandonRow
  dsimp only
  repeat' (first | with_reducible (first | exact hs | apply cancelCommands_sound | apply onLane_sound
                                         | apply leaveTokens_sound | apply leaveRecovery_sound
                                         | apply releaseRecovery_sound | apply releasePages_sound
                                         | apply leavePageList_sound)
                 | exact fun _ => ⟨rfl, id⟩ | exact fun _ => ⟨rfl, nofun⟩)

theorem abortLane_sound {n : Nat} {cause : AbortCause} {s : State} (hs : s.sound) : (abortLane n cause s).sound := by
  unfold abortLane
  dsimp only
  repeat' (first | with_reducible (first | exact hs | apply abandonRow_sound | apply onLane_sound
                                         | apply dropWorks_sound | apply queueRecord_sound | apply post_sound
                                         | apply ite_sound)
                 | exact fun _ => ⟨rfl, id⟩ | exact fun _ => ⟨rfl, nofun⟩)

theorem secondFailure_sound {n : Nat} {c : Cmd} {s : State} (hs : s.sound) : (secondFailure n c s).sound := by
  unfold secondFailure
  dsimp only
  repeat' (first | with_reducible (first | exact hs | apply offerFault_sound | apply countFailure_sound
                                         | apply abortLane_sound | apply onLane_sound | apply ite_sound)
                 | exact fun _ => ⟨rfl, id⟩ | exact fun _ => ⟨rfl, nofun⟩)

theorem firstFailure_sound {n position : Nat} {s : State} (hs : s.sound) : (firstFailure n position s).sound := by
  unfold firstFailure
  dsimp only
  repeat' (first | with_reducible (first | exact hs | apply onLane_sound | apply onMe_sound
                                         | apply handOverAll_sound | apply ite_sound)
                 | rfl | exact fun _ => ⟨rfl, id⟩ | exact fun _ => ⟨rfl, nofun⟩)

theorem unitFailed_sound {n position : Nat} {c : Cmd} {s : State}
    (hs : s.sound) : (unitFailed n position c s).sound := by
  unfold unitFailed
  dsimp only
  repeat' (first | with_reducible (first | exact hs | apply unitDone_sound | apply secondFailure_sound
                                         | apply firstFailure_sound | apply ite_sound))

theorem writeCompleted_sound {n position : Nat} {c : Completion} {s : State}
    (hs : s.sound) : (writeCompleted n position c s).sound := by
  unfold writeCompleted
  dsimp only
  repeat' (first | with_reducible (first | exact hs | apply rowProgress_sound | apply handOverAll_sound
                                         | apply onLane_sound | apply unitFailed_sound | apply ite_sound)
                 | exact fun _ => ⟨rfl, id⟩ | exact fun _ => ⟨rfl, nofun⟩)

theorem verifyCompleted_sound {n position : Nat} {c : Completion} {s : State}
    (hs : s.sound) : (verifyCompleted n position c s).sound := by
  unfold verifyCompleted
  repeat' (first | with_reducible (first | exact hs | apply rowProgress_sound | apply unitDone_sound
                                         | apply setErrorRun_sound | apply unitFailed_sound | apply ite_sound)
                 | split | exact Nat.zero_le _)

theorem countCompleted_sound {n : Nat} {s : State} (hs : s.sound) : (countCompleted n s).sound :=
  onLane_sound hs (fun _ => ⟨rfl, id⟩)

theorem laneCompleted_sound {n : Nat} {c : Completion} {s : State} (hs : s.sound) : (laneCompleted n c s).sound := by
  unfold laneCompleted
  dsimp only
  repeat' (first | with_reducible (first | exact hs | apply countCompleted_sound | apply runCompleted_sound
                                         | apply rebuildCompleted_sound | apply writeCompleted_sound
                                         | apply verifyCompleted_sound | apply ite_sound)
                 | split)

theorem setWatch_sound {n : Nat} {s : State} (hs : s.sound) : (setWatch n s).sound := by
  unfold setWatch
  dsimp only
  repeat' (first | with_reducible (first | exact hs | apply onLane_sound)
                 | exact fun _ => ⟨rfl, id⟩ | exact fun _ => ⟨rfl, nofun⟩)

theorem rowStart_sound {n : Nat} {s : State} (hs : s.sound) : (rowStart n s).sound := by
  unfold rowStart
  dsimp only
  repeat' (first | with_reducible (first | exact hs | apply setWatch_sound | apply issueReads_sound
                                         | apply issueWrites_sound | apply stageFill_sound | apply post_sound
                                         | apply ite_sound))

theorem breakWatch_sound {n : Nat} {s : State} (hs : s.sound) : (breakWatch n s).sound := by
  unfold breakWatch
  dsimp only
  repeat' (first | with_reducible (first | exact hs | apply leaveRecovery_sound | apply withdraw_sound
                                         | apply onLane_sound | apply post_sound | apply ite_sound)
                 | exact fun _ => ⟨rfl, id⟩ | exact fun _ => ⟨rfl, nofun⟩)

theorem meetGrant_sound {g first count : Nat} {s : State} (hs : s.sound) : (meetGrant g first count s).sound := by
  unfold meetGrant
  dsimp only
  repeat' (first | with_reducible (first | exact hs | apply breakWatch_sound | apply ite_sound) | split)

theorem addDamage_sound {d : Damage} {s : State} (hs : s.sound) : (addDamage d s).sound := by
  unfold addDamage
  refine offerNotice_sound (withDamage_sound hs rfl ?_)
  exact damageAdd_formed hs.2.2.1

theorem commitDamage_sound {n : Nat} {d : Damage} {s : State} (hs : s.sound) : (commitDamage n d s).sound := by
  unfold commitDamage
  repeat' (first | with_reducible (first | exact hs | apply addDamage_sound | apply queueRecord_sound
                                         | apply ite_sound))

theorem finishLane_sound {n : Nat} {j : Job} {s : State} (hs : s.sound) : (finishLane n j s).sound := by
  unfold finishLane
  repeat' (first | with_reducible (first | exact hs | apply queueRecord_sound | apply onLane_sound)
                 | exact fun _ => ⟨rfl, id⟩ | exact fun _ => ⟨rfl, nofun⟩)

/-- A lane that goes on finishes exactly where no row is left, and attempts a row only where its row is not the last front. -/
theorem nextRow_cases (n : Nat) (j : Job) (s : State) :
    ((s.lane n).row = (s.rowSet (s.lane n)).rows ∧ nextRow n j s = finishLane n j s)
      ∨ ((s.lane n).row ≠ (s.rowSet (s.lane n)).rows ∧ nextRow n j s = startAttempt n s) := by
  unfold nextRow
  by_cases h : (s.lane n).row = (s.rowSet (s.lane n)).rows
  · exact Or.inl ⟨h, if_pos h⟩
  · exact Or.inr ⟨h, if_neg h⟩

theorem nextRow_sound {n : Nat} {j : Job} {s : State} (hs : s.sound) : (nextRow n j s).sound := by
  unfold nextRow
  exact ite_sound (finishLane_sound hs) (startAttempt_sound hs)

theorem commitRow_sound {n : Nat} {j : Job} {s : State} (hs : s.sound) : (commitRow n j s).sound := by
  unfold commitRow
  dsimp only
  repeat' (first | with_reducible (first | exact hs | apply releasePages_sound | apply onLane_sound
                                         | apply setSlab_sound | apply onMe_sound | apply commitDamage_sound
                                         | apply queueRecord_sound | apply nextRow_sound | apply post_sound
                                         | apply ite_sound)
                 | refine forEach_sound (fun a s hs => ?_) ?_
                 | rfl | exact fun _ => ⟨rfl, id⟩ | exact fun _ => ⟨rfl, nofun⟩)

theorem breakRow_sound {n : Nat} {s : State} (hs : s.sound) : (breakRow n s).sound := by
  unfold breakRow
  dsimp only
  repeat' (first | with_reducible (first | exact hs | apply releasePages_sound | apply releaseRecovery_sound
                                         | apply onLane_sound | apply onMe_sound | apply startAttempt_sound
                                         | apply ite_sound)
                 | rfl | exact fun _ => ⟨rfl, id⟩ | exact fun _ => ⟨rfl, nofun⟩)

theorem commitCheck_sound {n : Nat} {s : State} (hs : s.sound) : (commitCheck n s).sound := by
  unfold commitCheck
  dsimp only
  repeat' (first | with_reducible (first | exact hs | apply commitRow_sound | apply breakRow_sound
                                         | apply ite_sound)
                 | split)

theorem rowAgain_sound {n : Nat} {s : State} (hs : s.sound) : (rowAgain n s).sound := by
  unfold rowAgain
  dsimp only
  repeat' (first | with_reducible (first | exact hs | apply startAttempt_sound | apply releasePages_sound
                                         | apply ite_sound))

/-! ## Jobs -/

theorem setMark_sound {g : Nat} {mark : Bool} {s : State} (hs : s.sound) : (State.setMark g mark s).sound := by
  unfold State.setMark
  repeat' (first | with_reducible (first | exact hs | apply setSlab_sound))

theorem countMove_sound {f : MoveCounters → MoveCounters} {s : State} (hs : s.sound) : (countMove f s).sound := by
  unfold countMove
  repeat' (first | with_reducible (first | exact hs | apply onMe_sound)
                 | rfl)

theorem admitJob_sound {j : Job} {s : State} (hs : s.sound) : (admitJob j s).sound := by
  unfold admitJob
  dsimp only
  repeat' (first | with_reducible (first | exact hs | apply onMe_sound | apply countMove_sound
                                         | apply setMark_sound)
                 | rfl)

theorem offerAborted_sound {g : Nat} {kind : JobKind} {cause : AbortCause} {front : Nat} {s : State}
    (hs : s.sound) : (offerAborted g kind cause front s).sound := by
  unfold offerAborted
  repeat' (first | with_reducible (first | exact hs | apply offerNotice_sound))

theorem removeJob_sound {j : Job} {cause : AbortCause} {s : State} (hs : s.sound) : (removeJob j cause s).sound := by
  unfold removeJob
  dsimp only
  repeat' (first | with_reducible (first | exact hs | apply countMove_sound | apply setMark_sound
                                         | apply offerAborted_sound))

theorem laneToIdle_sound {n : Nat} {places : List Place} {s : State}
    (hs : s.sound) : (laneToIdle n places s).sound := by
  unfold laneToIdle
  refine forEach_sound (fun a s hs => releaseSlot_sound hs) ?_
  split
  · next hp => exact setLane_sound hs hp.symm (fun _ => rfl)
  · exact releaseAs_sound hs rfl

theorem abandonClaim_sound {n : Nat} {cause : Option AbortCause} {s : State}
    (hs : s.sound) : (abandonClaim n cause s).sound := by
  unfold abandonClaim
  dsimp only
  repeat' (first | with_reducible (first | exact hs | apply dropWorks_sound | apply leavePlace_sound
                                         | apply laneToIdle_sound | apply removeJob_sound | apply onMe_sound)
                 | split
                 | rfl)

theorem takeCause_sound {n : Nat} {cause : AbortCause} {s : State} (hs : s.sound) : (takeCause n cause s).sound := by
  unfold takeCause
  dsimp only
  repeat' (first | with_reducible (first | exact hs | apply onLane_sound | apply abandonClaim_sound
                                         | apply abortLane_sound | apply ite_sound)
                 | split
                 | exact fun _ => ⟨rfl, id⟩ | exact fun _ => ⟨rfl, nofun⟩)

theorem returnFill_sound {n : Nat} {s : State} (hs : s.sound) : (returnFill n s).sound := by
  unfold returnFill
  dsimp only
  repeat' (first | with_reducible (first | exact hs | apply dropWorks_sound | apply abandonRow_sound
                                         | apply laneToIdle_sound | apply onMe_sound)
                 | split
                 | rfl)

theorem leaveSkipped_sound {n : Nat} {s : State} (hs : s.sound) : (leaveSkipped n s).sound := by
  unfold leaveSkipped
  dsimp only
  repeat' (first | with_reducible (first | exact hs | apply onLane_sound | apply onDp_sound)
                 | rfl | exact fun _ => ⟨rfl, id⟩)

theorem skipFailed_sound {n : Nat} {s : State} (hs : s.sound) : (skipFailed n s).sound := by
  unfold skipFailed
  dsimp only
  repeat' (first | with_reducible (first | exact hs | apply rowProgress_sound | apply onLane_sound
                                         | apply leaveSkipped_sound | apply ite_sound)
                 | exact fun _ => ⟨rfl, id⟩ | exact fun _ => ⟨rfl, nofun⟩)

theorem laneSetChanged_sound {t : Nat} {state : SetState} {n : Nat} {s : State}
    (hs : s.sound) : (laneSetChanged t state n s).sound := by
  unfold laneSetChanged
  dsimp only
  repeat' (first | with_reducible (first | exact hs | apply returnFill_sound | apply skipFailed_sound
                                         | apply takeCause_sound | apply ite_sound)
                 | split)

theorem setChanged_sound {t : Nat} {state : SetState} {s : State} (hs : s.sound) : (setChanged t state s).sound := by
  unfold setChanged
  repeat' (first | with_reducible (first | exact hs | apply laneSetChanged_sound)
                 | refine forEach_sound (fun a s hs => ?_) ?_)

theorem beginClaim_sound {n : Nat} {j : Job} {target : Option Place} {state : LaneState} {s : State} (hs : s.sound)
    (hp : (s.lane n).pages = []) : (beginClaim n j target state s).sound := by
  unfold beginClaim
  exact countMove_sound (forEach_sound (fun _ _ hs => holdSlot_sound hs)
    (setLane_sound hs hp.symm (fun _ => rfl)))

theorem queueBegin_sound {n : Nat} {s : State} (hs : s.sound) : (queueBegin n s).sound := by
  unfold queueBegin
  dsimp only
  repeat' (first | with_reducible (first | exact hs | apply queueRecord_sound) | split)

/-- A lane with the same record holds the same pages. -/
theorem lane_eq {s t : State} (h : t.me = s.me) (n : Nat) : t.lane n = s.lane n := by
  unfold State.lane
  rw [h]

theorem writeSlot_me (p : Place) (v : Slot) (s : State) : (s.writeSlot p v).me = s.me := by
  unfold State.writeSlot
  dsimp only
  split
  · rfl
  · split <;> rfl

theorem claimMove_sound {n : Nat} {j : Job} {t : Place} {s : State} (hs : s.sound) (hp : (s.lane n).pages = []) :
    (claimMove n j t s).sound := by
  have hb := beginClaim_sound (n := n) (j := j) (target := some t) (state := .claiming)
    (takeSlot_sound (p := t) (state := .target) (g := j.slab) hs)
    ((congrArg Lane.pages (lane_eq (writeSlot_me _ _ s) n)).trans hp)
  unfold claimMove
  dsimp only
  refine ite_sound (queueBegin_sound (onLane_sound hb fun _ => ⟨rfl, id⟩)) (onLane_sound hb fun _ => ⟨rfl, id⟩)

theorem claimRetained_sound {n : Nat} {j : Job} {t : Place} {s : State} (hs : s.sound) (hp : (s.lane n).pages = []) :
    (claimRetained n j t s).sound := by
  have hb := beginClaim_sound (n := n) (j := j) (target := some t) (state := .waitPages) hs hp
  unfold claimRetained
  dsimp only
  repeat' (first | with_reducible (first | exact hb | apply abortLane_sound | apply nextRow_sound | apply ite_sound)
                 | split)

theorem claimFill_sound {n : Nat} {j : Job} {s : State} (hs : s.sound) (hp : (s.lane n).pages = []) :
    (claimFill n j s).sound := nextRow_sound (beginClaim_sound hs hp)

theorem claimReplaced_sound {n : Nat} {j : Job} {p : Place} {s : State} (hs : s.sound) (hp : (s.lane n).pages = []) :
    (claimReplaced n j p s).sound := by
  unfold claimReplaced
  dsimp only
  refine startAttempt_sound (queueRecord_sound (beginClaim_sound
    (setSlab_sound (freeSlot_sound (takeSlot_sound hs))) ?_))
  exact (congrArg Lane.pages (lane_eq ((writeSlot_me _ _ _).trans (writeSlot_me _ _ s)) n)).trans hp

theorem removeJob_lanes (j : Job) (cause : AbortCause) (s : State) : (removeJob j cause s).me.lanes = s.me.lanes := by
  unfold removeJob offerAborted
  dsimp only
  obtain ⟨m, hm⟩ := offerNotice_eq (.jobAborted
    ((countMove (fun c => { c with jobsRemoved := bump c.jobsRemoved }) (s.setMark j.slab false)).slab j.slab).volume
    ((countMove (fun c => { c with jobsRemoved := bump c.jobsRemoved }) (s.setMark j.slab false)).volumeSlab j.slab)
    j.slab j.kind cause 0)
    (countMove (fun c => { c with jobsRemoved := bump c.jobsRemoved }) (s.setMark j.slab false))
  rw [hm]
  rfl

theorem claimScan_sound {n : Nat} {kept jobs : List Job} {s : State} (h : s.sound) (hp : (s.lane n).pages = []) :
    (claimScan n kept jobs s).sound := by
  have hm : ∀ (l : List Job) {t : State}, t.sound → (t.onMe (fun m => { m with jobs := l })).sound :=
    fun l t ht => onMe_sound ht rfl rfl
  have hr : ∀ (j : Job) (c : AbortCause) {t : State}, (t.lane n).pages = [] → ((removeJob j c t).lane n).pages = [] :=
    fun j c t ht => by
      unfold State.lane at *
      rw [removeJob_lanes]
      exact ht
  induction jobs generalizing kept s with
  | nil => exact hm _ h
  | cons j rest ih =>
    unfold claimScan
    dsimp only
    split
    · split
      · split
        · exact ih h hp
        · exact claimReplaced_sound (hm _ h) hp
      · exact claimFill_sound (hm _ h) hp
    · exact claimRetained_sound (hm _ h) hp
    · split
      · exact ih (removeJob_sound h) (hr _ _ hp)
      · split
        · exact ih (removeJob_sound h) (hr _ _ hp)
        · exact claimMove_sound (hm _ h) hp

theorem laneHoldEnded_sound {g : Nat} {mirrored : Bool} {n : Nat} {s : State}
    (hs : s.sound) : (laneHoldEnded g mirrored n s).sound := by
  unfold laneHoldEnded
  dsimp only
  repeat' (first | with_reducible (first | exact hs | apply startAttempt_sound | apply onLane_sound
                                         | apply queueBegin_sound | apply ite_sound)
                 | exact fun _ => ⟨rfl, id⟩ | exact fun _ => ⟨rfl, nofun⟩)

theorem holdEnded_sound {g : Nat} {mirrored : Bool} {s : State} (hs : s.sound) : (holdEnded g mirrored s).sound := by
  unfold holdEnded
  repeat' (first | with_reducible (first | exact hs | apply laneHoldEnded_sound)
                 | refine forEach_sound (fun a s hs => ?_) ?_)

theorem markJob_sound {g : Nat} {cause : AbortCause} {s : State}
    (hs : s.sound) : (State.markJob g cause s).sound := by
  unfold State.markJob
  dsimp only
  repeat' (first | with_reducible (first | exact hs | apply onMe_sound)
                 | rfl)

theorem targetWrite_sound {g : Nat} {t : Place} {members : List Nat} {s : State}
    (hs : s.sound) : (targetWrite g t members s).sound := by
  unfold targetWrite
  repeat' (first | with_reducible (first | exact hs | apply takeCause_sound | apply markJob_sound
                                         | apply ite_sound)
                 | split)

theorem beginDurable_sound {n g : Nat} {t : Place} {salvage : Bool} {s : State}
    (hs : s.sound) : (beginDurable n g t salvage s).sound := by
  unfold beginDurable
  dsimp only
  repeat' (first | with_reducible (first | exact hs | apply setSlab_sound | apply abortLane_sound
                                         | apply startAttempt_sound)
                 | split)

theorem frontDurable_sound {g value : Nat} {s : State} (hs : s.sound) : (frontDurable g value s).sound := by
  unfold frontDurable
  dsimp only
  repeat' (first | with_reducible (first | exact hs | apply setSlab_sound | apply ite_sound))

theorem moveCommitted_sound {n g : Nat} {s : State} (hs : s.sound) : (moveCommitted n g s).sound := by
  unfold moveCommitted
  dsimp only
  repeat' (first | with_reducible (first | exact hs | apply setSlab_sound | apply writeSlot_sound
                                         | apply laneToIdle_sound | apply leavePlace_sound | apply countMove_sound)
                 | split)

theorem fillCommitted_sound {n g : Nat} {s : State} (hs : s.sound) : (fillCommitted n g s).sound := by
  unfold fillCommitted
  dsimp only
  repeat' (first | with_reducible (first | exact hs | apply setSlab_sound | apply laneToIdle_sound
                                         | apply recomputeReady_sound | apply countMove_sound))

theorem abortDurable_sound {n g : Nat} {s : State} (hs : s.sound) : (abortDurable n g s).sound := by
  unfold abortDurable
  dsimp only
  repeat' (first | with_reducible (first | exact hs | apply setSlab_sound | apply laneToIdle_sound
                                         | apply leavePlace_sound | apply countMove_sound
                                         | apply offerAborted_sound)
                 | split)

theorem laneRecordDurable_sound {n : Nat} {body : RecordBody} {s : State}
    (hs : s.sound) : (laneRecordDurable n body s).sound := by
  unfold laneRecordDurable
  repeat' (first | with_reducible (first | exact hs | apply beginDurable_sound | apply frontDurable_sound
                                         | apply moveCommitted_sound | apply fillCommitted_sound
                                         | apply abortDurable_sound)
                 | split)

theorem laneRecordQueued_sound {n : Nat} {body : RecordBody} {s : State}
    (hs : s.sound) : (laneRecordQueued n body s).sound := by
  unfold laneRecordQueued
  repeat' (first | with_reducible (first | exact hs | apply onLane_sound | apply setSlab_sound
                                         | apply askPages_sound | apply countMove_sound | apply addDamage_sound)
                 | split
                 | exact fun _ => ⟨rfl, id⟩ | exact fun _ => ⟨rfl, nofun⟩)

theorem laneRecordUnmade_sound {n : Nat} {body : RecordBody} {s : State}
    (hs : s.sound) : (laneRecordUnmade n body s).sound := by
  unfold laneRecordUnmade
  repeat' (first | with_reducible (first | exact hs | apply askPages_sound | apply addDamage_sound) | split)

theorem laneFrozen_sound {n : Nat} {s : State} (hs : s.sound) : (laneFrozen n s).sound := by
  unfold laneFrozen
  dsimp only
  repeat' (first | with_reducible (first | exact hs | apply abandonClaim_sound | apply ite_sound))

theorem pauseLane_sound {n : Nat} {s : State} (hs : s.sound) : (pauseLane n s).sound := by
  unfold pauseLane
  dsimp only
  repeat' (first | with_reducible (first | exact hs | apply onLane_sound | apply leaveTokens_sound
                                         | apply releasePages_sound | apply leavePageList_sound | apply ite_sound)
                 | exact fun _ => ⟨rfl, id⟩ | exact fun _ => ⟨rfl, nofun⟩)

theorem resumeLane_sound {n : Nat} {s : State} (hs : s.sound) : (resumeLane n s).sound := by
  unfold resumeLane
  repeat' (first | with_reducible (first | exact hs | apply startAttempt_sound | apply ite_sound))

/-! ## Grants -/

theorem countGrant_sound {f : GrantCounters → GrantCounters} {s : State} (hs : s.sound) : (countGrant f s).sound := by
  unfold countGrant
  repeat' (first | with_reducible (first | exact hs | apply onGu_sound) | exact Nat.le_refl _)

theorem countGranted_sound {access : Access} {target : Option Place} {s : State}
    (hs : s.sound) : (countGranted access target s).sound := by
  unfold countGranted
  repeat' (first | with_reducible (first | exact hs | apply countGrant_sound) | split)

theorem grantMap_sound {a : MapAsk} {target : Option Place} {s : State}
    (hs : s.sound) : (grantMap a target s).sound := by
  unfold grantMap
  dsimp only
  repeat' (first | with_reducible (first | exact hs | apply onGu_sound | apply setHold_sound
                                         | apply countGranted_sound | apply raiseRef_sound | apply answer_sound)
                 | refine forEach_sound (fun a s hs => ?_) ?_ | split | exact Nat.le_refl _)

theorem grantPlaced_sound {a : MapAsk} {p : Placing} {s : State} (hs : s.sound) : (grantPlaced a p s).sound := by
  unfold grantPlaced
  dsimp only
  repeat' (first | with_reducible (first | exact hs | apply grantMap_sound | apply meetGrant_sound
                                         | apply ite_sound)
                 | split)

theorem freeHold_sound {h : Nat} {s : State} (hs : s.sound) : (freeHold h s).sound := by
  unfold freeHold
  dsimp only
  repeat' (first | with_reducible (first | exact hs | apply setHold_sound | apply onGu_sound
                                         | apply lowerRef_sound)
                 | refine forEach_sound (fun a s hs => ?_) ?_ | exact Nat.le_refl _)

theorem reportEnd_sound {e : Hold} {s : State} (hs : s.sound) : (reportEnd e s).sound := by
  unfold reportEnd
  repeat' (first | with_reducible (first | exact hs | apply holdEnded_sound | apply post_sound | apply ite_sound))

theorem deferMap_sound {a : MapAsk} {s : State} (h : s.sound) : (deferMap a s).sound := by
  unfold deferMap
  split
  · next hd =>
    obtain ⟨⟨h1, h2, h3, h4, h5⟩, ⟨h6, h7⟩, h8⟩ := h
    refine countGrant_sound ⟨⟨h1, ?_, h3, h4, fun q hq => h5 q (List.mem_filter.mp hq).1⟩, ⟨?_, h7⟩, h8⟩
    · exact Nat.le_trans (List.length_filter_le _ _) h2
    · simpa using Nat.succ_le_of_lt hd
  · exact countGrant_sound (refuse_sound h)

theorem dropDeferred_sound {tag : ReqTag} {s : State} (hs : s.sound) : (dropDeferred tag s).sound := by
  unfold dropDeferred
  repeat' (first | with_reducible (first | exact hs | apply onGu_sound) | exact Nat.le_refl _
                 | exact List.length_filter_le _ _)

theorem reevaluateOne_sound {d : Deferred} {s : State} (hs : s.sound) : (reevaluateOne d s).sound := by
  unfold reevaluateOne
  repeat' (first | with_reducible (first | exact hs | apply countGrant_sound | apply dropDeferred_sound
                                         | apply refuse_sound | apply grantPlaced_sound | apply ite_sound)
                 | split)

theorem reevaluate_sound {g : Nat} {s : State} (hs : s.sound) : (reevaluate g s).sound := by
  unfold reevaluate
  repeat' (first | with_reducible (first | exact hs | apply reevaluateOne_sound)
                 | refine forEach_sound (fun a s hs => ?_) ?_)

/-! ## Members -/

theorem changeMember_sound {id : Nat} {m : Member} {s : State} (hs : s.sound) : (changeMember id m s).sound := by
  unfold changeMember
  dsimp only
  repeat' (first | with_reducible (first | exact hs | apply setMember_sound | apply offerNotice_sound
                                         | apply ite_sound))

theorem pmRecord_sound {body : RecordBody} {s : State} (hs : s.sound) : (pmRecord body s).sound := by
  unfold pmRecord
  repeat' (first | with_reducible (first | exact hs | apply queueRecord_sound))

theorem pmWork_sound {tag : ReqTag} {body : RecordBody} {s : State} (hs : s.sound) : (pmWork tag body s).sound := by
  unfold pmWork
  repeat' (first | with_reducible (first | exact hs | apply queueWork_sound))

theorem setBusy_sound {w : Option PmWork} {s : State} (hs : s.sound) : (setBusy w s).sound := by
  unfold setBusy
  repeat' (first | with_reducible (first | exact hs | apply onPm_sound))

theorem countFailed_sound {t : Nat} {s : State} (hs : s.sound) : (countFailed t s).sound := by
  unfold countFailed
  dsimp only
  repeat' (first | with_reducible (first | exact hs | apply setSet_sound))

theorem postSetChange_sound {t : Nat} {s : State} (hs : s.sound) : (postSetChange t s).sound := by
  unfold postSetChange
  repeat' (first | with_reducible (first | exact hs | apply setChanged_sound | apply post_sound))

theorem offerSetState_sound {old : State} {t : Nat} {s : State} (hs : s.sound) : (offerSetState old t s).sound := by
  unfold offerSetState
  repeat' (first | with_reducible (first | exact hs | apply offerNotice_sound))

theorem recordFailure_sound {id : Nat} {reply : Option ReqTag} {s : State}
    (hs : s.sound) : (recordFailure id reply s).sound := by
  unfold recordFailure
  repeat' (first | with_reducible (first | exact hs | apply onPm_sound | apply queueWork_sound | apply ite_sound))

theorem failMember_sound {id : Nat} {reply : Option ReqTag} {s : State}
    (hs : s.sound) : (failMember id reply s).sound := by
  unfold failMember
  dsimp only
  repeat' (first | with_reducible (first | exact hs | apply setMember_sound | apply countFailed_sound
                                         | apply postSetChange_sound | apply offerNotice_sound
                                         | apply offerSetState_sound | apply recordFailure_sound
                                         | apply endCommands_sound)
                 | refine forEach_sound (fun a s hs => ?_) ?_)

theorem memberCause_sound {id : Nat} {s : State} (hs : s.sound) : (memberCause id s).sound := by
  unfold memberCause
  dsimp only
  repeat' (first | with_reducible (first | exact hs | apply failMember_sound | apply ite_sound))

theorem joinNumbered_sound {tag : ReqTag} {id q : Nat} {durable : Bool} {s : State}
    (hs : s.sound) : (joinNumbered tag id q durable s).sound := by
  unfold joinNumbered
  dsimp only
  repeat' (first | with_reducible (first | exact hs | apply setBusy_sound | apply handOver_sound))

theorem joinComplete_sound {tag : ReqTag} {id q : Nat} {s : State}
    (hs : s.sound) : (joinComplete tag id q s).sound := by
  unfold joinComplete
  dsimp only
  repeat' (first | with_reducible (first | exact hs | apply changeMember_sound | apply setBusy_sound
                                         | apply answer_sound))

theorem joinFail_sound {tag : ReqTag} {id : Nat} {m : Member} {s : State}
    (hs : s.sound) : (joinFail tag id m s).sound := by
  unfold joinFail
  repeat' (first | with_reducible (first | exact hs | apply pmWork_sound | apply setBusy_sound
                                         | apply changeMember_sound))

theorem joinCompleted_sound {c : Completion} {s : State} (hs : s.sound) : (joinCompleted c s).sound := by
  unfold joinCompleted
  dsimp only
  repeat' (first | with_reducible (first | exact hs | apply joinFail_sound | apply handOver_sound
                                         | apply joinComplete_sound | apply setBusy_sound | apply ite_sound)
                 | split)

theorem driveAppeared_sound {id capacity : Nat} {formatOk : Bool} {s : State}
    (hs : s.sound) : (driveAppeared id capacity formatOk s).sound := by
  unfold driveAppeared
  dsimp only
  repeat' (first | with_reducible (first | exact hs | apply changeMember_sound | apply setErrorRun_sound
                                         | apply setMember_sound)
                 | split | exact Nat.zero_le _)

theorem driveGone_sound {id : Nat} {s : State} (hs : s.sound) : (driveGone id s).sound := by
  unfold driveGone
  dsimp only
  repeat' (first | with_reducible (first | exact hs | apply changeMember_sound | apply endCommands_sound
                                         | apply joinFail_sound | apply failMember_sound)
                 | split)

theorem checkCompleted_sound {c : Completion} {s : State} (hs : s.sound) : (checkCompleted c s).sound := by
  unfold checkCompleted
  dsimp only
  repeat' (first | with_reducible (first | exact hs | apply onPm_sound | apply memberCause_sound | apply ite_sound))

theorem joinBand_sound {t : Nat} {p : Position} {s : State} (hs : s.sound) : (joinBand t p s).sound := by
  unfold joinBand
  dsimp only
  repeat' (first | with_reducible (first | exact hs | apply changeMember_sound | apply pmRecord_sound
                                         | apply ite_sound))

theorem leaveBand_sound {t : Nat} {p : Position} {s : State} (hs : s.sound) : (leaveBand t p s).sound := by
  unfold leaveBand
  dsimp only
  repeat' (first | with_reducible (first | exact hs | apply changeMember_sound | apply pmRecord_sound
                                         | apply ite_sound))

theorem setEstablished_sound {tag : ReqTag} {t : Nat} {s : State}
    (hs : s.sound) : (setEstablished tag t s).sound := by
  unfold setEstablished
  dsimp only
  repeat' (first | with_reducible (first | exact hs | apply joinBand_sound | apply setSet_sound
                                         | apply offerNotice_sound | apply setBusy_sound | apply answer_sound)
                 | refine forEach_sound (fun a s hs => ?_) ?_)

theorem setRetired_sound {tag : ReqTag} {t : Nat} {s : State} (hs : s.sound) : (setRetired tag t s).sound := by
  unfold setRetired
  dsimp only
  repeat' (first | with_reducible (first | exact hs | apply leaveBand_sound | apply setSet_sound
                                         | apply offerNotice_sound | apply setBusy_sound | apply setChanged_sound
                                         | apply answer_sound | apply post_sound)
                 | refine forEach_sound (fun a s hs => ?_) ?_)

theorem volumeOnline_sound {tag : ReqTag} {v : Nat} {s : State} (hs : s.sound) : (volumeOnline tag v s).sound := by
  unfold volumeOnline
  dsimp only
  repeat' (first | with_reducible (first | exact hs | apply setVolume_sound | apply setBusy_sound
                                         | apply answer_sound))

theorem growSlab_sound {volume : Nat} {p : Placement} {s : State} (hs : s.sound) : (growSlab volume p s).sound := by
  unfold growSlab
  dsimp only
  repeat' (first | with_reducible (first | exact hs | apply setSlab_sound | apply admitJob_sound))

theorem growthEffect_sound {w : GrowWork} {s : State} (hs : s.sound) : (growthEffect w s).sound := by
  unfold growthEffect
  dsimp only
  repeat' (first | with_reducible (first | exact hs | apply growSlab_sound | apply setBusy_sound
                                         | apply setVolume_sound | apply recomputeReady_sound | apply answer_sound)
                 | refine forEach_sound (fun a s hs => ?_) ?_)

theorem setSlabSize_sound {v : Nat} {s : State} (hs : s.sound) : (State.setSlabSize v s).sound := by
  unfold State.setSlabSize
  repeat' (first | with_reducible (first | exact hs | apply onPm_sound))

theorem pmDurable_sound {r : Record} {s : State} (hs : s.sound) : (pmDurable r s).sound := by
  unfold pmDurable
  repeat' (first | with_reducible (first | exact hs | apply joinComplete_sound | apply setBusy_sound
                                         | apply refuse_sound | apply answer_sound | apply setEstablished_sound
                                         | apply setRetired_sound | apply volumeOnline_sound
                                         | apply growthEffect_sound | apply setSlabSize_sound | apply ite_sound)
                 | split)

theorem pmQueued_sound {r : Record} {s : State} (hs : s.sound) : (pmQueued r s).sound := by
  unfold pmQueued
  repeat' (first | with_reducible (first | exact hs | apply joinNumbered_sound | apply ite_sound) | split)

theorem joinFrozen_sound {id : Nat} {s : State} (hs : s.sound) : (joinFrozen id s).sound := by
  unfold joinFrozen
  dsimp only
  repeat' (first | with_reducible (first | exact hs | apply cancelCommands_sound | apply changeMember_sound
                                         | apply ite_sound))

theorem abandonGrowth_sound {w : GrowWork} {s : State} (hs : s.sound) : (abandonGrowth w s).sound := by
  unfold abandonGrowth
  dsimp only
  repeat' (first | with_reducible (first | exact hs | apply freeSlot_sound | apply setVolume_sound)
                 | refine forEach_sound (fun a s hs => ?_) ?_)

theorem undoWork_sound {w : PmWork} {s : State} (hs : s.sound) : (undoWork w s).sound := by
  unfold undoWork
  repeat' (first | with_reducible (first | exact hs | apply joinFrozen_sound | apply changeMember_sound
                                         | apply setSet_sound | apply setVolume_sound | apply abandonGrowth_sound)
                 | split)

theorem pmFrozen_sound {s : State} (hs : s.sound) : (pmFrozen s).sound := by
  unfold pmFrozen
  repeat' (first | with_reducible (first | exact hs | apply undoWork_sound | apply setBusy_sound
                                         | apply refuse_sound)
                 | split)

/-! ## StartUp -/

theorem restarted_sound {s : State} : (restarted s).sound :=
  ⟨⟨Nat.zero_le _, Nat.zero_le _, List.nodup_nil, Nat.zero_le _, fun _ h => absurd h List.not_mem_nil⟩,
    ⟨Nat.zero_le _, Nat.zero_le _, rfl, fun _ => Nat.zero_le _, show (1#16 : BitVec 16) ≠ 0 by decide⟩,
    damageFormed_nil, pagesDivided_reset⟩

theorem beginPoll_sound {address : Nat} {s : State} (hs : s.sound) : (beginPoll address s).sound := by
  unfold beginPoll
  repeat' (first | with_reducible (first | exact hs | apply onSm_sound))

theorem beginRound_sound {s : State} (hs : s.sound) : (beginRound s).sound := by
  unfold beginRound
  repeat' (first | with_reducible (first | exact hs | apply beginPoll_sound | apply onSm_sound))

theorem scanRing_sound {pages : List (Nat × List Byte)} {a : Account} {f : FoundImage} {next head : Nat} {s : State}
    (hs : s.sound) : (setRing pages a f next head s).sound := by
  unfold setRing
  dsimp only
  repeat' (first | with_reducible (first | exact hs | apply setStoreBlock_sound | apply moveSpentHead_sound
                                         | apply onJc_sound)
                 | refine forEach_sound (fun a s hs => ?_) ?_ | exact Nat.le_refl _)

theorem loadSet_sound {e : Nat × Option SetDef} {s : State} (hs : s.sound) : (loadSet e s).sound := by
  unfold loadSet
  dsimp only
  repeat' (first | with_reducible (first | exact hs | apply setSet_sound) | split)

theorem loadSlab_sound {e : Nat × Slab} {s : State} (hs : s.sound) : (loadSlab e s).sound := by
  unfold loadSlab
  dsimp only
  repeat' (first | with_reducible (first | exact hs | apply setSlab_sound | apply takeSlot_sound) | split)

theorem loadVolume_sound {e : Nat × Volume} {s : State} (hs : s.sound) : (loadVolume e s).sound := by
  unfold loadVolume
  dsimp only
  repeat' (first | with_reducible (first | exact hs | apply setVolume_sound))

theorem loadParams_sound {p : Params} {s : State} (hs : s.sound) : (loadParams p s).sound := by
  unfold loadParams
  dsimp only
  repeat' (first | with_reducible (first | exact hs | apply onPm_sound | apply onGu_sound | apply onDp_sound
                                         | apply onSm_sound | apply onMe_sound)
                 | exact Nat.le_refl _ | rfl)

theorem loadAccount_sound {a : Account} {s : State} (hs : s.sound) (ha : damageFormed a.damage) :
    (loadAccount a s).sound := by
  unfold loadAccount
  dsimp only
  refine withDamage_sound ?_ rfl ha
  repeat' (first | with_reducible (first | exact hs | apply loadParams_sound | apply onPm_sound
                                         | apply loadSet_sound | apply loadSlab_sound | apply loadVolume_sound)
                 | refine forEach_sound (fun a s hs => ?_) ?_)

theorem firstRound_sound {s : State} (hs : s.sound) : (firstRound s).sound := by
  unfold firstRound
  dsimp only
  repeat' (first | with_reducible (first | exact hs | apply sendFlush_sound | apply beginRound_sound
                                         | apply onJc_sound)
                 | with_reducible apply with_stage_sound | exact Nat.le_refl _)

theorem becomeBlank_sound {cause : Option BlankCause} {s : State} (hs : s.sound) : (becomeBlank cause s).sound := by
  unfold becomeBlank
  dsimp only
  repeat' (first | with_reducible (first | exact hs | apply firstRound_sound | apply offerNotice_sound)
                 | with_reducible apply with_part_sound)

theorem imageAccount_formed (f : FoundImage) : damageFormed (imageAccount f).damage := by
  unfold imageAccount
  split
  · generalize f.between = bs
    have ha := readImage_formed
    next arrayId params bad lost counts _ =>
    have key : ∀ (l : List RecordBody) (a : Account), damageFormed a.damage →
        damageFormed (Account.damage (forEach (fun (b : RecordBody) a => match b with
          | .blockRetire n => applyRecord 0 (.blockRetire n) a
          | _ => a) l a)) := fun l => by
      induction l with
      | nil => exact fun _ h => h
      | cons b rest ih =>
        intro a h
        refine ih _ ?_
        cases b <;> first | exact applyRecord_formed _ _ h | exact h
    exact key _ _ (ha ..)
  · exact damageFormed_nil

theorem replay_formed (vs : List ValidPage) (n seq : Nat) {a : Account} (h : damageFormed a.damage) :
    damageFormed (replay vs n seq a).1.damage := by
  induction n generalizing seq a with
  | zero => exact h
  | succ n ih =>
    unfold replay
    split
    · exact h
    · exact ih _ (applyRecord_formed _ _ h)

theorem scanEnded_sound {pages : List (Nat × List Byte)} {s : State} (hs : s.sound) : (scanEnded pages s).sound := by
  unfold scanEnded
  dsimp only
  split
  · exact firstRound_sound (scanRing_sound (loadAccount_sound hs (replay_formed _ _ _ (imageAccount_formed _))))
  · exact becomeBlank_sound hs

theorem scanFailed_sound {s : State} (hs : s.sound) : (scanFailed s).sound := by
  unfold scanFailed
  repeat' (first | with_reducible (first | exact hs | apply becomeBlank_sound | apply offerFault_sound))

theorem checkMember_sound {id : Nat} {s : State} (hs : s.sound) : (checkMember id s).sound := by
  unfold checkMember
  repeat' (first | with_reducible (first | exact hs | apply handOver_sound | apply onPm_sound
                                         | apply memberCause_sound | apply post_sound | apply ite_sound))

theorem repair_sound {s : State} (hs : s.sound) : (repair s).sound := by
  unfold repair
  dsimp only
  repeat' (first | with_reducible (first | exact hs | apply onMe_sound | apply setSlab_sound
                                         | apply setVolume_sound)
                 | refine forEach_sound (fun a s hs => ?_) ?_
                 | rfl)

theorem beginWindows_sound {s : State} (hs : s.sound) : (beginWindows s).sound := by
  unfold beginWindows
  repeat' (first | with_reducible (first | exact hs | apply onMe_sound)
                 | rfl)

theorem enterReady_sound {s : State} (hs : s.sound) : (enterReady s).sound := by
  unfold enterReady
  dsimp only
  repeat' (first | with_reducible (first | exact hs | apply onJc_sound | apply beginWindows_sound
                                         | apply onPm_sound | apply offerNotice_sound | apply kickStore_sound
                                         | apply pmRecord_sound)
                 | refine forEach_sound (fun a s hs => ?_) ?_ | with_reducible apply with_part_stage_sound
                 | exact Nat.le_refl _)

theorem enterService_sound {s : State} (h : s.sound) : (enterService s).sound := by
  unfold enterService
  cases s.part with
  | starting =>
    exact ite_sound (enterReady_sound h)
      (offerNotice_sound (onPm_sound (enterFrozen_sound (with_stage_sound (x := .service) h))))
  | blank c => exact with_stage_sound (x := .service) h
  | ready => exact h
  | frozen => exact h

theorem refuseDeferred_sound {d : Deferred} {s : State} (hs : s.sound) : (refuseDeferred d s).sound := by
  unfold refuseDeferred
  repeat' (first | with_reducible (first | exact hs | apply refuse_sound))

theorem formatReset_sound {s : State} (h : s.sound) : (formatReset s).sound := by
  have ht : ∀ l m, (forEach cancelEntry l (forEach refuseDeferred m s)).sound := fun l m =>
    forEach_sound (fun e s h => cancelEntry_sound h) (forEach_sound (fun d s h => refuseDeferred_sound h) h)
  obtain ⟨h1, ⟨-, -, h4, -, h6⟩, -⟩ := ht ((forEach refuseDeferred s.gu.deferred s).entriesWhere (fun _ => true))
    s.gu.deferred
  exact ⟨h1, ⟨Nat.zero_le _, Nat.zero_le _, h4, fun _ => Nat.zero_le _, h6⟩, damageFormed_nil, pagesDivided_reset⟩

theorem beginFormat_sound {tag : ReqTag} {arrayId : BitVec 64} {s : State}
    (hs : s.sound) : (beginFormat tag arrayId s).sound := by
  unfold beginFormat
  dsimp only
  repeat' (first | with_reducible (first | exact hs | apply formatReset_sound | apply onJc_sound
                                         | apply beginRound_sound | apply sendFlush_sound)
                 | with_reducible apply with_part_sound | exact Nat.le_refl _)

theorem failFormat_sound {tag : ReqTag} {s : State} (h : s.sound) : (failFormat tag s).sound := by
  unfold failFormat
  exact refuse_sound (with_part_sound (onPm_sound (onJc_sound (s := s) h (Nat.zero_le _))))

theorem writeFormatImage_sound {f : FormatWork} {s : State} (hs : s.sound) : (writeFormatImage f s).sound := by
  unfold writeFormatImage
  dsimp only
  repeat' (first | with_reducible (first | exact hs | apply failFormat_sound | apply condition_sound
                                         | apply kickStore_sound | apply onJc_sound)
                 | split | exact Nat.le_refl _)

theorem formatErased_sound {f : FormatWork} {block : Nat} {s : State}
    (hs : s.sound) : (formatErased f block s).sound := by
  unfold formatErased
  repeat' (first | with_reducible (first | exact hs | apply onJc_sound | apply failFormat_sound
                                         | apply writeFormatImage_sound | apply ite_sound)
                 | split | exact Nat.le_refl _)

theorem formatComplete_sound {f : FormatWork} {s : State} (hs : s.sound) : (formatComplete f s).sound := by
  unfold formatComplete
  dsimp only
  repeat' (first | with_reducible (first | exact hs | apply onJc_sound | apply beginWindows_sound
                                         | apply onPm_sound | apply offerNotice_sound | apply answer_sound)
                 | with_reducible apply with_part_sound | exact Nat.le_refl _)

theorem jcDurable_sound {r : Record} {s : State} (hs : s.sound) : (jcDurable r s).sound := by
  unfold jcDurable
  repeat' (first | with_reducible (first | exact hs | apply formatComplete_sound) | split)

/-! ## Settle -/

theorem takeCompletion_sound {c : Completion} {s : State} (hs : s.sound) : (takeCompletion c s).sound := by
  unfold takeCompletion
  repeat' (first | with_reducible (first | exact hs | apply laneCompleted_sound | apply joinCompleted_sound
                                         | apply checkCompleted_sound)
                 | split)

theorem paramDurable_sound {p : Param} {v : Nat} {s : State} (hs : s.sound) : (paramDurable p v s).sound := by
  unfold paramDurable
  dsimp only
  repeat' (first | with_reducible (first | exact hs | apply onGu_sound | apply onDp_sound | apply onSm_sound
                                         | apply onMe_sound | apply passTokens_sound | apply ite_sound)
                 | split | exact Nat.le_refl _ | rfl)

theorem answerWaiting_sound {reply : Option ReqTag} {result : Result} {s : State}
    (hs : s.sound) : (answerWaiting reply result s).sound := by
  unfold answerWaiting
  repeat' (first | with_reducible (first | exact hs | apply refuse_sound) | split)

theorem ownerDurable_sound {r : Record} {s : State} (hs : s.sound) : (ownerDurable r s).sound := by
  unfold ownerDurable
  repeat' (first | with_reducible (first | exact hs | apply pmDurable_sound | apply laneRecordDurable_sound
                                         | apply jcDurable_sound | apply answerWaiting_sound
                                         | apply paramDurable_sound)
                 | split)

theorem ownerQueued_sound {r : Record} {s : State} (hs : s.sound) : (ownerQueued r s).sound := by
  unfold ownerQueued
  repeat' (first | with_reducible (first | exact hs | apply pmQueued_sound | apply laneRecordQueued_sound
                                         | apply onMe_sound | apply ite_sound)
                 | split
                 | rfl)

theorem mapRecordLost_sound {reply : Option ReqTag} {s : State} (hs : s.sound) : (mapRecordLost reply s).sound :=
  ite_sound (pmFrozen_sound hs) hs

theorem laneRecordLost_sound {n : Nat} {body : RecordBody} {s : State} (hs : s.sound) :
    (laneRecordLost n body s).sound := by
  unfold laneRecordLost
  split
  · exact laneFrozen_sound hs
  · exact hs

theorem ownerDiscarded_sound {r : Record} {s : State} (hs : s.sound) : (ownerDiscarded r s).sound := by
  unfold ownerDiscarded
  repeat' (first | with_reducible (first | exact hs | apply answerWaiting_sound | apply mapRecordLost_sound
                                         | apply laneRecordLost_sound)
                 | split)

theorem ownerUnmade_sound {owner : JOwner} {w : Work} {s : State} (hs : s.sound) : (ownerUnmade owner w s).sound := by
  unfold ownerUnmade
  repeat' (first | with_reducible (first | exact hs | apply laneRecordUnmade_sound | apply answerWaiting_sound
                                         | apply mapRecordLost_sound | apply laneRecordLost_sound)
                 | split)

theorem handle_sound {i : Internal} {s : State} (hs : s.sound) : (handle i s).sound := by
  unfold handle
  repeat' (first | with_reducible (first | exact hs | apply serveRoom_sound | apply kickStore_sound
                                         | apply freezeJournal_sound | apply takeCompletion_sound
                                         | apply memberCause_sound | apply driveAppeared_sound
                                         | apply driveGone_sound | apply setChanged_sound | apply holdEnded_sound
                                         | apply targetWrite_sound | apply reevaluate_sound
                                         | apply enterToken_sound | apply rowStart_sound
                                         | apply recoveryGranted_sound | apply commitCheck_sound
                                         | apply settleLost_sound | apply rowAgain_sound | apply ownerQueued_sound
                                         | apply ownerDurable_sound | apply ownerDiscarded_sound
                                         | apply ownerUnmade_sound | apply laneFrozen_sound | apply pmFrozen_sound)
                 | split)

theorem settle_sound {n : Nat} {s : State} (h : s.sound) : (settle n s).sound := by
  induction n generalizing s with
  | zero => exact h
  | succ n ih =>
    unfold settle
    split
    · exact h
    · exact ih (with_agenda_sound (handle_sound (with_agenda_sound h)))

/-! ## Link -/

theorem countLink_sound {f : LinkCounters → LinkCounters} {s : State} (hs : s.sound) : (countLink f s).sound := by
  unfold countLink
  repeat' (first | with_reducible (first | exact hs | apply onMp_sound) | exact Nat.le_refl _ | rfl)

theorem setReceiver_sound {r : Receiver} {s : State} (hs : s.sound) : (setReceiver r s).sound := by
  unfold setReceiver
  repeat' (first | with_reducible (first | exact hs | apply onMp_sound) | exact Nat.le_refl _ | rfl)

theorem startHeader_sound {got : List Byte} {s : State} (hs : s.sound) : (startHeader got s).sound := by
  unfold startHeader
  repeat' (first | with_reducible (first | exact hs | apply setReceiver_sound | apply countLink_sound
                                         | apply ite_sound))

theorem judgeHeader_sound {h : List Byte} {overrun : Bool} {s : State}
    (hs : s.sound) : (judgeHeader h overrun s).sound := by
  unfold judgeHeader
  dsimp only
  repeat' (first | with_reducible (first | exact hs | apply setReceiver_sound | apply countLink_sound
                                         | apply startHeader_sound | apply ite_sound)
                 | split)

theorem badFrame_sound {s : State} (hs : s.sound) : (badFrame s).sound := by
  unfold badFrame
  repeat' (first | with_reducible (first | exact hs | apply countLink_sound | apply setReceiver_sound
                                         | apply offerFault_sound))

theorem goodFrame_sound {f : Frame} {s : State} (hs : s.sound) : (goodFrame f s).sound := by
  unfold goodFrame
  dsimp only
  repeat' (first | with_reducible (first | exact hs | apply countLink_sound | apply setReceiver_sound
                                         | apply onMp_sound | apply ite_sound)
                 | split | exact Nat.le_refl _ | rfl)

theorem judgePayload_sound {h got : List Byte} {s : State} (hs : s.sound) : (judgePayload h got s).sound := by
  unfold judgePayload
  dsimp only
  repeat' (first | with_reducible (first | exact hs | apply goodFrame_sound | apply badFrame_sound
                                         | apply ite_sound))

theorem headerByte_sound {got : List Byte} {overrun : Bool} {b : Byte} {s : State}
    (hs : s.sound) : (headerByte got overrun b s).sound := by
  unfold headerByte
  dsimp only
  repeat' (first | with_reducible (first | exact hs | apply countLink_sound | apply judgeHeader_sound
                                         | apply setReceiver_sound | apply ite_sound))

theorem payloadByte_sound {h got : List Byte} {b : Byte} {s : State}
    (hs : s.sound) : (payloadByte h got b s).sound := by
  unfold payloadByte
  dsimp only
  repeat' (first | with_reducible (first | exact hs | apply countLink_sound | apply setReceiver_sound
                                         | apply judgePayload_sound | apply ite_sound))

theorem receiveByte_sound {b : Byte} {s : State} (hs : s.sound) : (receiveByte b s).sound := by
  unfold receiveByte
  dsimp only
  repeat' (first | with_reducible (first | exact hs | apply onMp_sound | apply startHeader_sound
                                         | apply headerByte_sound | apply payloadByte_sound
                                         | apply setReceiver_sound | apply ite_sound)
                 | split | exact Nat.le_refl _ | rfl)

theorem receive_sound {bytes : List Byte} {s : State} (hs : s.sound) : (receive bytes s).sound := by
  unfold receive
  repeat' (first | with_reducible (first | exact hs | apply receiveByte_sound)
                 | refine forEach_sound (fun a s hs => ?_) ?_)

theorem replyFree_lt {s : State} (h : s.replyFree = true) :
    replyCount s.mp.outbound + s.mp.openTags.length + 1 ≤ Config.maxReplies := by
  unfold State.replyFree at h
  exact of_decide_eq_true h

theorem refuseFrame_sound {f : Frame} {r : Result} {s : State} (h : s.sound) (hf : s.replyFree = true) :
    (refuseFrame f r s).sound := by
  have hr := replyFree_lt hf
  obtain ⟨⟨h1, h2, h3, h4, h5⟩, hp⟩ := h
  refine ⟨⟨?_, h2, h3, ?_, h5⟩, hp⟩
  · show noticeCount (s.mp.outbound ++ [_]) ≤ _
    rw [noticeCount_append]
    exact h1
  · show replyCount (s.mp.outbound ++ [_]) + s.mp.openTags.length ≤ _
    rw [replyCount_append]
    simp only [OutFrame.isReply, if_true]
    omega

theorem acceptFrame_sound {f : Frame} {s : State} (h : s.sound) (hc : s.acceptCheck f = none) (hf : s.replyFree = true) :
    (acceptFrame f s).sound := by
  unfold acceptFrame
  split
  · exact h
  · next k hk =>
    have hplace := replyFree_lt hf
    obtain ⟨⟨h1, h2, h3, h4, h5⟩, hp⟩ := h
    have hopen : f.tag ∉ s.mp.openTags := by
      unfold State.acceptCheck at hc
      split at hc
      · simp at hc
      · split at hc
        · simp at hc
        · next ho => simpa using ho
    have hr : s.mp.requests.length < Config.maxRequests := by
      unfold State.acceptCheck at hc
      rw [hk] at hc
      repeat' split at hc
      all_goals first | assumption | simp at hc
    refine ⟨⟨h1, ?_, ?_, ?_, fun q hq => ?_⟩, hp⟩
    · simpa [countLink] using Nat.succ_le_of_lt hr
    · show (s.mp.openTags ++ [f.tag]).Nodup
      rw [List.nodup_append]
      refine ⟨h3, by simp, fun a ha b hb => ?_⟩
      rw [List.mem_singleton] at hb
      exact fun hab => hopen (hb ▸ hab ▸ ha)
    · show replyCount s.mp.outbound + (s.mp.openTags ++ [f.tag]).length ≤ _
      rw [List.length_append, List.length_singleton]
      omega
    · show q.tag ∈ s.mp.openTags ++ [f.tag]
      rcases List.mem_append.mp hq with hq | hq
      · exact List.mem_append_left _ (h5 q hq)
      · exact List.mem_append_right _ (by rw [List.mem_singleton.mp hq]; exact List.mem_singleton_self _)

theorem judgeFrame_sound {f : Frame} {s : State} (h : s.sound) (hf : s.replyFree = true) : (judgeFrame f s).sound := by
  unfold judgeFrame
  split
  · exact refuseFrame_sound h hf
  · next hc => exact acceptFrame_sound h hc hf

theorem countSent_sound {f : OutFrame} {s : State} (hs : s.sound) : (countSent f s).sound := by
  unfold countSent
  repeat' (first | with_reducible (first | exact hs | apply countLink_sound | apply ite_sound))

theorem serveRequest_sound {k : ReqKind} {r : Request} {f : List Byte → State → State} {s : State}
    (hf : ∀ p s, s.sound → (f p s).sound) (h : s.sound) : (serveRequest k r f s).sound := by
  unfold serveRequest
  split
  · exact refuse_sound h
  · exact hf _ _ h

/-! ## Requests -/

theorem serveInquire_sound {tag : ReqTag} {_p : List Byte} {s : State}
    (hs : s.sound) : (serveInquire tag _p s).sound := by
  unfold serveInquire
  repeat' (first | with_reducible (first | exact hs | apply answer_sound))

theorem serveStatus_sound {tag : ReqTag} {p : List Byte} {s : State}
    (hs : s.sound) : (serveStatus tag p s).sound := by
  unfold serveStatus
  repeat' (first | with_reducible (first | exact hs | apply answer_sound | apply onMp_sound | apply refuse_sound
                                         | apply ite_sound)
                 | split | exact Nat.le_refl _ | rfl)

theorem answerFound_sound {tag : ReqTag} {body : Option ReplyBody} {s : State}
    (hs : s.sound) : (answerFound tag body s).sound := by
  unfold answerFound
  repeat' (first | with_reducible (first | exact hs | apply answer_sound | apply refuse_sound) | split)

theorem answerInRange_sound {tag : ReqTag} {inRange : Bool} {body : ReplyBody} {s : State}
    (hs : s.sound) : (answerInRange tag inRange body s).sound := by
  unfold answerInRange
  repeat' (first | with_reducible (first | exact hs | apply answer_sound | apply refuse_sound | apply ite_sound))

theorem serveTableRead_sound {tag : ReqTag} {p : List Byte} {s : State}
    (hs : s.sound) : (serveTableRead tag p s).sound := by
  unfold serveTableRead
  dsimp only
  repeat' (first | with_reducible (first | exact hs | apply refuse_sound | apply answerInRange_sound
                                         | apply answerFound_sound | apply ite_sound)
                 | split)

theorem setPmParam_sound {tag : ReqTag} {q : Param} {v : Nat} {s : State}
    (hs : s.sound) : (setPmParam tag q v s).sound := by
  unfold setPmParam
  repeat' (first | with_reducible (first | exact hs | apply refuse_sound | apply pmWork_sound
                                         | apply setBusy_sound | apply markTaken_sound | apply ite_sound))

theorem setOwnParam_sound {tag : ReqTag} {q : Param} {v : Nat} {s : State}
    (hs : s.sound) : (setOwnParam tag q v s).sound := by
  unfold setOwnParam
  repeat' (first | with_reducible (first | exact hs | apply refuse_sound | apply queueWork_sound
                                         | apply markTaken_sound | apply ite_sound))

theorem serveSetParam_sound {tag : ReqTag} {p : List Byte} {s : State}
    (hs : s.sound) : (serveSetParam tag p s).sound := by
  unfold serveSetParam
  dsimp only
  repeat' (first | with_reducible (first | exact hs | apply refuse_sound | apply setPmParam_sound
                                         | apply setOwnParam_sound | apply ite_sound)
                 | split)

theorem serveNoticeMask_sound {tag : ReqTag} {p : List Byte} {s : State}
    (hs : s.sound) : (serveNoticeMask tag p s).sound := by
  unfold serveNoticeMask
  repeat' (first | with_reducible (first | exact hs | apply answer_sound | apply onMp_sound) | exact Nat.le_refl _
                 | rfl)

theorem serveFaultRead_sound {tag : ReqTag} {_p : List Byte} {s : State}
    (hs : s.sound) : (serveFaultRead tag _p s).sound := by
  unfold serveFaultRead
  repeat' (first | with_reducible (first | exact hs | apply answer_sound))

theorem serveFaultClear_sound {tag : ReqTag} {_p : List Byte} {s : State}
    (hs : s.sound) : (serveFaultClear tag _p s).sound := by
  unfold serveFaultClear
  repeat' (first | with_reducible (first | exact hs | apply answer_sound | apply onMp_sound) | exact Nat.le_refl _
                 | rfl)

theorem serveReset_sound {tag : ReqTag} {_p : List Byte} {s : State}
    (hs : s.sound) : (serveReset tag _p s).sound := by
  unfold serveReset
  repeat' (first | with_reducible (first | exact hs | apply onMp_sound | apply answer_sound)
                 | with_reducible apply with_draining_sound | exact Nat.le_refl _ | rfl)

/-! ## Configure -/

theorem configure_sound {tag : ReqTag} {f : State → State} {s : State} (hf : ∀ s, s.sound → (f s).sound) (h : s.sound) :
    (configure tag f s).sound := by
  unfold configure
  split
  · exact refuse_sound h
  · exact hf _ h

theorem beginJoin_sound {tag : ReqTag} {id : Nat} {s : State} (hs : s.sound) : (beginJoin tag id s).sound := by
  unfold beginJoin
  dsimp only
  repeat' (first | with_reducible (first | exact hs | apply setBusy_sound | apply markTaken_sound
                                         | apply changeMember_sound | apply pmWork_sound))

theorem serveAdmit_sound {tag : ReqTag} {p : List Byte} {s : State} (hs : s.sound) : (serveAdmit tag p s).sound := by
  unfold serveAdmit
  dsimp only
  repeat' (first | with_reducible (first | exact hs | apply refuse_sound | apply beginJoin_sound | apply ite_sound)
                 | refine configure_sound (fun s hs => ?_) ?_)

theorem beginRelease_sound {tag : ReqTag} {id : Nat} {s : State} (hs : s.sound) : (beginRelease tag id s).sound := by
  unfold beginRelease
  dsimp only
  repeat' (first | with_reducible (first | exact hs | apply setBusy_sound | apply markTaken_sound
                                         | apply changeMember_sound | apply setErrorRun_sound | apply pmWork_sound)
                 | exact Nat.zero_le _)

theorem serveReleaseMember_sound {tag : ReqTag} {p : List Byte} {s : State}
    (hs : s.sound) : (serveReleaseMember tag p s).sound := by
  unfold serveReleaseMember
  dsimp only
  repeat' (first | with_reducible (first | exact hs | apply beginRelease_sound | apply refuse_sound
                                         | apply ite_sound)
                 | refine configure_sound (fun s hs => ?_) ?_)

theorem serveFailMember_sound {tag : ReqTag} {p : List Byte} {s : State} (h : s.sound) :
    (serveFailMember tag p s).sound := by
  unfold serveFailMember
  refine configure_sound (fun s hs => ?_) h
  exact ite_sound (failMember_sound (setBusy_sound (markTaken_sound hs))) (refuse_sound hs)

theorem beginDefine_sound {tag : ReqTag} {f : DefineFields} {s : State}
    (hs : s.sound) : (beginDefine tag f s).sound := by
  unfold beginDefine
  dsimp only
  repeat' (first | with_reducible (first | exact hs | apply setBusy_sound | apply markTaken_sound
                                         | apply setSet_sound | apply pmWork_sound))

theorem serveDefineSet_sound {tag : ReqTag} {p : List Byte} {s : State}
    (hs : s.sound) : (serveDefineSet tag p s).sound := by
  unfold serveDefineSet
  repeat' (first | with_reducible (first | exact hs | apply refuse_sound | apply beginDefine_sound)
                 | refine configure_sound (fun s hs => ?_) ?_ | split)

theorem serveRetireSet_sound {tag : ReqTag} {p : List Byte} {s : State}
    (hs : s.sound) : (serveRetireSet tag p s).sound := by
  unfold serveRetireSet
  dsimp only
  repeat' (first | with_reducible (first | exact hs | apply refuse_sound | apply setBusy_sound
                                         | apply markTaken_sound | apply pmWork_sound | apply setSet_sound
                                         | apply ite_sound)
                 | refine configure_sound (fun s hs => ?_) ?_)

theorem beginCreate_sound {tag : ReqTag} {v limit : Nat} {pool : BitVec 64} {s : State}
    (hs : s.sound) : (beginCreate tag v limit pool s).sound := by
  unfold beginCreate
  dsimp only
  repeat' (first | with_reducible (first | exact hs | apply setBusy_sound | apply markTaken_sound
                                         | apply pmWork_sound | apply setVolume_sound))

theorem serveCreateVolume_sound {tag : ReqTag} {p : List Byte} {s : State}
    (hs : s.sound) : (serveCreateVolume tag p s).sound := by
  unfold serveCreateVolume
  dsimp only
  repeat' (first | with_reducible (first | exact hs | apply refuse_sound | apply beginCreate_sound
                                         | apply ite_sound)
                 | refine configure_sound (fun s hs => ?_) ?_)

theorem beginGrow_sound {tag : ReqTag} {v new : Nat} {pool oldPool : BitVec 64} {homes : List Placement} {s : State}
    (hs : s.sound) : (beginGrow tag v new pool oldPool homes s).sound := by
  unfold beginGrow
  dsimp only
  repeat' (first | with_reducible (first | exact hs | apply setBusy_sound | apply markTaken_sound
                                         | apply setVolume_sound | apply pmWork_sound)
                 | refine forEach_sound (fun a s hs => ?_) ?_)

theorem growHomes_sound {pool : BitVec 64} {gs : List Nat} {s t : State} {homes : List Placement} (h : s.sound)
    (he : growHomes pool gs s = some (homes, t)) : t.sound := by
  induction gs generalizing s t homes with
  | nil =>
    simp only [growHomes, Option.some.injEq, Prod.mk.injEq] at he
    exact he.2 ▸ h
  | cons g rest ih =>
    unfold growHomes at he
    split at he
    · simp at he
    · split at he
      · simp at he
      · next h2 =>
        simp only [Option.some.injEq, Prod.mk.injEq] at he
        exact he.2 ▸ ih (takeSlot_sound h) h2

theorem serveGrow_sound {tag : ReqTag} {p : List Byte} {s : State} (h : s.sound) : (serveGrow tag p s).sound := by
  unfold serveGrow
  refine configure_sound (fun s hs => ?_) h
  dsimp only
  refine ite_sound (refuse_sound hs) (ite_sound (refuse_sound hs) (ite_sound (refuse_sound hs)
    (ite_sound (refuse_sound hs) ?_)))
  split
  · exact refuse_sound hs
  · next he => exact beginGrow_sound (growHomes_sound hs he)

/-! ## MapRequests -/

theorem refuseMap_sound {tag : ReqTag} {r : Result} {s : State} (hs : s.sound) : (refuseMap tag r s).sound := by
  unfold refuseMap
  repeat' (first | with_reducible (first | exact hs | apply countGrant_sound | apply refuse_sound))

theorem placeMap_sound {a : MapAsk} {s : State} (hs : s.sound) : (placeMap a s).sound := by
  unfold placeMap
  repeat' (first | with_reducible (first | exact hs | apply deferMap_sound | apply grantPlaced_sound) | split)

theorem serveMap_sound {tag : ReqTag} {p : List Byte} {s : State} (hs : s.sound) : (serveMap tag p s).sound := by
  unfold serveMap
  dsimp only
  repeat' (first | with_reducible (first | exact hs | apply refuseMap_sound | apply placeMap_sound) | split)

theorem countEnd_sound {done : Bool} {result : Result} {s : State}
    (hs : s.sound) : (countEnd done result s).sound := by
  unfold countEnd
  repeat' (first | with_reducible (first | exact hs | apply countGrant_sound | apply ite_sound))

theorem passMembers_sound {members : List Nat} {s : State} (hs : s.sound) : (passMembers members s).sound := by
  unfold passMembers
  repeat' (first | with_reducible (first | exact hs | apply memberCause_sound | apply post_sound)
                 | refine forEach_sound (fun a s hs => ?_) ?_)

theorem askTargetWrite_sound {e : Hold} {members : List Nat} {s : State}
    (hs : s.sound) : (askTargetWrite e members s).sound := by
  unfold askTargetWrite
  repeat' (first | with_reducible (first | exact hs | apply targetWrite_sound | apply post_sound) | split)

theorem endHold_sound {tag : ReqTag} {f : UnholdFields} {s : State} (hs : s.sound) : (endHold tag f s).sound := by
  unfold endHold
  dsimp only
  repeat' (first | with_reducible (first | exact hs | apply countGrant_sound | apply passMembers_sound
                                         | apply refuse_sound | apply reportEnd_sound | apply freeHold_sound
                                         | apply countEnd_sound | apply answer_sound | apply askTargetWrite_sound
                                         | apply ite_sound))

theorem serveUnhold_sound {tag : ReqTag} {p : List Byte} {s : State}
    (hs : s.sound) : (serveUnhold tag p s).sound := by
  unfold serveUnhold
  dsimp only
  repeat' (first | with_reducible (first | exact hs | apply endHold_sound | apply refuse_sound | apply ite_sound))

theorem expireHold_sound {h : Nat} {e : Hold} {s : State} (hs : s.sound) : (expireHold h e s).sound := by
  unfold expireHold
  dsimp only
  repeat' (first | with_reducible (first | exact hs | apply setHold_sound | apply countGrant_sound
                                         | apply reportEnd_sound | apply offerNotice_sound))

theorem timeOutDeferred_sound {tag : ReqTag} {s : State} (hs : s.sound) : (timeOutDeferred tag s).sound := by
  unfold timeOutDeferred
  repeat' (first | with_reducible (first | exact hs | apply countGrant_sound | apply dropDeferred_sound
                                         | apply refuse_sound))

/-! ## JobRequests -/

theorem admitMoves_sound {ids : List Nat} {salvage : Bool} {gs : List Nat} {jobs leftOut : Nat} {s : State}
    (h : s.sound) : (admitMoves ids salvage gs jobs leftOut s).2.2.sound := by
  induction gs generalizing jobs leftOut s with
  | nil => exact h
  | cons g rest ih =>
    unfold admitMoves
    repeat' (first | with_reducible apply ih | with_reducible apply admitJob_sound | exact h | split)

theorem serveRebalance_sound {tag : ReqTag} {p : List Byte} {s : State} (h : s.sound) :
    (serveRebalance tag p s).sound := by
  unfold serveRebalance
  exact ite_sound (refuse_sound h) (ite_sound (refuse_sound h) (answer_sound (admitMoves_sound h)))

theorem serveMove_sound {tag : ReqTag} {p : List Byte} {s : State} (hs : s.sound) : (serveMove tag p s).sound := by
  unfold serveMove
  dsimp only
  repeat' (first | with_reducible (first | exact hs | apply refuse_sound | apply admitJob_sound
                                         | apply answer_sound)
                 | split)

theorem cancelWaiting_sound {tag : ReqTag} {j : Job} {s : State} (hs : s.sound) : (cancelWaiting tag j s).sound := by
  unfold cancelWaiting
  dsimp only
  repeat' (first | with_reducible (first | exact hs | apply onMe_sound | apply setMark_sound | apply answer_sound
                                         | apply refuse_sound | apply markJob_sound | apply ite_sound)
                 | rfl)

theorem cancelInLane_sound {tag : ReqTag} {n : Nat} {s : State} (hs : s.sound) : (cancelInLane tag n s).sound := by
  unfold cancelInLane
  repeat' (first | with_reducible (first | exact hs | apply takeCause_sound | apply answer_sound
                                         | apply refuse_sound | apply ite_sound))

theorem cancelSlab_sound {tag : ReqTag} {g : Nat} {s : State} (hs : s.sound) : (cancelSlab tag g s).sound := by
  unfold cancelSlab
  repeat' (first | with_reducible (first | exact hs | apply refuse_sound | apply cancelWaiting_sound
                                         | apply cancelInLane_sound | apply ite_sound)
                 | split)

theorem serveCancelJob_sound {tag : ReqTag} {p : List Byte} {s : State}
    (hs : s.sound) : (serveCancelJob tag p s).sound := by
  unfold serveCancelJob
  dsimp only
  repeat' (first | with_reducible (first | exact hs | apply refuse_sound | apply cancelSlab_sound
                                         | apply ite_sound))

theorem servePauseJobs_sound {tag : ReqTag} {_p : List Byte} {s : State}
    (hs : s.sound) : (servePauseJobs tag _p s).sound := by
  unfold servePauseJobs
  dsimp only
  repeat' (first | with_reducible (first | exact hs | apply onMe_sound | apply pauseLane_sound
                                         | apply answer_sound)
                 | refine forEach_sound (fun a s hs => ?_) ?_
                 | rfl)

theorem serveResumeJobs_sound {tag : ReqTag} {_p : List Byte} {s : State}
    (hs : s.sound) : (serveResumeJobs tag _p s).sound := by
  unfold serveResumeJobs
  dsimp only
  repeat' (first | with_reducible (first | exact hs | apply onMe_sound | apply resumeLane_sound
                                         | apply answer_sound)
                 | refine forEach_sound (fun a s hs => ?_) ?_
                 | rfl)

theorem serveDamageRead_sound {tag : ReqTag} {p : List Byte} {s : State}
    (hs : s.sound) : (serveDamageRead tag p s).sound := by
  unfold serveDamageRead
  dsimp only
  repeat' (first | with_reducible (first | exact hs | apply refuse_sound | apply answer_sound | apply ite_sound))

theorem serveDamageClear_sound {tag : ReqTag} {p : List Byte} {s : State}
    (hs : s.sound) : (serveDamageClear tag p s).sound := by
  unfold serveDamageClear
  dsimp only
  repeat' (first | with_reducible (first | exact hs | apply refuse_sound | apply answer_sound
                                         | apply queueWork_sound | apply markTaken_sound | apply ite_sound))

theorem beginWindow_sound {start : Nat} {s : State} (hs : s.sound) : (beginWindow start s).sound := by
  unfold beginWindow
  repeat' (first | with_reducible (first | exact hs | apply serveTokens_sound | apply onMe_sound)
                 | rfl)

/-! ## Fabric -/

theorem markReceived_sound {e block : Nat} {s : State} (hs : s.sound) : (markReceived e block s).sound := by
  unfold markReceived
  dsimp only
  repeat' (first | with_reducible (first | exact hs | apply setRing_sound))

theorem compareTag_sound {e : Nat} {c : Cmd} {block : Nat} {blockTag : TagBits} {s : State}
    (hs : s.sound) : (compareTag e c block blockTag s).sound := by
  unfold compareTag
  repeat' (first | with_reducible (first | exact hs | apply setRing_sound | apply ite_sound))

theorem retryFlush_sound {tries : Nat} {s : State} (hs : s.sound) : (retryFlush tries s).sound := by
  unfold retryFlush
  repeat' (first | with_reducible (first | exact hs | apply onDp_sound | apply send_sound | apply flushDone_sound
                                         | apply offerFault_sound | apply ite_sound)
                 | split | rfl)

theorem timeOutEntry_sound {e : Nat} {s : State} (hs : s.sound) : (timeOutEntry e s).sound := by
  unfold timeOutEntry
  dsimp only
  repeat' (first | with_reducible (first | exact hs | apply onDp_sound | apply serveCommands_sound
                                         | apply completeEntry_sound | apply send_sound)
                 | rfl)

/-! ## Bus -/

theorem countShelf_sound {f : ShelfCounters → ShelfCounters} {s : State} (hs : s.sound) : (countShelf f s).sound := by
  unfold countShelf
  repeat' (first | with_reducible (first | exact hs | apply onSm_sound))

theorem offerBayChange_sound {id : Nat} {old new : Bay} {s : State}
    (hs : s.sound) : (offerBayChange id old new s).sound := by
  unfold offerBayChange
  repeat' (first | with_reducible (first | exact hs | apply countShelf_sound | apply offerNotice_sound))

theorem reportBay_sound {id : Nat} {old new : Bay} {s : State} (hs : s.sound) : (reportBay id old new s).sound := by
  unfold reportBay
  dsimp only
  repeat' (first | with_reducible (first | exact hs | apply driveGone_sound | apply driveAppeared_sound
                                         | apply post_sound | apply ite_sound))

theorem compareBay_sound {address : Nat} {held new : List Bay} {i : Nat} {s : State}
    (hs : s.sound) : (compareBay address held new i s).sound := by
  unfold compareBay
  dsimp only
  repeat' (first | with_reducible (first | exact hs | apply offerBayChange_sound | apply reportBay_sound
                                         | apply ite_sound))

theorem takeAnswer_sound {address : Nat} {a : ShelfAnswer} {s : State}
    (hs : s.sound) : (takeAnswer address a s).sound := by
  unfold takeAnswer
  dsimp only
  repeat' (first | with_reducible (first | exact hs | apply setShelf_sound | apply offerNotice_sound
                                         | apply compareBay_sound | apply ite_sound)
                 | refine forEach_sound (fun a s hs => ?_) ?_)

theorem loseBay_sound {address : Nat} {held : List Bay} {i : Nat} {s : State}
    (hs : s.sound) : (loseBay address held i s).sound := by
  unfold loseBay
  dsimp only
  repeat' (first | with_reducible (first | exact hs | apply driveGone_sound | apply offerBayChange_sound
                                         | apply post_sound | apply ite_sound))

theorem loseShelf_sound {address : Nat} {s : State} (hs : s.sound) : (loseShelf address s).sound := by
  unfold loseShelf
  dsimp only
  repeat' (first | with_reducible (first | exact hs | apply setShelf_sound | apply countShelf_sound
                                         | apply offerNotice_sound | apply loseBay_sound)
                 | refine forEach_sound (fun a s hs => ?_) ?_)

theorem takeMiss_sound {address : Nat} {s : State} (hs : s.sound) : (takeMiss address s).sound := by
  unfold takeMiss
  dsimp only
  repeat' (first | with_reducible (first | exact hs | apply loseShelf_sound | apply setShelf_sound
                                         | apply ite_sound)
                 | split)

theorem takeJudgement_sound {address : Nat} {j : PollJudgement} {s : State}
    (hs : s.sound) : (takeJudgement address j s).sound := by
  unfold takeJudgement
  repeat' (first | with_reducible (first | exact hs | apply takeAnswer_sound | apply takeMiss_sound
                                         | apply countShelf_sound)
                 | split)

theorem nextPoll_sound {address : Nat} {s : State} (hs : s.sound) : (nextPoll address s).sound := by
  unfold nextPoll
  repeat' (first | with_reducible (first | exact hs | apply beginPoll_sound | apply onSm_sound | apply ite_sound))

theorem endPoll_sound {address : Nat} {j : PollJudgement} {s : State}
    (hs : s.sound) : (endPoll address j s).sound := by
  unfold endPoll
  repeat' (first | with_reducible (first | exact hs | apply nextPoll_sound | apply takeJudgement_sound))

/-! ## Store -/

theorem storeGoesOn_sound {s : State} (h : s.sound) : (storeGoesOn s).sound := by
  unfold storeGoesOn
  cases s.jc.format with
  | none => exact ite_sound (kickStore_sound h) (moveSpentHead_sound h)
  | some f => exact ite_sound (failFormat_sound (with_agenda_sound h)) (kickStore_sound h)

theorem programEnded_sound {success : Bool} {block page : Nat} {r : Record} {s : State}
    (hs : s.sound) : (programEnded success block page r s).sound := by
  unfold programEnded
  repeat' (first | with_reducible (first | exact hs | apply onJc_sound | apply storeGoesOn_sound
                                         | apply programFailed_sound | apply ite_sound)
                 | split | exact Nat.le_refl _)

theorem readBackEnded_sound {bytes : List Byte} {block page : Nat} {r : Record} {s : State}
    (hs : s.sound) : (readBackEnded bytes block page r s).sound := by
  unfold readBackEnded
  repeat' (first | with_reducible (first | exact hs | apply recordIsDurable_sound | apply storeGoesOn_sound
                                         | apply programFailed_sound | apply ite_sound))

theorem formatEraseFailed_sound {kind : FaultKind} {block : Nat} {s : State}
    (hs : s.sound) : (formatEraseFailed kind block s).sound := by
  unfold formatEraseFailed
  dsimp only
  repeat' (first | with_reducible (first | exact hs | apply offerFault_sound | apply markBad_sound
                                         | apply onJc_sound)
                 | exact Nat.le_refl _)

theorem eraseLost_sound {kind : FaultKind} {block : Nat} {s : State}
    (hs : s.sound) : (eraseLost kind block s).sound := by
  unfold eraseLost
  repeat' (first | with_reducible (first | exact hs | apply formatErased_sound | apply formatEraseFailed_sound
                                         | apply storeGoesOn_sound | apply eraseFailed_sound)
                 | split)

theorem eraseDone_sound {block : Nat} {s : State} (hs : s.sound) : (eraseDone block s).sound := by
  unfold eraseDone
  repeat' (first | with_reducible (first | exact hs | apply formatErased_sound | apply eraseSucceeded_sound
                                         | apply kickStore_sound)
                 | split)

theorem storeTimeOut_sound {op : StoreOp} {s : State} (hs : s.sound) : (storeTimeOut op s).sound := by
  unfold storeTimeOut
  repeat' (first | with_reducible (first | exact hs | apply scanFailed_sound | apply storeGoesOn_sound
                                         | apply programFailed_sound | apply eraseLost_sound)
                 | split)

/-! ## Service -/

theorem checkLabels_sound {s : State} (hs : s.sound) : (checkLabels s).sound := by
  unfold checkLabels
  repeat' (first | with_reducible (first | exact hs | apply checkMember_sound)
                 | refine forEach_sound (fun a s hs => ?_) ?_ | with_reducible apply with_stage_sound)

/-! ## The conclusion of a command -/

theorem closeStep_sound {s t : State} (hs : s.sound) (ht : t.sound) : (closeStep s t).sound := by
  obtain ⟨h1, ⟨h2, h3, h4, h5, -⟩, h7⟩ := ht
  exact ⟨h1, ⟨h2, h3, h4, h5, hs.2.1.2.2.2.2⟩, h7⟩

theorem finish_sound {s t : State} (hs : s.sound) (ht : t.sound) : (finish s t).sound := by
  unfold finish offerIdle
  exact closeStep_sound hs (ite_sound (offerNotice_sound (settle_sound ht)) (settle_sound ht))

theorem finishReset_sound {s t : State} (ht : t.sound) : (finishReset s t).sound := by
  obtain ⟨h1, ⟨h2, h3, h4, h5, -⟩, h7⟩ := settle_sound (n := settleBound) ht
  exact ⟨h1, ⟨h2, h3, h4, h5, show (1#16 : BitVec 16) ≠ 0 by decide⟩, h7⟩

/-- A command that names a request keeps the limits where serving its payload does. -/
theorem takeRequest_sound {k : ReqKind} {tag : ReqTag} {f : List Byte → State → State} {s t : State}
    (hf : ∀ p s, s.sound → (f p s).sound) (hs : s.sound) (h : takeRequest k tag f s = .next t) : t.sound := by
  unfold takeRequest at h
  split at h
  · cases h
    exact hs
  · cases h
    exact finish_sound hs (serveRequest_sound hf hs)

end Sys2Proof.Machine
end

