-- ==== Sys2Proof/Tests/Slice0.lean ====
section
/-! SUPPORT. Small tests: ill-formed commands are refused by the check, the spec's worked examples, and for each statement a
state and operands that meet its hypotheses, with what the command then does. -/

set_option Elab.async false

namespace Sys2Proof.Tests

open Sys2Proof Sys2Proof.Machine

/-! ## Helpers -/

/-- What a command answers passes a test. -/
def answers (a : Answer) (p : State → Bool) : Bool :=
  match a with
  | .next t => p t
  | .fault _ => false
  | .refused _ => false

/-- What a command answers is one state. -/
def gives (a : Answer) (u : State) : Bool := answers a (fun t => decide (t = u))

def erasedBlocks : List (Nat × StoreBlock) := (List.range 63).map (fun i => (i + 1, ⟨.erased, 0⟩))

def smallBay : Bay := ⟨true, true, true, 5000000⟩

def smallShelf : Shelf :=
  { state := .up, misses := 0, faulted := false, bays := List.replicate 8 smallBay ++ List.replicate 8 Bay.cleared,
    lastGood := some 0 }

def smallSet (state : SetState) (freeCount : Nat) (members : List Nat) : SetEntry :=
  { state := state, width := 3, unit := 16, bandLength := 524288, positions := members.map (fun m => ⟨m, 2048⟩),
    rows := 8192, slots := 4, freeCount := freeCount, failedCount := 0, retiring := false }

def smallMember (state : MemberState) (bands : List Band) : Member := ⟨state, 5000000, true, bands, some 1⟩

def smallSlab (home : Place) : Slab := ⟨.live, 1, home, none, 0, 0, false, false⟩

/-- A part in service: SLAB_SIZE 1 GiB, volume 1 with slabs 0 and 1 LIVE on slots 0 and 1 of set 0, set 1 with four FREE
slots, members 0 to 5 ACTIVE, 6 AVAILABLE, 7 PRESENT. -/
def small : State :=
  { State.reset with
    clock := ⟨5000000, 1⟩, part := .ready, stage := .service,
    pm := { PlacementMap.reset with
      slabSize := 1, arrayId := 7,
      members := [(0, smallMember .active [⟨0, 2048⟩]), (1, smallMember .active [⟨0, 2048⟩]),
        (2, smallMember .active [⟨0, 2048⟩]), (3, smallMember .active [⟨1, 2048⟩]), (4, smallMember .active [⟨1, 2048⟩]),
        (5, smallMember .active [⟨1, 2048⟩]), (6, smallMember .available []), (7, ⟨.present, 5000000, true, [], none⟩)],
      sets := [(0, smallSet .online 2 [0, 1, 2]), (1, smallSet .online 4 [3, 4, 5])],
      slots := [(0, ⟨.home, 0, some 0, none⟩), (1, ⟨.home, 0, some 1, none⟩)],
      volumes := [(1, ⟨.online, 0, 8, 2, 2, 3⟩)],
      slabs := [(0, smallSlab ⟨0, 0⟩), (1, smallSlab ⟨0, 1⟩)] },
    me := { MoveEngine.reset with windowStart := some 4950000 },
    dp := { DrivePort.reset with flush := .answered },
    sm := { ShelfMonitor.reset with shelves := [(0, smallShelf)], roundStart := some 4700000 },
    jc := { Journal.reset 0 with
      state := .writing, op := none, blocks := (0, ⟨.head, 0⟩) :: erasedBlocks, head := some 0, nextPage := 2,
      nextSeq := 3, newestImage := some (1, 0) } }

/-- The state with a request queued. -/
def asked (k : ReqKind) (tag : ReqTag) (payload : List Byte) (s : State) : State :=
  { s with mp := { s.mp with requests := s.mp.requests ++ [⟨tag, k, payload, false⟩],
                             openTags := s.mp.openTags ++ [tag] } }

/-- The state in which the part is FROZEN. -/
def frozen (s : State) : State :=
  { s with part := .frozen, jc := { s.jc with state := .frozen, cause := some .fewBlocks, admission := false } }

/-- The last frame of the outbound queue is a reply with a result. -/
def lastReply (tag : ReqTag) (r : Result) (t : State) : Bool :=
  match t.mp.outbound.getLast? with
  | some (.reply tag' _ r' _) => decide (tag' = tag) && decide (r' = r)
  | _ => false

/-- A request of the small part is answered with a result alone. -/
def refusedWith (c : Instr) (k : ReqKind) (payload : List Byte) (r : Result) (s : State) : Bool :=
  gives (exec c (asked k 1 payload s)) ((asked k 1 payload s).answer 1 r .empty)

/-! ## Ill-formed commands are refused by the check -/

theorem test_wf_link : (Instr.inboundFrame []).wf = false ∧ (Instr.inboundHeader []).wf = false
    ∧ (Instr.inboundHeader [0xC3]).wf = true := by decide

theorem test_wf_fabric : (Instr.readData 128 0 0 0 0).wf = false ∧ (Instr.readData 0 256 0 0 0).wf = false
    ∧ (Instr.readData 0 0 64 0 0).wf = false ∧ (Instr.pull 128 0 0).wf = false ∧ (Instr.pull 0 0 64).wf = false
    ∧ (Instr.tags 0 256 0 0).wf = false ∧ (Instr.tags 0 0 64 0).wf = false ∧ (Instr.endMessage 0 256 .good).wf = false
    ∧ (Instr.endMessage 0 0 (.media (2 ^ 48))).wf = false ∧ (Instr.commandTimeout 128).wf = false := by decide

theorem test_wf_store : (Instr.readBackEnd []).wf = false
    ∧ (Instr.journalScan [(16384, List.replicate 256 0)]).wf = false ∧ (Instr.journalScan [(0, [])]).wf = false
    ∧ (Instr.journalScan [(1, List.replicate 256 0), (1, List.replicate 256 0)]).wf = false := by decide

theorem test_wf_others : (Instr.statePollEnd (.bytes (List.replicate 115 0))).wf = false
    ∧ (Instr.holdExpiry 512).wf = false ∧ (Instr.quarantineEnd 512).wf = false ∧ (Instr.laneClaim 4).wf = false
    ∧ (Instr.backoffEnd 4).wf = false := by decide

/-! ## The spec's worked examples -/

/-- Set 5 of the example of Chapter I. -/
def exampleSet : SetEntry :=
  { state := .online, width := 8, unit := 32, bandLength := 1498240,
    positions := (List.range 8).map (fun m => ⟨16 + m, 4096⟩), rows := 4682, slots := 10, freeCount := 10, failedCount := 0,
    retiring := false }

/-- The example of Chapter I, Section G: the geometry, two blocks and their parity, and the last row. -/
theorem test_geometry_example :
    rowsPerSlot (slabBlocks 4) 8 32 = 4682 ∧ slotCount (slabBlocks 4) 8 32 1498240 = 10 ∧ rowPages exampleSet = 16
      ∧ memberBlock exampleSet 3 500000 = (17, 524992) ∧ memberBlock exampleSet 3 500810 = (22, 525098)
      ∧ unitBlocks exampleSet 3 2232 (parityPosition 8 2232) = (23, 524992)
      ∧ unitBlocks exampleSet 3 2235 (parityPosition 8 2235) = (20, 525088)
      ∧ parityPosition 8 4681 = 6 ∧ unitAt 8 4681 7 = some 6 ∧ unitBlocks exampleSet 3 4681 0 = (16, 603360) := by decide

/-- The tags of that example (R23, spec/12 section D). -/
theorem test_tag_example :
    dataTagPlace (slabBlocks 4) 1 2 4682 500000 = ⟨.data, 1, 2597152⟩
      ∧ dataTagPlace (slabBlocks 4) 1 2 4682 1048576 = ⟨.pad, 1, 4681⟩
      ∧ (tagBits 0 (parityTagPlace 5 2232)).extractLsb' 0 48 = 0x1005000008B8#48 := by decide

/-- The header check of spec/12 section B. -/
theorem test_header_check : complementSum [0x00, 0x0C, 0x01, 0x02, 0x09] = 0xE7 := by decide

/-- The guard (R24) of 4096 zero bytes, and the check value of the CRC-32 of R147 over the digits 1 to 9. -/
theorem test_checks :
    crc32 [0x31, 0x32, 0x33, 0x34, 0x35, 0x36, 0x37, 0x38, 0x39] = 0xCBF43926
      ∧ guardLoop 0x313233343536373839 72 0xFFFF = 0x29B1 := by decide +kernel

/-- The merge of the worked sequence of Chapter VI, and a removal that splits an entry. -/
theorem test_damage_example :
    damageAdd ⟨1, 2791840, 32, .sourceLost⟩ [⟨1, 2791800, 40, .sourceLost⟩] = ([⟨1, 2791800, 72, .sourceLost⟩], 0)
      ∧ damageRemove 1 10 5 [⟨1, 0, 20, .found⟩] = [⟨1, 0, 10, .found⟩, ⟨1, 15, 5, .found⟩] := by decide

/-- The delays of the worked sequence of Chapter V. -/
theorem test_delay_example :
    (drawnDelay 0x5B3A 1 10, drawnDelay 0x91C7 2 10, drawnDelay 0x2E6D 3 10, drawnDelay 0x7A12 4 10,
        drawnDelay 0xC4F9 5 10, drawnDelay 0x0B5E 6 10, drawnDelay 0xE3A4 7 10)
      = (0, 3, 5, 2, 25, 30, 36) := by decide

/-- The spread of four slabs over three sets (R25, R26). -/
theorem test_spread_example :
    (growHomes 0xE0 [259, 260, 261, 262] { State.reset with pm := { PlacementMap.reset with
        sets := [(5, { exampleSet with freeCount := 4 }), (6, { exampleSet with freeCount := 6 }),
          (7, { exampleSet with freeCount := 6 })] } }).map (fun r => r.1.map (fun p => p.place.set))
      = some [6, 7, 6, 7] := by decide

/-! ## The machine as a whole -/

theorem test_StepRunsFront :
    gives (step { small with pending := [.flushRetry, .rateWindow] }) { small with pending := [.rateWindow] } = true := by
  decide +kernel

theorem test_IdleStepLetsTimePass :
    small.pending = [] ∧ gives (step small) { small with clock := ⟨5000001, 2⟩ } = true := by decide +kernel

theorem test_EveryCommandCompletes :
    gives (exec (.commandTimeout 0) small) small = true ∧ gives (exec .flushRetry State.reset) State.reset = true := by
  decide +kernel

theorem test_StepKeepsSound : State.reset.sound ∧ small.sound := by
  have h : ∀ id, tableRead 0 ([] : List (Nat × Nat)) id ≤ 3 := fun _ => Nat.zero_le 3
  have d : damageFormed [] := ⟨by decide, by simp, List.Pairwise.nil⟩
  have p : pagesDivided (List.range 192) [] := ⟨by simp [pagesHeld, Config.generalPages], rfl, fun _ _ => rfl⟩
  exact ⟨⟨⟨by decide, by decide, by decide, by decide, by simp [State.reset, MsgPort.reset]⟩,
      ⟨by decide, by decide, rfl, h, by decide⟩, d, p⟩,
    ⟨⟨by decide, by decide, by decide, by decide, by simp [small, State.reset, MsgPort.reset]⟩,
      ⟨by decide, by decide, rfl, h, by decide⟩, d, p⟩⟩

theorem test_withFetchWord : State.withFetchWord small 8 5 = small := rfl

/-! ## Replies, notices and faults -/

theorem test_AnswerPlacesReply :
    (asked .status 1 [0, 0] small).request 1 = some ⟨1, .status, [0, 0], false⟩
      ∧ ((asked .status 1 [0, 0] small).answer 1 .busy (.mask 3)).mp.outbound = [.reply 1 0x82 .busy .empty] := by
  decide +kernel

/-- A full queue of notices. -/
def noticed : State := { small with mp := { small.mp with outbound := List.replicate 32 (.notice .jobsIdle) } }

theorem test_NoticeOffered :
    small.mp.mask.getLsbD (Notice.bit .jobsIdle) = true ∧ noticeCount small.mp.outbound < 32
      ∧ noticed.mp.mask.getLsbD (Notice.bit .jobsIdle) = true ∧ 32 ≤ noticeCount noticed.mp.outbound
      ∧ (noticed.offerNotice .jobsIdle).mp.noticesLost = true
      ∧ { small with mp := { small.mp with mask := 0 } }.mp.mask.getLsbD (Notice.bit .jobsIdle) = false := by
  decide +kernel

theorem test_FaultOffered :
    small.mp.fault = none
      ∧ (State.offerFault (FaultOffer.bare .linkFrame) (small.offerFault (FaultOffer.bare .storeErase))).mp.fault
          = some ⟨FaultOffer.bare .storeErase, 1, true⟩ := by decide +kernel

/-! ## The Message Port's requests -/

/-- A served request: no exchange left, taken now, not refused by the part's state. -/
theorem serves_of {k : ReqKind} {tag : ReqTag} {p : List Byte} {s : State} (ha : s.agenda = [])
    (ht : s.takeable k tag = some ⟨tag, k, p, false⟩) (hr : s.stateRefusal k = none) : s.serves k tag p := ⟨ha, ht, hr⟩

theorem test_InquireAndStatusReply :
    (asked .inquire 1 [] State.reset).quiet
      ∧ (asked .inquire 1 [] State.reset).takeable .inquire 1 = some ⟨1, .inquire, [], false⟩
      ∧ (asked .status 1 [1, 3] State.reset).takeable .status 1 = some ⟨1, .status, [1, 3], false⟩
      ∧ answers (exec (.status 1) (asked .status 1 [1, 3] State.reset)) (lastReply 1 .ok) = true
      ∧ refusedWith (.status 1) .status [1, 4] .badField State.reset = true
      ∧ refusedWith (.status 1) .status [4, 0] .badField State.reset = true
      ∧ (∀ scope < 4, answers (exec (.status 1) (asked .status 1 [BitVec.ofNat 8 scope, 0] small))
          (lastReply 1 .ok) = true) := by
  unfold State.quiet
  decide +kernel

theorem test_TableReadReplies :
    (asked .tableRead 1 [2, 0, 0, 0, 0, 3] small).serves .tableRead 1 [2, 0, 0, 0, 0, 3]
      ∧ answers (exec (.tableRead 1) (asked .tableRead 1 [0, 0, 0, 255, 0, 0] small)) (lastReply 1 .ok) = true
      ∧ refusedWith (.tableRead 1) .tableRead [0, 0, 1, 0, 0, 0] .badField small = true
      ∧ answers (exec (.tableRead 1) (asked .tableRead 1 [2, 0, 0, 0, 0, 3] small)) (lastReply 1 .ok) = true
      ∧ refusedWith (.tableRead 1) .tableRead [2, 0, 0, 0, 0, 4] .notFound small = true
      ∧ refusedWith (.tableRead 1) .tableRead [5, 0, 0, 0, 0, 0] .notFound small = true
      ∧ refusedWith (.tableRead 1) .tableRead [8, 0, 3, 255, 0, 0] .notFound small = true
      ∧ refusedWith (.tableRead 1) .tableRead [8, 0, 4, 0, 0, 0] .badField small = true
      ∧ refusedWith (.tableRead 1) .tableRead [9, 0, 0, 0, 0, 0] .badField small = true
      ∧ (∀ view < 8, view ≠ 5 → answers (exec (.tableRead 1)
          (asked .tableRead 1 [BitVec.ofNat 8 view, 0, 0, 0, 0, 0] small)) (lastReply 1 .ok) = true) :=
  ⟨serves_of rfl (by decide +kernel) rfl, by decide +kernel⟩

/-- A waiting job and a damaged range. -/
def busy : State :=
  { small with me := { small.me with
    jobs := [moveJob 0 2 false], damage := [⟨1, 0, 20, .found⟩] } }

theorem test_TableReadReplies_lists :
    answers (exec (.tableRead 1) (asked .tableRead 1 [5, 0, 0, 0, 0, 0] busy)) (lastReply 1 .ok) = true
      ∧ answers (exec (.tableRead 1) (asked .tableRead 1 [8, 0, 0, 0, 0, 0] busy)) (lastReply 1 .ok) = true := by
  decide +kernel

theorem test_MaskAndFaultRequests :
    (asked .noticeMask 1 [0x1F, 0xFE] small).serves .noticeMask 1 [0x1F, 0xFE]
      ∧ (asked .faultRead 1 [] small).serves .faultRead 1 [] ∧ (asked .faultClear 1 [] small).serves .faultClear 1 []
      ∧ answers (exec (.noticeMask 1) (asked .noticeMask 1 [0x1F, 0xFE] small))
          (fun t => decide (t.mp.mask = 0x1FFE)) = true
      ∧ answers (exec (.faultRead 1) (asked .faultRead 1 [] (small.offerFault (FaultOffer.bare .linkFrame))))
          (fun t => t.mp.fault.isSome) = true
      ∧ answers (exec (.faultClear 1) (asked .faultClear 1 [] (small.offerFault (FaultOffer.bare .linkFrame))))
          (fun t => t.mp.fault.isNone) = true :=
  ⟨serves_of rfl (by decide +kernel) rfl, serves_of rfl (by decide +kernel) rfl,
    serves_of rfl (by decide +kernel) rfl, by decide +kernel⟩

theorem test_RequestsRefusedByState :
    (Instr.map 1).request = some (.map, 1) ∧ small.takeable .map 1 = none
      ∧ (asked .map 1 [] State.reset).takeable .map 1 = some ⟨1, .map, [], false⟩
      ∧ refusedWith (.map 1) .map [] .starting State.reset = true
      ∧ refusedWith (.map 1) .map [] .wrongState { small with part := .blank none } = true := by decide +kernel

/-- A part that drains, with the reply of its RESET at the head, and an issued command. -/
def draining : State :=
  { small with
    draining := true, mp := { small.mp with outbound := [.reply 1 0x88 .ok .empty] },
    dp := { small.dp with ring := [(3, ⟨9, some (checkCmd 0), 0, 0, false⟩)] } }

theorem test_ResetDrainsAndRestarts :
    (asked .reset 1 [] small).serves .reset 1 []
      ∧ answers (exec (.reset 1) (asked .reset 1 [] small)) (fun t => t.draining && lastReply 1 .ok t) = true
      ∧ draining.draining = true ∧ tableWf (RingEntry.free 0) draining.dp.ring = true
      ∧ draining.mp.outbound = [.reply 1 0x88 .ok .empty]
      ∧ answers (exec .outboundFrameSent draining)
          (fun t => decide (t.part = .starting) && decide (t.dp.sent = [.cancel 3 9])) = true :=
  ⟨serves_of rfl (by decide +kernel) rfl, by decide +kernel⟩

/-! ## Acceptance, the receiver and the transmitter -/

/-- The small part with one frame in its FIFO. -/
def framed (tag : ReqTag) (kind : Byte) (payload : List Byte) (s : State) : State :=
  { s with mp := { s.mp with fifo := [⟨tag, kind, payload⟩] } }

/-- A frame is refused with a result, at once. -/
def framesRefused (tag : ReqTag) (kind : Byte) (payload : List Byte) (r : Result) (s : State) : Bool :=
  answers (exec .acceptRequest (framed tag kind payload s)) (fun t => lastReply tag r t && decide (t.mp.fifo = []))

/-- A request queue that is full. -/
def fullQueue : State :=
  { small with mp := { small.mp with
    requests := (List.range 32).map (fun i => ⟨BitVec.ofNat 16 (i + 10), .map, [], false⟩),
    openTags := (List.range 32).map (fun i => BitVec.ofNat 16 (i + 10)) } }

theorem test_AcceptanceChecksInOrder :
    (framed 1 9 [] small).quiet ∧ replyCount (framed 1 9 [] small).mp.outbound + small.mp.openTags.length < 96
      ∧ framesRefused 0 9 [] .badField small = true ∧ framesRefused 10 9 [] .dupTag fullQueue = true
      ∧ framesRefused 1 0x1A [] .badKind small = true ∧ framesRefused 1 9 [] .badLength small = true
      ∧ framesRefused 1 9 (List.replicate 12 0) .starting State.reset = true
      ∧ framesRefused 1 9 (List.replicate 12 0) .wrongState { small with part := .blank none } = true
      ∧ framesRefused 1 9 (List.replicate 12 0) .busy fullQueue = true
      ∧ answers (exec .acceptRequest (framed 1 9 (List.replicate 12 0) small))
          (fun t => decide (t.mp.requests = [⟨1, .map, List.replicate 12 0, false⟩])) = true := by
  unfold State.quiet
  decide +kernel

/-- The receiver in a state of its own. -/
def receiving (r : Receiver) : State := { small with mp := { small.mp with receiver := r } }

theorem test_ReceiverJudgesFrames :
    small.quiet ∧ small.mp.receiver = .hunting
      ∧ answers (exec (.inboundFrame (0x55 :: frameBytes 0x0102 2 [0, 0])) small)
          (fun t => decide (t.mp.fifo = [⟨0x0102, 2, [0, 0]⟩]) && decide (t.mp.receiver = .hunting)) = true
      ∧ answers (exec (.inboundHeader ((frameBytes 0x0102 2 [0, 0]).take 7)) small)
          (fun t => decide (t.mp.receiver = .payload [0, 2, 1, 2, 2, 0xF8] [])) = true
      ∧ answers (exec (.inboundHeader [0xC3, 0xC3, 0, 0, 0, 0, 0]) small)
          (fun t => decide (t.mp.counters.headerErrors = 1) && decide (t.mp.receiver = .header [0, 0, 0, 0, 0] false)) = true
      ∧ answers (exec (.inboundFrame ((frameBytes 1 2 [0, 0]).take 12 ++ [0])) small)
          (fun t => decide (t.mp.counters.badFrames = 1) && t.mp.fault.isSome) = true := by
  unfold State.quiet
  decide +kernel

/-- A FIFO of 4070 bytes with a frame of 1000 payload bytes under way that has brought 19 of them. -/
def overrun : State :=
  { small with mp := { small.mp with
    fifo := (List.range 4).map (fun _ => ⟨1, 2, List.replicate 1006 0⟩) ++ [⟨1, 2, []⟩],
    receiver := .payload [0x03, 0xE8, 0, 1, 2, 0x11] [] } }

theorem test_IncompleteFramesEnd :
    small.quiet ∧ { overrun with mp := { overrun.mp with
        receiver := .payload [0x03, 0xE8, 0, 1, 2, 0x11] (List.replicate 9 0) } }.mp.used + 8 + 9 = 4096
      ∧ answers (exec (.inboundFifoFull 0) { overrun with mp := { overrun.mp with
          receiver := .payload [0x03, 0xE8, 0, 1, 2, 0x11] (List.replicate 9 0) } })
          (fun t => decide (t.mp.receiver = .discarding 994) && decide (t.mp.counters.overruns = 1)) = true
      ∧ (receiving (.header [] false)).mp.lastByte + 10000 ≤ small.clock.now
      ∧ answers (exec .frameByteTimeout (receiving (.header [] false)))
          (fun t => decide (t.mp.counters.badFrames = 1) && decide (t.mp.receiver = .hunting)) = true
      ∧ gives (exec .frameByteTimeout small) small = true := by
  unfold State.quiet
  decide +kernel

theorem test_SentFrameLeavesQueue :
    noticed.quiet ∧ noticed.draining = false
      ∧ answers (exec .outboundFrameSent noticed)
          (fun t => decide (t.mp.outbound.length = 31) && decide (t.mp.counters.noticesSent = 1)) = true
      ∧ answers (exec .outboundFrameSent ((asked .status 1 [0, 0] small).answer 1 .busy .empty))
          (fun t => decide (t.mp.outbound = []) && decide (t.mp.counters.repliesSent = 1)) = true := by
  unfold State.quiet
  decide +kernel

/-! ## The Grant Unit -/

theorem test_RangeOverlapsRow :
    overlapsRow 8 32 3100 694500 694515 = true ∧ overlapsRow 8 32 3100 694400 694400 = true
      ∧ overlapsRow 8 32 3100 694399 694399 = false ∧ overlapsRow 8 32 3100 694623 694624 = true
      ∧ overlapsRow 8 32 3100 694624 694700 = false := by decide

/-- The payload of a MAP. -/
def mapPayload (volume access count first : Nat) : List Byte :=
  beBytes 1 volume ++ beBytes 1 access ++ beBytes 2 count ++ beBytes 8 first

/-- A MAP of the small part is refused, and the refusal is counted. -/
def mapRefused (payload : List Byte) (r : Result) (s : State) : Bool :=
  answers (exec (.map 1) (asked .map 1 payload s))
    (fun t => lastReply 1 r t && decide (t.gu.counters.refusals = 1) && decide (t.pm = s.pm))

/-- A part whose holds are all in use. -/
def heldOut : State := { small with gu := { small.gu with freeOrder := [] } }

theorem test_MapChecksInOrder :
    (asked .map 1 (mapPayload 1 0 4096 0) small).serves .map 1 (mapPayload 1 0 4096 0)
      ∧ mapRefused (mapPayload 4 0 1 0) .badField small = true ∧ mapRefused (mapPayload 1 0 0 0) .badField small = true
      ∧ mapRefused (mapPayload 1 0 4097 0) .badField small = true ∧ mapRefused (mapPayload 1 2 1 0) .badField small = true
      ∧ mapRefused (mapPayload 1 0 2 262143) .badField small = true
      ∧ mapRefused (mapPayload 1 0 1 524288) .outOfRange small = true
      ∧ mapRefused (mapPayload 1 0 1 524287) .busy heldOut = true :=
  ⟨serves_of rfl (by decide +kernel) rfl, by decide +kernel⟩

theorem test_MapGrantedOnHome :
    (asked .map 1 (mapPayload 1 1 8 262144) small).mapPasses (mapPayload 1 1 8 262144) 0 ((List.range 511).map (· + 1))
      ∧ (small.slab 1).state = .live ∧ small.claimedTarget 1 = none
      ∧ answers (exec (.map 1) (asked .map 1 (mapPayload 1 1 8 262144) small)) (fun t =>
          lastReply 1 .ok t && decide ((t.hold 0).state = .live) && decide ((t.hold 0).generation = 1)
            && decide ((t.hold 0).deadline = 15000000) && decide ((t.slot ⟨0, 1⟩).refs = 1)
            && decide (t.gu.counters.writeGrants = 1)) = true :=
  ⟨⟨by decide +kernel, by decide +kernel, by decide +kernel, by decide +kernel, by decide +kernel, by decide +kernel,
    by decide +kernel⟩, by decide +kernel⟩

/-- Slab 0 MOVING to slot 0 of set 1, with its job in lane 0. -/
def moving (f : Lane → Lane) : State :=
  { small with
    pm := { small.pm with
      slots := [(0, ⟨.home, 0, some 0, some 0⟩), (1, ⟨.home, 0, some 1, none⟩), (1024, ⟨.target, 0, some 0, some 0⟩)],
      sets := [(0, smallSet .online 2 [0, 1, 2]), (1, smallSet .online 3 [3, 4, 5])],
      slabs := [(0, { smallSlab ⟨0, 0⟩ with state := .moving, target := some ⟨1, 0⟩, mark := true }),
        (1, smallSlab ⟨0, 1⟩)] },
    me := { small.me with lanes := [(0, f { Lane.idle with
      state := .reading, job := some (moveJob 0 2 false), target := some ⟨1, 0⟩, commands := 2 })] } }

/-- The lane of `moving` under a lockout. -/
def locked : State := moving (fun l => { l with state := .lockoutWait, lockout := true, commands := 0 })

/-- A LIVE slab claimed by lane 0. -/
def claiming : State :=
  { moving (fun l => { l with state := .claiming, commands := 0 }) with
    pm := { (moving id).pm with slabs := [(0, { smallSlab ⟨0, 0⟩ with mark := true }), (1, smallSlab ⟨0, 1⟩)] } }

def isMirrored (t : State) : Bool :=
  lastReply 1 .ok t && decide ((t.hold 0).target = some ⟨1, 0⟩) && decide ((t.slot ⟨0, 0⟩).refs = 1)
    && decide ((t.slot ⟨1, 0⟩).refs = 1) && decide (t.gu.counters.mirroredGrants = 1)

theorem test_MapGrantedMirrored :
    ((moving id).slab 0).state = .moving ∧ ((moving id).slab 0).target = some ⟨1, 0⟩ ∧ (moving id).laneOf 0 = some 0
      ∧ slotKey ⟨1, 0⟩ ≠ slotKey ((moving id).slab 0).home
      ∧ (asked .map 1 (mapPayload 1 1 1 262143) (moving id)).mapPasses (mapPayload 1 1 1 262143) 0
          ((List.range 511).map (· + 1))
      ∧ answers (exec (.map 1) (asked .map 1 (mapPayload 1 1 1 262143) (moving id))) isMirrored = true
      ∧ claiming.claimedTarget 0 = some ⟨1, 0⟩
      ∧ answers (exec (.map 1) (asked .map 1 (mapPayload 1 1 1 0) claiming)) isMirrored = true :=
  ⟨by decide +kernel, by decide +kernel, by decide +kernel, by decide +kernel,
    ⟨by decide +kernel, by decide +kernel, by decide +kernel, by decide +kernel, by decide +kernel, by decide +kernel,
      by decide +kernel⟩, by decide +kernel⟩

/-- A deferral queue that is full. -/
def deferralFull (s : State) : State :=
  { s with gu := { s.gu with deferred := (List.range 64).map (fun i => ⟨BitVec.ofNat 16 (i + 10), 1, 0, 1, 0, 0⟩) } }

theorem test_MapDeferredByLockout :
    (locked.slab 0).state = .moving ∧ locked.laneOf 0 = some 0 ∧ (locked.lane 0).lockout = true
      ∧ overlapsRow (locked.rowSet (locked.lane 0)).width (locked.rowSet (locked.lane 0)).unit (locked.lane 0).row 31 31 = true
      ∧ answers (exec (.map 1) (asked .map 1 (mapPayload 1 1 1 31) locked))
          (fun t => decide (t.gu.deferred = [⟨1, 1, 31, 1, 0, 15000000⟩]) && decide (t.mp.requests = [])
            && decide (t.mp.openTags = [1])) = true
      ∧ answers (exec (.map 1) (asked .map 1 (mapPayload 1 1 1 31) (deferralFull locked)))
          (fun t => lastReply 1 .busy t && decide (t.gu.counters.deferralRefusals = 1)) = true
      ∧ answers (exec (.map 1) (asked .map 1 (mapPayload 1 1 1 32) locked)) isMirrored = true := by decide +kernel

/-- The small part with hold 7 in a state, on the home of slab 0. -/
def holding (state : HoldState) (access : Access) (deadline : Nat) : State :=
  { small with
    pm := { small.pm with slots := [(0, ⟨.home, 1, some 0, none⟩), (1, ⟨.home, 0, some 1, none⟩)] },
    gu := { small.gu with
      holds := [(7, { state := state, generation := 5, volume := 1, first := 0, count := 8, slab := 0, access := access,
                      home := ⟨0, 0⟩, target := none, lifetime := 10000, deadline := deadline })],
      freeOrder := small.gu.freeOrder.filter (fun h => h ≠ 7) } }

/-- The payload of an UNHOLD without members. -/
def unholdPayload (hold generation outcome : Nat) : List Byte :=
  beBytes 2 hold ++ beBytes 2 generation ++ beBytes 1 outcome ++ [0]

/-- An UNHOLD is answered with a result, and the hold's state is then as given. -/
def unheld (payload : List Byte) (r : Result) (state : HoldState) (s : State) : Bool :=
  answers (exec (.unhold 1) (asked .unhold 1 payload s))
    (fun t => lastReply 1 r t && decide ((t.hold 7).state = state) && decide ((t.hold 7).generation = 5))

theorem test_UnholdAnswered :
    (asked .unhold 1 (unholdPayload 7 5 0) (holding .live .write 0)).serves .unhold 1 (unholdPayload 7 5 0)
      ∧ (∀ n < 4, ((holding .live .write 0).lane n).job.map Job.slab ≠ some 0)
      ∧ unheld (unholdPayload 7 5 0) .ok .free (holding .live .write 0) = true
      ∧ unheld (unholdPayload 7 5 1) .tooLate .expired (holding .expired .write 0) = true
      ∧ unheld (unholdPayload 7 4 0) .notFound .live (holding .live .read 0) = true
      ∧ unheld (unholdPayload 511 0 0) .notFound .live (holding .live .read 0) = true
      ∧ unheld (unholdPayload 512 0 0) .badField .live (holding .live .read 0) = true
      ∧ unheld (unholdPayload 7 5 2) .badField .live (holding .live .read 0) = true
      ∧ unheld (beBytes 2 7 ++ beBytes 2 5 ++ [0, 1]) .badField .live (holding .live .read 0) = true :=
  ⟨serves_of rfl (by decide +kernel) rfl, by decide +kernel⟩

theorem test_HoldExpires :
    ((holding .live .write 5000000).hold 7).deadline ≤ small.clock.now
      ∧ answers (exec (.holdExpiry 7) (holding .live .write 5000000))
          (fun t => decide ((t.hold 7).state = .expired) && decide ((t.hold 7).deadline = 15000000)
            && decide ((t.slot ⟨0, 0⟩).refs = 1)) = true
      ∧ gives (exec (.holdExpiry 7) (holding .live .write 5000001)) (holding .live .write 5000001) = true
      ∧ gives (exec (.holdExpiry 6) (holding .live .write 0)) (holding .live .write 0) = true := by decide +kernel

theorem test_QuarantineEnds :
    ((holding .expired .write 5000000).hold 7).deadline ≤ small.clock.now
      ∧ answers (exec (.quarantineEnd 7) (holding .expired .write 5000000))
          (fun t => decide (t.hold 7 = Hold.free 5) && decide (t.gu.freeOrder.getLast? = some 7)
            && decide ((t.slot ⟨0, 0⟩).refs = 0)) = true
      ∧ gives (exec (.quarantineEnd 7) (holding .live .write 0)) (holding .live .write 0) = true := by decide +kernel

/-- A tag is open. -/
def opened (tag : ReqTag) (s : State) : State := { s with mp := { s.mp with openTags := s.mp.openTags ++ [tag] } }

theorem test_DeferralTimesOut :
    (deferralFull small).gu.deferred.find? (fun d => d.tag = 73) = some ⟨73, 1, 0, 1, 0, 0⟩
      ∧ answers (exec (.deferralDeadline 73) (opened 73 (deferralFull small)))
          (fun t => lastReply 73 .busy t && decide (t.gu.deferred.length = 63)) = true
      ∧ gives (exec (.deferralDeadline 74) (deferralFull small)) (deferralFull small) = true := by decide +kernel

/-- A MAP of offset 31 of slab 0 that is deferred. -/
def deferring (s : State) : State :=
  opened 73 { s with gu := { s.gu with deferred := [⟨73, 1, 31, 1, 0, 15000000⟩] } }

theorem test_DeferralTimesOut_again :
    (deferring locked).gu.deferred.filter (fun e => e.slab = 0) = [⟨73, 1, 31, 1, 0, 15000000⟩]
      ∧ handle (.reevaluate 0) (deferring locked) = deferring locked
      ∧ lastReply 73 .ok (handle (.reevaluate 0) (deferring (moving id))) = true
      ∧ ((handle (.reevaluate 0) (deferring (moving id))).hold 0).target = some ⟨1, 0⟩
      ∧ ((handle (.reevaluate 0) (deferring small)).hold 0).target = none
      ∧ lastReply 73 .busy (handle (.reevaluate 0) (deferring { locked with gu := heldOut.gu })) = true := by decide +kernel

/-- A DRAINING slot with one reference. -/
def drainingSlot (lane : Option Nat) : State :=
  { small with pm := { small.pm with slots := [(2, ⟨.draining, 1, some 9, lane⟩)] } }

theorem test_DrainingSlotsFreed :
    ((drainingSlot none).slot ⟨0, 2⟩).state = .draining ∧ ((drainingSlot none).slot ⟨0, 2⟩).refs ≤ 1
      ∧ ((drainingSlot none).lowerRef ⟨0, 2⟩).slot ⟨0, 2⟩ = Slot.free
      ∧ (((drainingSlot none).lowerRef ⟨0, 2⟩).set 0).freeCount = 3
      ∧ ((drainingSlot (some 1)).lowerRef ⟨0, 2⟩).slot ⟨0, 2⟩ = ⟨.draining, 0, some 9, some 1⟩
      ∧ (((drainingSlot (some 1)).lowerRef ⟨0, 2⟩).releaseSlot ⟨0, 2⟩).slot ⟨0, 2⟩ = Slot.free
      ∧ (small.leavePlace ⟨0, 1⟩).slot ⟨0, 1⟩ = Slot.free
      ∧ ((holding .live .read 0).leavePlace ⟨0, 0⟩).slot ⟨0, 0⟩ = ⟨.draining, 1, some 0, none⟩ := by decide +kernel

/-! ## Configuration requests and parameters -/

theorem test_ConfigurationFrozen :
    (asked .grow 1 [1, 0, 0, 3] (frozen small)).serves .grow 1 [1, 0, 0, 3]
      ∧ (frozen small).part = .frozen ∧ (Instr.grow 1).request = some (.grow, 1)
      ∧ refusedWith (.grow 1) .grow [1, 0, 0, 3] .journalDown (frozen small) = true :=
  ⟨serves_of rfl (by decide +kernel) rfl, by decide +kernel⟩

/-- The small part takes a record at once. -/
theorem small_journalOpen : small.journalOpen := by
  unfold State.journalOpen
  decide +kernel

/-- The payload of a SET_PARAM. -/
def paramPayload (p v : Nat) : List Byte := beBytes 4 (p * 16777216) ++ beBytes 4 v

/-- A SET_PARAM that is accepted: its record is queued, and the request waits. -/
def paramQueued (p v : Nat) (s : State) : Bool :=
  answers (exec (.setParam 1) (asked .setParam 1 (paramPayload p v) s))
    (fun t => decide (t.jc.queue.length = 1) && decide (t.jc.nextSeq = 4) && t.jc.op.isSome
      && decide (t.mp.requests.map Request.taken = [true]))

/-- A part without sets. -/
def setless : State := { small with pm := { small.pm with sets := [] } }

theorem test_ParameterSet :
    (asked .setParam 1 (paramPayload 2 120) small).serves .setParam 1 (paramPayload 2 120)
      ∧ paramQueued 2 120 small = true ∧ paramQueued 3 60 small = true ∧ paramQueued 4 1000 small = true
      ∧ paramQueued 5 10 small = true ∧ paramQueued 6 32 small = true ∧ paramQueued 7 1024 small = true
      ∧ paramQueued 8 4096 small = true ∧ paramQueued 0 16 setless = true
      ∧ refusedWith (.setParam 1) .setParam (paramPayload 0 16) .wrongState small = true
      ∧ refusedWith (.setParam 1) .setParam (paramPayload 0 2) .badField small = true
      ∧ refusedWith (.setParam 1) .setParam (paramPayload 0 1) .journalDown (frozen small) = true
      ∧ refusedWith (.setParam 1) .setParam (paramPayload 1 1) .badField small = true
      ∧ (∀ q ∈ [(2, 0), (2, 121), (3, 61), (4, 49), (5, 2), (6, 2), (7, 15), (8, 4097), (9, 0)],
          refusedWith (.setParam 1) .setParam (paramPayload q.1 q.2) .badField small = true)
      ∧ refusedWith (.setParam 1) .setParam (paramPayload 2 1) .journalDown (frozen small) = true :=
  ⟨serves_of rfl (by decide +kernel) rfl, by decide +kernel⟩

theorem test_AdmissionBegins :
    (asked .joinMember 1 [7] small).serves .joinMember 1 [7] ∧ (small.member 7).state = .present
      ∧ (small.bay 7).present = true ∧ small.dp.flush = .answered
      ∧ answers (exec (.admitMember 1) (asked .joinMember 1 [7] small)) (fun t =>
          decide ((t.member 7).state = .joining) && decide ((t.ring 0).cmd.map Cmd.op = some .write)
            && decide ((t.ring 0).deadline = 13000000) && decide (t.jc.queue.length = 1)
            && decide (t.dp.sent = [.command 0 1 7 .write 0 1])) = true
      ∧ refusedWith (.admitMember 1) .joinMember [6] .wrongState small = true
      ∧ refusedWith (.admitMember 1) .joinMember [7] .noSpace
          (small.setMember 7 ⟨.present, 2048, true, [], none⟩) = true :=
  ⟨serves_of rfl (by decide +kernel) rfl, by decide +kernel⟩

theorem test_MemberReleased :
    (asked .releaseMember 1 [6] small).serves .releaseMember 1 [6] ∧ (small.member 6).state = .available
      ∧ answers (exec (.releaseMember 1) (asked .releaseMember 1 [6] small)) (fun t =>
          decide (t.member 6 = ⟨.present, 5000000, true, [], none⟩) && decide (t.jc.queue.length = 1)) = true
      ∧ answers (exec (.releaseMember 1)
          (asked .releaseMember 1 [9] (small.setMember 9 ⟨.failed, 5000000, true, [], some 2⟩)))
          (fun t => decide (t.member 9 = Member.absent)) = true
      ∧ refusedWith (.releaseMember 1) .releaseMember [0] .wrongState small = true :=
  ⟨serves_of rfl (by decide +kernel) rfl, by decide +kernel⟩

theorem test_MemberFailed :
    (asked .failMember 1 [0] small).serves .failMember 1 [0] ∧ (small.member 0).state = .active
      ∧ ((small.member 0).bands.map Band.set).Nodup ∧ (∀ n < 4, (small.lane n).job = none)
      ∧ small.entriesWhere (fun c => decide (c.member = 0)) = []
      ∧ answers (exec (.failMember 1) (asked .failMember 1 [0] small)) (fun t =>
          decide ((t.member 0).state = .failed) && decide ((t.set 0).state = .degraded)
            && decide ((t.set 0).failedCount = 1) && decide (t.jc.queue.length = 1)) = true
      ∧ refusedWith (.failMember 1) .failMember [7] .wrongState small = true :=
  ⟨serves_of rfl (by decide +kernel) rfl, by decide +kernel⟩

/-- The payload of a DEFINE_SET with bands starting at 2048 and of 131072 blocks. -/
def definePayload (set unit start : Nat) (members : List Nat) : List Byte :=
  beBytes 1 set ++ beBytes 1 unit ++ beBytes 6 131072 ++ members.flatMap (fun m => beBytes 1 m ++ beBytes 6 start)

/-- The small part with members 5 to 7 AVAILABLE and the set of member 5 gone. -/
def spare : State :=
  { small with pm := { small.pm with
    members := [(5, smallMember .available []), (6, smallMember .available []), (7, smallMember .available [])],
    sets := [(0, smallSet .online 2 [0, 1, 2])] } }

theorem test_SetDefined :
    (asked .defineSet 1 (definePayload 63 16 2048 [5, 6, 7]) spare).serves .defineSet 1 (definePayload 63 16 2048 [5, 6, 7])
      ∧ answers (exec (.defineSet 1) (asked .defineSet 1 (definePayload 63 16 2048 [5, 6, 7]) spare)) (fun t =>
          decide (t.set 63 = { smallSet .pending 1 [5, 6, 7] with bandLength := 131072, slots := 1 })
            && decide (t.jc.queue.length = 1)) = true
      ∧ refusedWith (.defineSet 1) .defineSet (definePayload 64 16 2048 [5, 6, 7]) .badField spare = true
      ∧ refusedWith (.defineSet 1) .defineSet (definePayload 1 17 2048 [5, 6, 7]) .badField spare = true
      ∧ refusedWith (.defineSet 1) .defineSet (definePayload 1 16 2047 [5, 6, 7]) .badField spare = true
      ∧ refusedWith (.defineSet 1) .defineSet (definePayload 1 16 2048 [5, 6, 6]) .badField spare = true
      ∧ refusedWith (.defineSet 1) .defineSet (definePayload 0 16 2048 [5, 6, 7]) .wrongState spare = true
      ∧ refusedWith (.defineSet 1) .defineSet (definePayload 1 16 2048 [5, 6, 8]) .wrongState spare = true
      ∧ refusedWith (.defineSet 1) .defineSet (definePayload 1 16 4868929 [5, 6, 7]) .noSpace spare = true
      ∧ refusedWith (.defineSet 1) .defineSet (definePayload 1 32 2048 [5, 6, 7]) .noSpace
          { spare with pm := { spare.pm with slabSize := 4 } } = true :=
  ⟨serves_of rfl (by decide +kernel) rfl, by decide +kernel⟩

theorem test_SetRetired :
    (asked .retireSet 1 [1] small).serves .retireSet 1 [1] ∧ (small.set 1).freeCount = (small.set 1).slots
      ∧ answers (exec (.retireSet 1) (asked .retireSet 1 [1] small)) (fun t =>
          (t.set 1).retiring && decide (t.jc.queue.length = 1)) = true
      ∧ refusedWith (.retireSet 1) .retireSet [64] .badField small = true
      ∧ refusedWith (.retireSet 1) .retireSet [0] .wrongState small = true :=
  ⟨serves_of rfl (by decide +kernel) rfl, by decide +kernel⟩

/-- The payload of a CREATE_VOLUME with a pool of set 0. -/
def createPayload (v limit : Nat) : List Byte := beBytes 1 v ++ [0] ++ beBytes 2 limit ++ beBytes 8 1

theorem test_VolumeCreated :
    (asked .createVolume 1 (createPayload 0 16376) small).serves .createVolume 1 (createPayload 0 16376)
      ∧ answers (exec (.createVolume 1) (asked .createVolume 1 (createPayload 0 16376) small)) (fun t =>
          decide (t.volume 0 = ⟨.unused, 8, 16376, 0, 0, 1⟩) && decide (t.jc.queue.length = 1)) = true
      ∧ refusedWith (.createVolume 1) .createVolume (createPayload 0 16377) .noSpace small = true
      ∧ refusedWith (.createVolume 1) .createVolume (createPayload 1 1) .wrongState small = true
      ∧ refusedWith (.createVolume 1) .createVolume (createPayload 4 1) .badField small = true
      ∧ refusedWith (.createVolume 1) .createVolume (createPayload 0 0) .badField small = true :=
  ⟨serves_of rfl (by decide +kernel) rfl, by decide +kernel⟩

theorem test_GrowthBegins :
    (asked .grow 1 [1, 0, 0, 5] small).serves .grow 1 [1, 0, 0, 5] ∧ small.jc.queue.length ≤ 29
      ∧ (growHomes 3 [2, 3, 4] (asked .grow 1 [1, 0, 0, 5] small)).map Prod.fst
          = some [⟨2, ⟨1, 0⟩⟩, ⟨3, ⟨1, 1⟩⟩, ⟨4, ⟨0, 2⟩⟩]
      ∧ answers (exec (.grow 1) (asked .grow 1 [1, 0, 0, 5] small)) (fun t =>
          decide (t.jc.queue.length = 3) && decide ((t.slot ⟨0, 2⟩).state = .home)
            && decide ((t.set 1).freeCount = 2)) = true
      ∧ refusedWith (.grow 1) .grow [4, 0, 0, 5] .badField small = true
      ∧ refusedWith (.grow 1) .grow [0, 0, 0, 5] .wrongState small = true
      ∧ refusedWith (.grow 1) .grow [1, 0, 0, 2] .badField small = true
      ∧ refusedWith (.grow 1) .grow [1, 0, 0, 9] .badField small = true
      ∧ refusedWith (.grow 1) .grow [1, 0, 0, 8, 0, 0, 0, 0, 0, 0, 0, 1] .noSpace small = true
      ∧ refusedWith (.grow 1) .grow [1, 0, 0, 5] .busy
          { small with me := { small.me with jobs := List.replicate 1022 (moveJob 0 2 false) } } = true :=
  ⟨serves_of rfl (by decide +kernel) rfl, by decide +kernel⟩

theorem test_AllocationChoosesSlot :
    small.chooseSlot 3 = some ⟨1, 0⟩ ∧ small.chooseSlot 1 = some ⟨0, 2⟩ ∧ small.chooseSlot 4 = none
      ∧ (small.takeSlot ⟨1, 0⟩ .target 0).slot ⟨1, 0⟩ = ⟨.target, 0, some 0, none⟩
      ∧ ((small.takeSlot ⟨1, 0⟩ .target 0).set 1).freeCount = 3 := by decide +kernel

/-! ## The Move Engine's requests -/

theorem test_RebalanceAdmitsJobs :
    (asked .rebalance 1 [1, 1, 1] small).serves .rebalance 1 [1, 1, 1]
      ∧ answers (exec (.rebalance 1) (asked .rebalance 1 [1, 1, 1] small)) (fun t =>
          decide (t.me.jobs = [moveJob 0 2 true, moveJob 1 2 true]) && (t.slab 0).mark && (t.slab 1).mark
            && decide (t.mp.outbound = [.reply 1 0x93 .ok (.rebalanced 2 0)])) = true
      ∧ answers (exec (.rebalance 1) (asked .rebalance 1 [1, 0, 0] small)) (fun t =>
          decide (t.mp.outbound = [.reply 1 0x93 .ok (.rebalanced 0 0)])) = true
      ∧ refusedWith (.rebalance 1) .rebalance [1, 0, 64] .badField small = true
      ∧ refusedWith (.rebalance 1) .rebalance [1, 0, 1, 1] .badField small = true
      ∧ refusedWith (.rebalance 1) .rebalance [0, 0, 1] .wrongState small = true :=
  ⟨serves_of rfl (by decide +kernel) rfl, by decide +kernel⟩

theorem test_MoveAdmitsJob :
    (asked .move 1 [1, 1, 0, 0, 0, 1] small).serves .move 1 [1, 1, 0, 0, 0, 1] ∧ 1 ≤ small.freePlaces
      ∧ answers (exec (.move 1) (asked .move 1 [1, 1, 0, 0, 0, 1] small)) (fun t =>
          decide (t.me.jobs = [moveJob 1 2 false]) && (t.slab 1).mark && lastReply 1 .ok t) = true
      ∧ refusedWith (.move 1) .move [1, 64, 0, 0, 0, 1] .badField small = true
      ∧ refusedWith (.move 1) .move [0, 1, 0, 0, 0, 1] .wrongState small = true
      ∧ refusedWith (.move 1) .move [1, 1, 0, 0, 0, 2] .outOfRange small = true
      ∧ refusedWith (.move 1) .move [1, 0, 0, 0, 0, 1] .wrongState small = true
      ∧ refusedWith (.move 1) .move [1, 1, 0, 0, 0, 0] .wrongState (small.setMark 0 true) = true
      ∧ refusedWith (.move 1) .move [1, 1, 0, 0, 0, 1] .busy
          { small with me := { small.me with jobs := List.replicate 1024 (moveJob 0 2 false) } } = true :=
  ⟨serves_of rfl (by decide +kernel) rfl, by decide +kernel⟩

/-- Slab 0 marked, with a waiting job. -/
def waitingJob (j : Job) : State := { small.setMark 0 true with me := { small.me with jobs := [j] } }

/-- A restart job. -/
def retainedJob (cause : Option AbortCause) : Job :=
  { moveJob 0 2 false with resume := some 0, retained := some ⟨1, 0⟩, cause := cause }

theorem test_JobCancelled :
    (asked .cancelJob 1 [1, 0, 0, 0] (waitingJob (moveJob 0 2 false))).serves .cancelJob 1 [1, 0, 0, 0]
      ∧ answers (exec (.cancelJob 1) (asked .cancelJob 1 [1, 0, 0, 0] (waitingJob (moveJob 0 2 false)))) (fun t =>
          decide (t.me.jobs = []) && !(t.slab 0).mark
            && decide (t.mp.outbound = [.reply 1 0x95 .ok .empty, .notice .jobsIdle])) = true
      ∧ answers (exec (.cancelJob 1) (asked .cancelJob 1 [1, 0, 0, 0] (waitingJob (retainedJob none)))) (fun t =>
          decide (t.me.jobs = [retainedJob (some .cancelled)]) && lastReply 1 .ok t) = true
      ∧ refusedWith (.cancelJob 1) .cancelJob [1, 0, 0, 0] .wrongState
          (waitingJob (retainedJob (some .targetWrite))) = true
      ∧ refusedWith (.cancelJob 1) .cancelJob [1, 0, 0, 0] .wrongState
          (waitingJob { moveJob 0 0 false with kind := .fill }) = true
      ∧ refusedWith (.cancelJob 1) .cancelJob [1, 0, 0, 0] .notFound small = true
      ∧ refusedWith (.cancelJob 1) .cancelJob [1, 0, 0, 2] .outOfRange small = true
      ∧ refusedWith (.cancelJob 1) .cancelJob [0, 0, 0, 0] .wrongState small = true
      ∧ refusedWith (.cancelJob 1) .cancelJob [4, 0, 0, 0] .badField small = true :=
  ⟨serves_of rfl (by decide +kernel) rfl, by decide +kernel⟩

/-- The lane of `moving` between rows, without pages, in a pool that has none. -/
def between (state : LaneState) (paused : Bool) : State :=
  let s := moving (fun l => { l with state := state, commands := 0 })
  { s with me := { s.me with paused := paused }, sp := { s.sp with free := [] } }

theorem test_JobsPausedAndResumed :
    (asked .pauseJobs 1 [] (between .waitToken false)).serves .pauseJobs 1 []
      ∧ (asked .resumeJobs 1 [] (between .paused true)).serves .resumeJobs 1 []
      ∧ (between .paused true).waitsForRoom (.lane 0) = false ∧ (between .paused true).onPageList 0 = false
      ∧ (between .paused true).sp.free.length < rowPages ((between .paused true).rowSet ((between .paused true).lane 0))
      ∧ answers (exec (.pauseJobs 1) (asked .pauseJobs 1 [] (between .waitToken false))) (fun t =>
          t.me.paused && decide ((t.lane 0).state = .paused)) = true
      ∧ answers (exec (.resumeJobs 1) (asked .resumeJobs 1 [] (between .paused true))) (fun t =>
          !t.me.paused && decide ((t.lane 0).state = .waitPages) && decide (t.sp.waiting = [(0, 3)])) = true
      ∧ answers (exec (.resumeJobs 1) (asked .resumeJobs 1 [] small)) (lastReply 1 .ok) = true :=
  ⟨serves_of rfl (by decide +kernel) rfl, serves_of rfl (by decide +kernel) rfl, by decide +kernel⟩

/-- The payload of a DAMAGE_CLEAR. -/
def clearPayload (v first count : Nat) : List Byte := beBytes 4 (v * 16777216) ++ beBytes 8 first ++ beBytes 4 count

/-- A full Damage List. -/
def damaged : State :=
  { small with me := { small.me with damage := (List.range 1024).map (fun i => ⟨1, 10 * i, 5, .found⟩) } }

theorem test_DamageRequests :
    (asked .damageRead 1 [3, 255, 64] damaged).serves .damageRead 1 [3, 255, 64]
      ∧ (asked .damageClear 1 (clearPayload 1 5 5) busy).serves .damageClear 1 (clearPayload 1 5 5)
      ∧ answers (exec (.damageRead 1) (asked .damageRead 1 [3, 255, 64] damaged)) (fun t =>
          decide (t.mp.outbound = [.reply 1 0x98 .ok (.damageList 1024 false 0 [⟨1, 10230, 5, .found⟩])])) = true
      ∧ refusedWith (.damageRead 1) .damageRead [4, 0, 1] .badField damaged = true
      ∧ refusedWith (.damageRead 1) .damageRead [0, 0, 65] .badField damaged = true
      ∧ answers (exec (.damageClear 1) (asked .damageClear 1 (clearPayload 1 5 5) busy)) (fun t =>
          decide (t.me.damage = [⟨1, 0, 5, .found⟩, ⟨1, 10, 10, .found⟩]) && decide (t.jc.queue.length = 1)) = true
      ∧ refusedWith (.damageClear 1) .damageClear (clearPayload 1 20 5) .ok busy = true
      ∧ refusedWith (.damageClear 1) .damageClear (clearPayload 1 2 1) .noSpace damaged = true
      ∧ refusedWith (.damageClear 1) .damageClear (clearPayload 1 2 0) .badField damaged = true
      ∧ refusedWith (.damageClear 1) .damageClear (clearPayload 1 2 1) .journalDown (frozen busy) = true :=
  ⟨serves_of rfl (by decide +kernel) rfl, serves_of rfl (by decide +kernel) rfl, by decide +kernel⟩

/-! ## The lanes' own events -/

/-- The part with slab 0 FILLING on slot 0 and its FILL job waiting, in a pool without pages. -/
def filling : State :=
  { small with
    pm := { small.pm with
      slabs := [(0, { smallSlab ⟨0, 0⟩ with state := .filling, mark := true, front := 5, persisted := 5 }),
        (1, smallSlab ⟨0, 1⟩)] },
    me := { small.me with jobs := [{ moveJob 0 0 false with kind := .fill }] },
    sp := { small.sp with free := [] } }

/-- A LIVE write hold on the home of slab 0, and its waiting MOVE job. -/
def moveWaits : State :=
  { (holding .live .write 9000000).setMark 0 true with me := { small.me with jobs := [moveJob 0 2 false] } }

/-- A MOVE job whose only candidate has no FREE slot, and another lane at work. -/
def targetless : State :=
  { small.setMark 1 true with me := { (between .paused false).me with jobs := [moveJob 1 4 false] } }

theorem test_LaneClaims :
    filling.waitsForRoom (.lane 3) = false ∧ filling.onPageList 3 = false
      ∧ answers (exec (.laneClaim 3) filling) (fun t =>
          decide ((t.lane 3).state = .waitPages) && decide ((t.lane 3).row = 5) && decide (t.sp.waiting = [(3, 3)])
            && decide ((t.slot ⟨0, 0⟩).lane = some 3) && decide (t.me.jobs = [])) = true
      ∧ moveWaits.chooseSlot (moveWaits.candidates (moveJob 0 2 false)) = some ⟨1, 0⟩ ∧ 0 < moveWaits.homeOnlyWrites 0
      ∧ answers (exec (.laneClaim 0) moveWaits) (fun t =>
          decide ((t.lane 0).state = .claiming) && decide ((t.lane 0).awaitedHolds = 1)
            && decide (t.slot ⟨1, 0⟩ = ⟨.target, 0, some 0, some 0⟩) && decide (t.jc.queue = [])) = true
      ∧ (waitingJob (moveJob 0 2 false)).homeOnlyWrites 0 = 0
      ∧ answers (exec (.laneClaim 0) (waitingJob (moveJob 0 2 false))) (fun t =>
          (t.lane 0).beginQueued && decide (t.jc.queue.map Record.body = [.jobBegin 0 ⟨1, 0⟩ false])) = true
      ∧ targetless.chooseSlot (targetless.candidates (moveJob 1 4 false)) = none ∧ (targetless.lane 0).state ≠ .idle
      ∧ answers (exec (.laneClaim 1) targetless) (fun t =>
          decide (t.me.jobs = []) && decide (t.mp.outbound = [.notice (.jobAborted 1 1 1 .move .noTarget 0)])) = true
      ∧ gives (exec (.laneClaim 0) small) small = true
      ∧ gives (exec (.laneClaim 0) (frozen (waitingJob (moveJob 0 2 false)))) (frozen (waitingJob (moveJob 0 2 false))) = true := by
  decide +kernel

/-- Two lanes that wait for tokens, with a rate of one. -/
def rated : State :=
  { small with me := { small.me with moveRate := 1, tokenOrder := [2, 1], windowStart := some 4900000 } }

theorem test_RateWindowAndBackoff :
    gives (exec .rateWindow small) small = true
      ∧ answers (exec .rateWindow { rated with me := { rated.me with tokenOrder := [] } }) (fun t =>
          decide (t.me.tokens = 1) && decide (t.me.windowStart = some 5000000)) = true
      ∧ rated.me.tokenOrder.length ≤ 4
      ∧ answers (exec .rateWindow rated) (fun t => decide (t.me.tokens = 0) && decide (t.me.tokenOrder = [1])) = true
      ∧ gives (exec .rateWindow State.reset) State.reset = true
      ∧ gives (exec (.backoffEnd 0) small) small = true := by decide +kernel

/-- The lane of `between` in BACKOFF to a time. -/
def backingOff (paused : Bool) (stop : Nat) : State :=
  let s := moving (fun l => { l with state := .backoff, backoffEnd := some stop, commands := 0, breaks := 2 })
  { s with me := { s.me with paused := paused }, sp := { s.sp with free := [] } }

theorem test_RateWindowAndBackoff_end :
    (backingOff false 5000000).waitsForRoom (.lane 0) = false ∧ (backingOff false 5000000).onPageList 0 = false
      ∧ answers (exec (.backoffEnd 0) (backingOff false 5000000)) (fun t =>
          decide ((t.lane 0).state = .waitPages) && decide ((t.lane 0).breaks = 2) && decide (t.sp.waiting = [(0, 3)])) = true
      ∧ answers (exec (.backoffEnd 0) (backingOff true 5000000)) (fun t => decide ((t.lane 0).state = .paused)) = true
      ∧ gives (exec (.backoffEnd 0) (backingOff false 5000001)) (backingOff false 5000001) = true := by decide +kernel

/-- The lane of `moving` with a watch on row 0. -/
def watching (intact : Bool) (breaks : Nat) : State :=
  moving (fun l => { l with watch := some ⟨0, intact⟩, breaks := breaks })

theorem test_RowsCommitOrBreak :
    (watching true 3).laneOf 0 = some 0
      ∧ (((meetGrant 0 31 1 (watching true 3)).lane 0).watch = some ⟨0, false⟩)
      ∧ meetGrant 0 32 1 (watching true 3) = watching true 3
      ∧ (((commitCheck 0 (watching true 3)).slab 0).front = 1)
      ∧ ((commitCheck 0 (watching false 6)).lane 0).breaks = 7
      ∧ ((commitCheck 0 (watching false 6)).lane 0).backoffEnd = some 5001000
      ∧ ((commitCheck 0 (watching false 7)).lane 0).lockout = true
      ∧ ((commitCheck 0 { watching false 3 with me := { (watching false 3).me with paused := true } }).lane 0).state
          = .paused := by decide +kernel

/-! ## The drive fabric -/

/-- A block of ones. -/
def ones : Block := ⟨BitVec.allOnes 32768, 5⟩

/-- Entry 9 holds a command of lane 0, of two blocks at staging positions 7 and 8, issued under generation 4. -/
def issued (state : LaneState) (op : DriveOp) (use : CmdUse) : State :=
  let s := moving (fun l => { l with state := state })
  { s with
    sp := { s.sp with memory := [(7, ones)] },
    dp := { s.dp with
      freeOrder := s.dp.freeOrder.filter (fun f => f ≠ 9),
      ring := [(9, { generation := 4,
                     cmd := some { owner := .lane 0, use := use, member := 3, op := op, dbn := 2048, count := 2,
                                   pages := .staging [7, 8], context := some (0, 0), labelBlock := none },
                     deadline := 5000000, received := 1, mismatch := false })] } }

theorem test_BlocksOnDriveLink :
    (issued .reading .read (.run 0)).dp.flush = .answered ∧ ((issued .reading .read (.run 0)).ring 9).generation = 4
      ∧ answers (exec (.readData 9 4 1 3 2) (issued .reading .read (.run 0))) (fun t =>
          decide (t.staged 8 = ⟨3, 2⟩) && decide ((t.ring 9).received = 3)) = true
      ∧ answers (exec (.readData 9 4 2 3 2) (issued .reading .read (.run 0))) (fun t =>
          decide (t.dp.counters.late = 1) && decide (t.sp.memory = [(7, ones)])) = true
      ∧ answers (exec (.pull 9 4 0) (issued .writing .write (.write 0))) (fun t =>
          decide (t.dp.sent = [.pullAnswer 9 4 0 (BitVec.allOnes 32768) 5])) = true
      ∧ answers (exec (.pull 9 3 0) (issued .writing .write (.write 0))) (fun t =>
          decide (t.dp.sent = [.pullRefused 9 3]) && decide (t.dp.counters.late = 1)) = true
      ∧ answers (exec (.tags 9 4 0 5) (issued .verifying .readTags (.verify 0))) (fun t => !(t.ring 9).mismatch) = true
      ∧ answers (exec (.tags 9 4 0 6) (issued .verifying .readTags (.verify 0))) (fun t => (t.ring 9).mismatch) = true
      ∧ answers (exec (.tags 9 4 0 6) (issued .reading .read (.run 0))) (fun t => decide (t.dp.counters.late = 1)) = true := by
  decide +kernel

/-- Entry 9 of `issued`, of a lane in ABORTING, with blocks received. -/
def ending (op : DriveOp) (received : BitVec 64) : State :=
  let s := issued .aborting op (.run 0)
  { s with dp := { s.dp with ring := s.dp.ring.map (fun e => (e.1, { e.2 with received := received })),
                             errorRuns := [(3, 1)] } }

/-- After an end: the entry is FREE, and the run and the fault kind are as given. -/
def ended (run : Nat) (fault : Option FaultKind) (t : State) : Bool :=
  decide (t.ring 9 = RingEntry.free 4) && decide (t.dp.freeOrder.getLast? = some 9) && decide (t.errorRun 3 = run)
    && decide (t.mp.fault.map (fun c => c.offer.kind) = fault) && decide ((t.lane 0).commands = 1)

theorem test_CommandEnds :
    (ending .read 3).errorRun 3 < 2 ∧ (ending .read 3).dp.waiting = [] ∧ ((ending .read 3).lane 0).state = .aborting
      ∧ answers (exec (.endMessage 9 4 .good) (ending .read 3)) (ended 0 none) = true
      ∧ answers (exec (.endMessage 9 4 .good) (ending .write 0)) (ended 1 none) = true
      ∧ answers (exec (.endMessage 9 4 .good) (ending .read 1)) (ended 1 (some .driveMedia)) = true
      ∧ answers (exec (.endMessage 9 4 (.media 2049)) (ending .read 0)) (ended 1 (some .driveMedia)) = true
      ∧ answers (exec (.endMessage 9 4 .noDevice) (ending .read 0)) (ended 2 (some .driveNoDevice)) = true
      ∧ answers (exec (.endMessage 9 3 .good) (ending .read 3)) (fun t => decide (t.dp.counters.late = 1)) = true
      ∧ ((issued .reading .read (.run 0)).lane 0).commands = 2
      ∧ answers (exec (.endMessage 9 4 (.media 2048)) (issued .reading .read (.run 0))) (fun t =>
          ended 0 (some .driveMedia) t && decide ((t.lane 0).work.lost = [0])) = true := by decide +kernel

theorem test_CommandTimesOut :
    ((ending .read 0).ring 9).deadline ≤ small.clock.now ∧ ((ending .read 0).ring 8).cmd = none
      ∧ answers (exec (.commandTimeout 9) (ending .read 0)) (fun t =>
          ended 2 (some .driveTimeout) t && decide (t.dp.sent = [.cancel 9 4])
            && decide (t.dp.counters.timeouts = 1)) = true
      ∧ gives (exec (.commandTimeout 8) (ending .read 0)) (ending .read 0) = true := by decide +kernel

/-- The part with its flush sent so many times, the last at a time. -/
def flushing (tries at' : Nat) (waiting : List Cmd) : State :=
  { small with dp := { small.dp with flush := .waiting tries at', waiting := waiting } }

theorem test_FlushAnsweredOrRetried :
    gives (exec .flushAnswer small) small = true ∧ gives (exec .flushRetry small) small = true
      ∧ gives (exec .flushAnswer (flushing 1 4000000 [])) small = true
      ∧ small.dp.freeOrder = 0 :: (List.range 127).map (· + 1) ∧ 0 ∉ (List.range 127).map (· + 1)
      ∧ (small.bay 0).present = true
      ∧ answers (exec .flushAnswer (flushing 1 4000000 [checkCmd 0])) (fun t =>
          decide (t.dp.sent = [.command 0 1 0 .read 0 1]) && decide (t.dp.waiting = [])) = true
      ∧ answers (exec .flushRetry (flushing 2 4000000 [])) (fun t =>
          decide (t.dp.flush = .waiting 3 5000000) && decide (t.dp.sent = [.flush])) = true
      ∧ answers (exec .flushRetry (flushing 3 4000000 [])) (fun t =>
          decide (t.dp.flush = .answered) && t.mp.fault.isSome) = true
      ∧ gives (exec .flushRetry (flushing 1 4000001 [])) (flushing 1 4000001 []) = true := by decide +kernel

/-! ## The management bus -/

/-- The small part with a transaction to an address that began at a time, the shelf in a state. -/
def polling (address start : Nat) (e : Shelf) : State :=
  { small with sm := { small.sm with transaction := some (address, start),
                                     shelves := tableWrite Shelf.unseen [] address e } }

/-- The answer of a shelf whose first so many bays hold drives of 5000000 blocks. -/
def shelfBytes (drives : Nat) : List Byte :=
  let body : List Byte := 0 :: (List.range 16).flatMap (fun i =>
    if i < drives then 7 :: beBytes 6 5000000 else List.replicate 7 0)
  body ++ [complementSum body]

theorem test_ShelvesPolled :
    (shelfBytes 8).length = 114 ∧ (shelfBytes 8).getD 113 0 = complementSum ((shelfBytes 8).take 113)
      ∧ smallShelf.bays = (List.range 16).map (fun i => bayAt (shelfBytes 8) (1 + 7 * i))
      ∧ answers (exec .pollRoundStart small) (fun t => decide (t.sm.transaction = some (0, 5000000))) = true
      ∧ gives (exec .pollRoundStart (polling 0 0 smallShelf)) (polling 0 0 smallShelf) = true
      ∧ gives (exec (.statePollEnd .noAck) small) small = true
      ∧ answers (exec (.statePollEnd (.bytes (shelfBytes 8))) (polling 0 4995000 smallShelf)) (fun t =>
          decide ((t.shelf 0).lastGood = some 5000000) && decide (t.sm.transaction = some (1, 5000000))
            && decide (t.mp.outbound = [])) = true
      ∧ answers (exec (.statePollEnd (.bytes (shelfBytes 8))) (polling 15 4995000 { smallShelf with state := .lost }))
          (fun t => decide (t.sm.transaction = none) && decide (t.mp.outbound = [.notice (.shelfUp 15 false 8)])) = true
      ∧ (small.member 8).state = .absent
      ∧ answers (exec (.statePollEnd (.bytes (shelfBytes 9))) (polling 0 4995000 smallShelf)) (fun t =>
          decide (t.member 8 = ⟨.present, 5000000, true, [], none⟩)
            && decide (t.mp.outbound = [.notice (.bayChange 8 Bay.cleared smallBay),
              .notice (.memberState 8 .absent .present)])) = true := by decide +kernel

/-- An UP shelf of clear bays with misses. -/
def emptyShelf (misses : Nat) : Shelf := { Shelf.unseen with state := .up, misses := misses }

theorem test_ShelvesMissed :
    (∀ i < 16, (emptyShelf 2).bays.getD i Bay.cleared = Bay.cleared) ∧ (emptyShelf 2).bays.length = 16
      ∧ (∀ i < 16, (small.member (15 * 16 + i)).state = .absent)
      ∧ answers (exec (.statePollEnd .noAck) (polling 3 4995000 Shelf.unseen)) (fun t =>
          decide (t.shelf 3 = Shelf.unseen) && decide (t.sm.counters.unanswered = 1)) = true
      ∧ answers (exec (.statePollEnd (.bytes [])) (polling 3 4995000 (emptyShelf 1))) (fun t =>
          decide ((t.shelf 3).misses = 2)) = true
      ∧ answers (exec (.statePollEnd (.bytes (shelfBytes 8))) (polling 3 4994999 (emptyShelf 1))) (fun t =>
          decide ((t.shelf 3).misses = 2)) = true
      ∧ answers (exec (.statePollEnd (.bytes (List.replicate 114 0))) (polling 3 4995000 (emptyShelf 1))) (fun t =>
          decide (t.sm.counters.badChecks = 1) && decide ((t.shelf 3).misses = 2)) = true
      ∧ answers (exec .transactionLimit (polling 15 4995000 (emptyShelf 2))) (fun t =>
          decide ((t.shelf 15).state = .lost) && decide (t.mp.outbound = [.notice (.shelfLost 15 0)])) = true
      ∧ gives (exec .transactionLimit (polling 3 4995001 (emptyShelf 2))) (polling 3 4995001 (emptyShelf 2)) = true := by
  decide +kernel

/-! ## The map store -/

/-- The small part with a record queued and an operation under way. -/
def storing (body : RecordBody) (owner : JOwner) (reply : Option ReqTag) (op : Record → StoreOp) (s : State) : State :=
  let r : Record := ⟨3, body, owner, reply⟩
  { s with jc := { s.jc with queue := [r], nextSeq := 4, op := some (op r) } }

/-- A read-back of the record under way. -/
def readingBack (r : Record) : StoreOp := .readBack 4990000 0 2 r

/-- What the read-back of a record's own page answers, at block 0 and page 2. -/
def durably (r : Record) (s : State) : Answer := conclude s (recordIsDurable 0 2 r s)

theorem readBackEnd_own (r : Record) (s : State) (h : s.jc.op = some (readingBack r)) :
    exec (.readBackEnd (pageBytes r.seq r.body)) s = durably r s := by
  simp [exec, execReadBackEnd, h, readingBack, readBackEnded, durably]

/-- The slab of `moving` COMMITTING, its lane in FINISHING, and another job waiting. -/
def committing : State :=
  let s := moving (fun l => { l with state := .finishing, commands := 0 })
  { s with
    pm := { s.pm with slabs := [(0, { smallSlab ⟨0, 0⟩ with state := .committing, target := some ⟨1, 0⟩, mark := true }),
      (1, smallSlab ⟨0, 1⟩)] },
    me := { s.me with jobs := [moveJob 1 2 false] } }

theorem test_RecordsBecomeDurable :
    (∀ b < 64, (small.storeBlock b).cond ≠ .awaiting) ∧ (small.storeBlock 0).cond = .head
      ∧ answers (exec (.pageProgramEnd true) (storing (.param .holdLife 20) .gu (some 1) (.program 4990000 0 2) small))
          (fun t => decide (t.jc.op = some (.readBack 5000000 0 2 ⟨3, .param .holdLife 20, .gu, some 1⟩))) = true
      ∧ answers (durably ⟨3, .param .holdLife 20, .gu, some 1⟩
          (storing (.param .holdLife 20) .gu (some 1) readingBack (asked .setParam 1 [2] small)))
          (fun t => decide (t.gu.holdLife = 20) && lastReply 1 .ok t && decide (t.jc.nextPage = 3)
            && decide (t.jc.durable.params.holdLife = 20) && decide (t.jc.op = none)) = true
      ∧ (committing.slot ⟨1, 0⟩).state = .target ∧ (committing.slot ⟨0, 0⟩).state = .home
      ∧ answers (durably ⟨3, .jobEnd 0 .move, .lane 0, none⟩
          (storing (.jobEnd 0 .move) (.lane 0) none readingBack committing))
          (fun t => decide (t.slab 0 = smallSlab ⟨1, 0⟩) && decide (t.slot ⟨1, 0⟩ = ⟨.home, 0, some 0, none⟩)
            && decide (t.slot ⟨0, 0⟩ = Slot.free) && decide (t.lane 0 = Lane.idle)
            && decide ((t.set 0).freeCount = 3) && decide (t.me.counters.movesCommitted = 1)) = true
      ∧ gives (exec (.pageProgramEnd true) small) small = true ∧ gives (exec (.readBackEnd []) small) small = true := by
  decide +kernel

/-- The small part erasing block 5. -/
def erasing (start : Nat) : State :=
  { small with jc := { small.jc with
    blocks := (0, ⟨.head, 0⟩) :: erasedBlocks.map (fun e => if e.1 = 5 then (5, ⟨.awaiting, 2⟩) else e),
    op := some (.erase start 5) } }

theorem test_StoreOperationsEnd :
    gives (exec .storeOpTimeout small) small = true ∧ gives (exec (.eraseEnd true) small) small = true
      ∧ 17 ≤ (erasing 3000000).usableBlocks ∧ ((erasing 3000000).storeBlock 5).cond ≠ .bad
      ∧ (∀ c ∈ [Instr.pageProgramEnd false, .storeOpTimeout],
          answers (exec c (storing (.param .holdLife 20) .gu none (.program 4950000 0 2) small)) (fun t =>
            decide (t.storeBlock 0 = ⟨.head, 1⟩) && decide (t.jc.nextPage = 3)
              && decide (t.jc.op = some (.program 5000000 0 3 ⟨3, .param .holdLife 20, .gu, none⟩))
              && t.mp.fault.isSome) = true)
      ∧ answers (exec (.readBackEnd [])
          (storing (.param .holdLife 20) .gu none readingBack small)) (fun t => decide (t.storeBlock 0 = ⟨.head, 1⟩)) = true
      ∧ (∀ c ∈ [Instr.eraseEnd false, .storeOpTimeout], answers (exec c (erasing 3000000)) (fun t =>
          decide ((t.storeBlock 5).cond = .bad)
            && decide (t.jc.op = some (.program 5000000 0 2 ⟨3, .blockRetire 5, .jc, none⟩))) = true)
      ∧ answers (exec (.eraseEnd true) (erasing 3000000)) (fun t =>
          decide (t.storeBlock 5 = ⟨.erased, 0⟩) && decide (t.jc.op = none)) = true
      ∧ gives (exec .storeOpTimeout (erasing 3000001)) (erasing 3000001) = true := by decide +kernel

/-! ## Start-up and FORMAT -/

/-- The pages of a store with an image of no entries and a PARAM record. -/
def scanPages : List (Nat × List Byte) :=
  [(0, pageBytes 1 (.imageBegin 7 Params.afterFormat 0 false ⟨0, 0, 0, 0, 0, 0⟩)), (1, pageBytes 2 (.imageEnd 1 0)),
    (2, pageBytes 3 (.param .holdLife 20))]

set_option maxRecDepth 20000 in
theorem test_JournalScanned :
    validPages [] = [] ∧ State.reset.jc.op = some (.scan 0)
      ∧ scanPages.map (fun p => judgePage p.2) = [.valid 1 (.imageBegin 7 Params.afterFormat 0 false ⟨0, 0, 0, 0, 0, 0⟩),
          .valid 2 (.imageEnd 1 0), .valid 3 (.param .holdLife 20)]
      ∧ answers (exec (.journalScan []) State.reset) (fun t =>
          decide (t.part = .blank none) && decide (t.stage = .firstRound)) = true
      ∧ answers (exec (.journalScan scanPages) State.reset) (fun t =>
          decide (t.part = .starting) && decide (t.pm.arrayId = 7) && decide (t.gu.holdLife = 20)
            && decide (t.jc.nextSeq = 4) && decide (t.jc.head = some 0) && decide (t.jc.nextPage = 3)
            && decide ((t.storeBlock 63).cond = .erased) && decide (t.sm.transaction = some (0, 0))) = true
      ∧ answers (exec .storeOpTimeout { State.reset with clock := ⟨50000, 1⟩ }) (fun t =>
          decide (t.part = .blank (some .storeFault)) && t.mp.fault.isSome) = true
      ∧ gives (exec .storeOpTimeout { State.reset with clock := ⟨49999, 1⟩ }) { State.reset with clock := ⟨49999, 1⟩ } = true
      ∧ gives (exec (.journalScan []) small) small = true := by decide +kernel

/-- The part at the end of a stage of its start-up, with one admitted member in bay 7 or 9. -/
def starting (stage : Stage) (members : List (Nat × Member)) : State :=
  { small with
    part := .starting, stage := stage, pm := { small.pm with members := members },
    jc := { small.jc with state := .none, admission := true } }

theorem test_StartUpEnds :
    (starting .firstRound []).membersToCheck = []
      ∧ (starting .firstRound [(9, smallMember .available [])]).membersToCheck = [9]
      ∧ ((starting .firstRound [(9, smallMember .available [])]).bay 9).present = false
      ∧ answers (exec .firstRoundEnd (starting .firstRound [])) (fun t => decide (t.stage = .labelChecks)) = true
      ∧ answers (exec .firstRoundEnd (starting .firstRound [(9, smallMember .available [])])) (fun t =>
          decide ((t.member 9).state = .failed) && decide (t.pm.held = [9])) = true
      ∧ answers (exec .firstRoundEnd (starting .firstRound [(7, smallMember .available [])])) (fun t =>
          decide (t.pm.checks = [7]) && decide (t.dp.sent = [.command 0 1 7 .read 0 1])) = true
      ∧ gives (exec .firstRoundEnd small) small = true ∧ gives (exec .fixUps small) small = true := by decide +kernel

theorem test_StartUpEnds_service :
    (starting .labelChecks []).jobsIdle = true ∧ tableWf Slab.unused small.pm.slabs = true
      ∧ 16 ≤ (starting .labelChecks []).usableBlocks ∧ (starting .labelChecks []).headSpent = false
      ∧ answers (exec .fixUps { starting .labelChecks [] with pm := { filling.pm with members := [] } }) (fun t =>
          decide (t.part = .ready) && decide (t.me.jobs = [{ moveJob 0 0 false with kind := .fill, resume := some 5 }])
            && decide (t.jc.state = .writing) && decide (t.mp.outbound = [.notice (.partState .ready)])) = true
      ∧ { starting .labelChecks [] with jc := { small.jc with
          blocks := (List.range 49).map (fun i => (i, ⟨.bad, 0⟩)) } }.usableBlocks < 16
      ∧ answers (exec .fixUps { starting .labelChecks [] with jc := { small.jc with
          blocks := (List.range 49).map (fun i => (i, ⟨.bad, 0⟩)) } }) (fun t =>
          decide (t.part = .frozen) && decide (t.mp.outbound = [.notice (.journalState .frozen (some .fewBlocks)),
            .notice (.partState .frozen)])) = true
      ∧ answers (exec .fixUps { starting .labelChecks [] with part := .blank none }) (fun t =>
          decide (t.part = .blank none) && decide (t.stage = .service)) = true := by decide +kernel

/-- A FORMAT of the small part under way: an erase, or the read-back of its IMAGE_END. -/
def formatting (erased : Bool) (op : StoreOp) : State :=
  { asked .format 1 [0, 0, 0, 0, 0, 0, 0, 7] small with
    part := .starting,
    jc := { small.jc with
      state := .none, format := some ⟨1, 7, erased⟩, op := some op,
      imageRecord := if erased then some ⟨2, .imageEnd 1 0, .jc, none⟩ else none, imageStart := some (1, 0) } }

theorem test_FormatTaken :
    (asked .format 1 [0, 0, 0, 0, 0, 0, 0, 7] (frozen small)).takeable .format 1
        = some ⟨1, .format, [0, 0, 0, 0, 0, 0, 0, 7], false⟩
      ∧ (frozen small).gu.deferred = [] ∧ (frozen small).entriesWhere (fun _ => true) = []
      ∧ tableWf (Hold.free 0) (holding .live .read 0).gu.holds = true
      ∧ answers (exec (.format 1) (asked .format 1 [0, 0, 0, 0, 0, 0, 0, 7] (frozen (holding .live .read 0)))) (fun t =>
          decide (t.part = .starting) && decide (t.jc.op = some (.erase 5000000 0)) && decide (t.hold 7 = Hold.free 5)
            && decide (t.pm = PlacementMap.reset) && decide (t.dp.sent = [.flush])) = true
      ∧ refusedWith (.format 1) .format (List.replicate 8 0) .badField (frozen small) = true
      ∧ refusedWith (.format 1) .format [0, 0, 0, 0, 0, 0, 0, 7] .wrongState small = true
      ∧ refusedWith (.format 1) .format [0, 0, 0, 0, 0, 0, 0, 7] .starting State.reset = true
      ∧ refusedWith (.format 1) .format [0, 0, 0, 0, 0, 0, 0, 7] .wrongState
          { small with part := .blank (some .storeFault) } = true
      ∧ answers (exec (.eraseEnd true) (formatting false (.erase 0 62))) (fun t =>
          decide (t.jc.op = some (.erase 5000000 63)) && decide ((t.storeBlock 62).cond = .erased)) = true
      ∧ answers (durably ⟨2, .imageEnd 1 0, .jc, none⟩ (formatting true (readingBack ⟨2, .imageEnd 1 0, .jc, none⟩))) (fun t =>
          decide (t.part = .ready) && decide (t.jc.state = .writing) && decide (t.pm.arrayId = 7)
            && lastReply 1 .ok t) = true := by decide +kernel

/-! ## Placement, tags and damage -/

theorem test_GeometryPlacesOffsets :
    exampleSet.positions.length = exampleSet.width ∧ (exampleSet.positions.map Position.member).Nodup := by decide

theorem test_DamageListKept :
    (damageAdd ⟨1, 10235, 5, .found⟩ damaged.me.damage).2 = 0 ∧ (damageAdd ⟨1, 20000, 5, .found⟩ damaged.me.damage).2 = 1
      ∧ damageSplits 1 10 5 damaged.me.damage = false ∧ (damageRemove 1 10 5 damaged.me.damage).length = 1023 := by
  decide +kernel

/-- A range of four blocks from 2³² − 2 touches an entry on either side: it joins both up to the largest count, and beyond it the
left one, or the right one where the left one alone would exceed it, or none (log 9). -/
theorem test_DamageListKept_merges :
    let d : Damage := ⟨1, 4294967294, 4, .found⟩
    let right (count : Nat) : Damage := ⟨1, 4294967298, count, .found⟩
    damageAdd d [⟨1, 10, 4294967284, .found⟩, right 7] = ([⟨1, 10, 4294967295, .found⟩], 0)
      ∧ damageAdd d [⟨1, 10, 4294967284, .found⟩, right 8] = ([⟨1, 10, 4294967288, .found⟩, right 8], 0)
      ∧ damageAdd d [⟨1, 3, 4294967291, .found⟩, right 1] = ([⟨1, 3, 4294967295, .found⟩, right 1], 0)
      ∧ damageAdd d [⟨1, 2, 4294967292, .found⟩, right 7]
          = ([⟨1, 2, 4294967292, .found⟩, ⟨1, 4294967294, 11, .found⟩], 0)
      ∧ damageAdd d [⟨1, 2, 4294967292, .found⟩, right 4294967292]
          = ([⟨1, 2, 4294967292, .found⟩, d, right 4294967292], 0)
      ∧ damageAdd d [⟨1, 10, 4294967284, .salvage⟩, right 7]
          = ([⟨1, 10, 4294967284, .salvage⟩, ⟨1, 4294967294, 11, .found⟩], 0)
      ∧ damageAdd ⟨1, 10235, 5, .found⟩ damaged.me.damage
          = (damageInsert ⟨1, 10230, 10, .found⟩ (removeFirst ⟨1, 10230, 5, .found⟩ damaged.me.damage), 0)
      ∧ damageAdd ⟨1, 20000, 5, .found⟩ damaged.me.damage = (damaged.me.damage, 1) := by
  decide +kernel

/-! ## Further clauses: the link and the Grant Unit -/

/-- A mirrored grant at the bounds of its fields. -/
def wideGrant : GrantReply := ⟨511, 65535, 3, 2 ^ 64 - 1, 4096, 16383, ⟨63, 1023⟩, .degraded, some (⟨0, 0⟩, .online), 120000⟩

theorem test_AnswerPlacesReply_bytes :
    (opened 73 (deferralFull small)).request 73 = none ∧ (73 : ReqTag) ∈ (opened 73 (deferralFull small)).mp.openTags
      ∧ (73 : ReqTag) ∉ small.mp.openTags
      ∧ (frameBytes 0x0102 9 (List.replicate 12 0)).take 7 = [0xC3, 0x00, 0x0C, 0x01, 0x02, 0x09, 0xE7]
      ∧ replyPayload .ok (.grant wideGrant) = [0, 1, 255, 255, 255, 3, 255, 255, 255, 255, 255, 255, 255, 255, 16, 0, 63, 255,
          63, 3, 255, 3, 1, 0, 0, 0, 2, 0, 0, 1, 0xD4, 0xC0]
      ∧ (replyPayload .ok (.grant { wideGrant with target := none })).drop 22 = [0, 0, 0, 0, 0, 0, 0, 1, 0xD4, 0xC0] := by decide +kernel

/-- The small part with 4096 bytes, or so many fewer, in its FIFO, and a receiver. -/
def stuffed (free : Nat) (r : Receiver) : State :=
  { small with mp := { small.mp with
    fifo := (List.range 4).map (fun _ => ⟨1, 2, List.replicate 1008 0⟩) ++ [⟨1, 2, List.replicate (9 - free) 0⟩],
    receiver := r } }

/-- The small part with room for a frame of so many bytes in its FIFO. -/
def roomFor (free : Nat) : State :=
  { small with mp := { small.mp with fifo := (List.range 4).map (fun _ => ⟨1, 2, List.replicate (1010 - free) 0⟩)
    ++ [⟨1, 2, List.replicate (free * 3 + 1) 0⟩] } }

theorem test_ReceiverJudgesFrames_overruns :
    (stuffed 1 .hunting).mp.used + 1 = 4096 ∧ (stuffed 3 (.header [0] false)).mp.used + 2 + 1 = 4096
      ∧ (stuffed 7 (.header [0, 2, 0, 1, 2] false)).mp.used + 7 = 4096
      ∧ (receiveByte 0xC3 (stuffed 0 .hunting)).mp.receiver = .header [] true
      ∧ (receiveByte 0xC3 (stuffed 1 .hunting)).mp.receiver = .header [] true
      ∧ (receiveByte 0xC3 (stuffed 2 .hunting)).mp.receiver = .header [] false
      ∧ (receiveByte 0 (stuffed 3 (.header [0] false))).mp.receiver = .header [0, 0] true
      ∧ (receiveByte 0 (stuffed 4 (.header [0] false))).mp.receiver = .header [0, 0] false
      ∧ (receiveByte 0xFA (stuffed 7 (.header [0, 2, 0, 1, 2] false))).mp.receiver = .discarding 6
      ∧ (receiveByte 0xFB (stuffed 7 (.header [0, 2, 0, 1, 2] false))).mp.receiver = .hunting
      ∧ (receiveByte 0 (stuffed 2 (.header [0xC3, 1, 2, 3, 4] true))).mp.receiver = .header [1, 2, 3, 4, 0] true
      ∧ (receiveByte 0 (receiving (.header [1, 0xC3, 2, 3, 4] false))).mp.receiver = .header [2, 3, 4, 0] false
      ∧ (receiveByte 0xFA (stuffed 6 (.header [0, 2, 0, 1, 2] true))).mp.receiver = .discarding 6
      ∧ (receiveByte 7 (receiving (.payload [0, 2, 0, 1, 2, 0xFA] [1]))).mp.receiver = .payload [0, 2, 0, 1, 2, 0xFA] [1, 7]
      ∧ (receiveByte 7 (stuffed 9 (.payload [0, 2, 0, 1, 2, 0xFA] [1]))).mp.receiver = .discarding 4
      ∧ ((frameBytes 1 2 []).foldl (fun s b => receiveByte b s) (stuffed 9 .hunting)).mp.counters.overruns = 1
      ∧ (receive (frameBytes 1 2 []) (roomFor 11)).mp.used = 4096
      ∧ (receiveByte 7 (receiving (.discarding 2))).mp.receiver = .discarding 1
      ∧ (receive [1, 2] (receiving (.discarding 2))).mp.receiver = .hunting
      ∧ ((frameBytes 1 2 [0, 0]).foldl (fun s b => receiveByte b s) { small with draining := true }).mp.fifo = [] := by
  decide +kernel

/-- A MAP of row 0 against the watch of `watching`, with commands of the lane outstanding or none. -/
theorem test_MapGrantedMirrored_breaks :
    (∀ n ∈ [0, 2], overlapsRow ((watching true n).rowSet ((watching true n).lane 0)).width
        ((watching true n).rowSet ((watching true n).lane 0)).unit 0 31 31 = true
        ∧ (watching true n).laneOf 0 = some 0 ∧ ((watching true n).lane 0).lockout = false)
      ∧ answers (exec (.map 1) (asked .map 1 (mapPayload 1 1 1 31) (watching true 2)))
          (fun t => isMirrored t && decide ((t.lane 0).watch = some ⟨0, false⟩)) = true
      ∧ answers (exec (.map 1) (asked .map 1 (mapPayload 1 1 1 31)
          (moving (fun l => { l with watch := some ⟨0, true⟩, commands := 0 }))))
          (fun t => isMirrored t && decide ((t.lane 0).state = .backoff ∨ (t.lane 0).breaks = 1)) = true
      ∧ answers (exec (.map 1) (asked .map 1 (mapPayload 1 1 1 32) (watching true 2)))
          (fun t => isMirrored t && decide ((t.lane 0).watch = some ⟨0, true⟩)) = true := by decide +kernel

/-- The payload of an UNHOLD of hold 7 that lists members. -/
def unholdMembers (ids : List Byte) : List Byte := beBytes 2 7 ++ beBytes 2 5 ++ [1, BitVec.ofNat 8 ids.length] ++ ids

/-- The lane of `moving`, with a mirrored hold on its slab. -/
def movingHeld : State :=
  { moving id with gu := { small.gu with
      holds := [(7, { state := .live, generation := 5, volume := 1, first := 0, count := 8, slab := 0, access := .write,
                      home := ⟨0, 0⟩, target := some ⟨1, 0⟩, lifetime := 10000, deadline := 9000000 })] } }

theorem test_UnholdAnswered_members :
    answers (exec (.unhold 1) (asked .unhold 1 (unholdMembers [3]) movingHeld)) (fun t =>
        decide ((t.member 3).state = .failed) && decide ((t.lane 0).state = .aborting)
          && decide ((t.lane 0).cause = some .targetDegraded) && decide ((t.hold 7).state = .free)) = true
      ∧ movingHeld.laneOf 0 = some 0 ∧ (movingHeld.slab 0).target = some ⟨1, 0⟩
      ∧ (∀ m < 4, m ≠ 0 → (movingHeld.lane m).job.map Job.slab ≠ some 0)
      ∧ (locked.lane 0).state = .lockoutWait ∧ locked.writeOverlaps 0 0 3 16 = false
      ∧ (handle (.holdEnded 0 0 8 true) locked).lane 0 = (startAttempt 0 locked).lane 0
      ∧ ((handle (.holdEnded 0 0 8 false) (claiming.onLane 0 (fun l => { l with awaitedHolds := 2 }))).lane 0).awaitedHolds = 1
      ∧ (handle (.holdEnded 0 0 8 false) (claiming.onLane 0 (fun l => { l with awaitedHolds := 1 }))).jc.queue.map Record.body
          = [.jobBegin 0 ⟨1, 0⟩ false]
      ∧ ((handle (.targetWrite 0 ⟨1, 0⟩ [3]) (moving id)).lane 0).cause = some .targetWrite
      ∧ (handle (.targetWrite 0 ⟨1, 0⟩ [3]) (waitingJob (retainedJob none))).me.jobs = [retainedJob none]
      ∧ (handle (.targetWrite 0 ⟨1, 0⟩ [3]) { waitingJob (retainedJob none) with pm := (moving id).pm }).me.jobs
          = [retainedJob (some .targetWrite)] := by decide +kernel

/-- The counts of the small part with hold 7 are those that its holds give, and its sets count their FREE slots. -/
theorem test_DrainingSlotsFreed_tables : (holding .live .read 0).refsMatch ∧ small.freeMatches := by
  constructor
  · intro q
    have hs : (holding .live .read 0).slot q =
        tableRead Slot.free [(0, ⟨.home, 1, some 0, none⟩), (1, ⟨.home, 0, some 1, none⟩)] (slotKey q) := rfl
    have hn : (holding .live .read 0).namings q =
        (([⟨0, 0⟩] : List Place).filter (fun p => slotKey p = slotKey q)).length + 0 := rfl
    rw [hs, hn]
    generalize slotKey q = k
    rcases k with _ | _ | k <;> rfl
  · intro t
    by_cases h0 : t = 0
    · subst h0; decide +kernel
    · by_cases h1 : t = 1
      · subst h1; decide +kernel
      · have : small.set t = SetEntry.unused := by
          simp [small, State.set, tableRead]
          grind
        rw [this]; rfl

/-! ## Further clauses: the Placement Map -/

/-- A configuration request of tag 1 that waits for its record, in a part that has just frozen. -/
def waitingFor (w : PmWork) (s : State) : State :=
  { asked .grow 1 [] (frozen s) with pm := { s.pm with busy := some w } }

theorem test_ConfigurationFrozen_undo :
    refusedWith (.setParam 1) .setParam (paramPayload 0 4) .journalDown (frozen small) = true
      ∧ handle .pmFrozen small = small
      ∧ (∀ w ∈ [PmWork.failing 1 0, .joinFailed 1 7, .slabSize 1],
          (handle .pmFrozen (waitingFor w small)).pm = small.pm
            ∧ (handle .pmFrozen (waitingFor w small)).mp.outbound = [.reply 1 0x91 .journalDown .empty])
      ∧ ((handle .pmFrozen (waitingFor (.defining 1 1) small)).set 1) = SetEntry.unused
      ∧ ((handle .pmFrozen (waitingFor (.retiring 1 1) (small.setSet 1 { small.set 1 with retiring := true }))).set 1)
          = small.set 1
      ∧ (handle .pmFrozen (waitingFor (.creating 1 0) (small.setVolume 0 ⟨.unused, 8, 4, 0, 0, 1⟩))).volume 0 = Volume.unused
      ∧ (handle .pmFrozen (waitingFor (.releasing 1 6 (small.member 6)) (small.setMember 6 (small.member 7)))).member 6
          = small.member 6
      ∧ (handle .pmFrozen (waitingFor (.growing ⟨1, 1, 2, 3, 7, [⟨0, ⟨0, 0⟩⟩]⟩) small)).slot ⟨0, 0⟩ = Slot.free
      ∧ ((handle .pmFrozen (waitingFor (.growing ⟨1, 1, 2, 3, 7, [⟨0, ⟨0, 0⟩⟩]⟩) small)).volume 1).pool = 7
      ∧ ((handle .pmFrozen (waitingFor (.joining 1 7 (some 3) false false)
          (small.setMember 7 { small.member 7 with state := .joining }))).member 7).state = .present := by decide +kernel

/-- The label of a member of array 7. -/
def storedLabel (id seq : Nat) : Block := taggedBlock (labelData 7 id seq) ⟨.label, id, 0⟩

/-- An admission of member 7 whose label WRITE or READ is in entry 9, in the journal's own WRITING. -/
def joining (durable : Bool) (op : DriveOp) : State :=
  let s := small.setMember 7 { small.member 7 with state := .joining }
  { s with
    pm := { s.pm with busy := some (.joining 1 7 (some 3) false durable) },
    dp := { s.dp with
      freeOrder := s.dp.freeOrder.filter (fun f => f ≠ 9), labels := [(4, storedLabel 7 3)],
      labelFree := s.dp.labelFree.filter (fun f => f ≠ 4),
      ring := [(9, { generation := 4,
                     cmd := some { owner := .admission, use := .label, member := 7, op := op, dbn := 0, count := 1,
                                   pages := .label (some 4), context := none, labelBlock := none },
                     deadline := 5000000, received := 1, mismatch := false })] } }

/-- A start-up check of member 6 in entry 9, that reads a label. -/
def checking (b : Block) : State :=
  { small with
    part := .starting, stage := .labelChecks, pm := { small.pm with checks := [6] },
    jc := { small.jc with state := .none },
    dp := { small.dp with
      freeOrder := small.dp.freeOrder.filter (fun f => f ≠ 9), labels := [(4, b)],
      labelFree := small.dp.labelFree.filter (fun f => f ≠ 4),
      ring := [(9, { generation := 4, cmd := some { checkCmd 6 with pages := .label (some 4) }, deadline := 5000000,
                     received := 1, mismatch := false })] } }

/-- A label as stored agrees, and an all-zero block does not, whatever the guards are. -/
theorem test_CommandEnds_agreement :
    labelAgrees (storedLabel 6 1) 7 6 1 = true ∧ labelAgrees (storedLabel 7 3) 7 7 3 = true
      ∧ labelAgrees Block.zero 7 7 3 = false := by
  have corrupt (g : BitVec 16) : Block.zero.tag ≠ tagBits g (labelPlace 7) := by
    intro h
    have k : Block.zero.tag.getLsbD 44 = true := by
      rw [h, tagBits, BitVec.getLsbD_append, BitVec.getLsbD_append, BitVec.getLsbD_append]
      simp [labelPlace, TagKind.code]
    exact absurd k (by decide)
  have good (id seq : Nat) : checkTag (storedLabel id seq) (labelPlace id) = .good := if_pos rfl
  refine ⟨?_, ?_, ?_⟩
  · rw [labelAgrees, good]; decide +kernel
  · rw [labelAgrees, good]; decide +kernel
  · simp [labelAgrees, checkTag, corrupt]

theorem test_CommandEnds_labels :
    (joining true .write).pm.busy = some (.joining 1 7 (some 3) false true) ∧ ((joining true .write).member 7).state = .joining
      ∧ (joining true .read).pm.arrayId = 7 ∧ (checking Block.zero).pm.arrayId = 7
      ∧ ((checking Block.zero).member 6).labelSeq = some 1 ∧ ((checking Block.zero).member 6).state = .available
      ∧ answers (exec (.endMessage 9 4 .good) (asked .joinMember 1 [7] (joining true .write))) (fun t =>
          decide ((t.ring 0).cmd.map Cmd.op = some .read) && decide ((t.member 7).state = .joining)) = true
      ∧ (∀ c ∈ [Instr.endMessage 9 4 (.media 0), .commandTimeout 9],
          answers (exec c (asked .joinMember 1 [7] (joining true .read))) (fun t =>
            decide ((t.member 7).state = .present) && decide (t.pm.busy = some (.joinFailed 1 7))
              && decide (t.jc.queue.map Record.body = [.member 7 .unadmitted])) = true)
      ∧ answers (exec (.commandTimeout 9) (checking Block.zero)) (fun t =>
          decide ((t.member 6).state = .failed) && decide (t.pm.held = [6]) && decide (t.dp.sent = [.cancel 9 4])) = true := by
  decide +kernel

theorem test_CommandEnds_journal : (joining true .read).journalOpen := by
  unfold State.journalOpen
  decide +kernel

/-! ## Further clauses: the lanes -/

/-- The lane of `issued` with its one command, its work as given. -/
def atWork (state : LaneState) (op : DriveOp) (use : CmdUse) (work : RowWork) : State :=
  (issued state op use).onLane 0 (fun l => { l with work := work, commands := 1, pages := [0, 1, 2] })

def unsettled (failedOnce : List Nat) : RowWork := { RowWork.none with unsettled := [0, 1], failedOnce := failedOnce }

def rebuilding : RowWork := { RowWork.none with lost := [0], rebuilding := some 0 }

def laneCmd (op : DriveOp) (use : CmdUse) : Cmd := ((issued .reading op use).ring 9).cmd.getD (checkCmd 0)

/-- A command ends COMMAND_TIMEOUT. -/
def timesOut (s : State) (p : State → Bool) : Bool :=
  answers (exec (.commandTimeout 9) s) (fun t => p t && decide (t.dp.sent.head? = some (.cancel 9 4))
    && decide (t.dp.counters.timeouts = 1))

theorem test_CommandTimesOut_lanes :
    timesOut (issued .reading .read (.run 0)) (fun t => decide ((t.lane 0).work.lost = [0]) && decide ((t.lane 0).commands = 1))
        = true
      ∧ (∀ v ∈ [none, some 1], ((handle (.completed ⟨laneCmd .read (.rebuild v), .timeout, 0,
          false, none⟩) (issued .recovering .read (.rebuild v))).lane 0).commands = 1)
      ∧ (∀ o ∈ [(DriveOp.write, CmdUse.write 0), (.readTags, .verify 0)],
          timesOut (atWork .verifying o.1 o.2 (unsettled [])) (fun t => decide ((t.lane 0).work.failedOnce = [0])
            && decide ((t.ring 0).cmd.map Cmd.op = some .write)) = true
          ∧ timesOut (atWork .verifying o.1 o.2 (unsettled [0])) (fun t => decide ((t.lane 0).state = .aborting)
            && decide ((t.lane 0).cause = some .targetVerify)) = true) := by decide +kernel

/-- How a block is judged by its tag, whatever its guard is. -/
theorem judged (p : TagPlace) (data : BlockData) :
    checkTag (taggedBlock data p) p = .good ∧ checkTag (poisonBlock p) p = .poisoned
      ∧ (p.owner % 2 = 1 → checkTag Block.zero p = .corrupt) := by
  have low (g : BitVec 16) : (tagBits g p).getLsbD 48 = g.getLsbD 0 := by
    rw [tagBits, BitVec.getLsbD_append, BitVec.getLsbD_append, BitVec.getLsbD_append]
    simp
  have other (g : BitVec 16) : tagBits (~~~g) p ≠ tagBits g p := by
    intro h
    have k : (tagBits (~~~g) p).getLsbD 48 = (tagBits g p).getLsbD 48 := by rw [h]
    rw [low, low] at k
    simp at k
  have zero (h : p.owner % 2 = 1) (g : BitVec 16) : Block.zero.tag ≠ tagBits g p := by
    intro e
    have k : Block.zero.tag.getLsbD 32 = true := by
      rw [e, tagBits, BitVec.getLsbD_append, BitVec.getLsbD_append]
      simp [-BitVec.getLsbD_eq_getElem, BitVec.getLsbD_ofNat, h]
    exact absurd k (by decide)
  exact ⟨if_pos rfl, by simp [checkTag, poisonBlock, other], fun h => by simp [checkTag, zero h]⟩

/-- Lane 0 at row 0 of `moving` with three pages; the blocks of its command stand at positions 7 and 8. -/
def reading (state : LaneState) (use : CmdUse) (work : RowWork) (first second : Block) : State :=
  let s := atWork state .read use work
  { s with sp := { s.sp with memory := [(7, first), (8, second)] } }

def dataAt (i : Nat) : TagPlace := ⟨.data, 1, i⟩
def parityHere : TagPlace := ⟨.parity, 0, 0⟩

/-- The blocks of a run: a GOOD one and a CORRUPT one, at the places that they are checked against. -/
def runRead : State := reading .reading (.run 0) RowWork.none (taggedBlock 0 (dataAt 0)) Block.zero

def unitRead : State := reading .recovering (.rebuild (some 1)) rebuilding (poisonBlock (dataAt 16)) (taggedBlock 0 (dataAt 17))

def parityRead : State := reading .recovering (.rebuild none) rebuilding (taggedBlock 0 parityHere) (poisonBlock parityHere)

def placeIn (u : State) (offset : Nat) : TagPlace :=
  dataTagPlace u.slabBlocks (u.slab (u.lane 0).slab).volume (u.volumeSlab (u.lane 0).slab)
    (u.set (u.homePlace (u.lane 0)).set).rows offset

theorem test_CommandEnds_blocks :
    (placeIn runRead (max (runRead.rowBase (runRead.lane 0)) (0 * 16) + 0) = dataAt 0
        ∧ placeIn runRead (max (runRead.rowBase (runRead.lane 0)) (0 * 16) + 1) = dataAt 1)
      ∧ (placeIn unitRead (1 * 16 + 0) = dataAt 16 ∧ placeIn unitRead (1 * 16 + 1) = dataAt 17)
      ∧ (parityTagPlace (parityRead.homePlace (parityRead.lane 0)).set (0 / 2) = parityHere)
      ∧ (checkTag (runRead.staged 7) (dataAt 0) = .good ∧ checkTag (runRead.staged 8) (dataAt 1) = .corrupt)
      ∧ (checkTag (unitRead.staged 7) (dataAt 16) = .poisoned ∧ checkTag (unitRead.staged 8) (dataAt 17) = .good)
      ∧ (checkTag (parityRead.staged 7) parityHere = .good ∧ checkTag (parityRead.staged 8) parityHere = .poisoned) :=
  ⟨by decide +kernel, by decide +kernel, by decide +kernel, ⟨(judged (dataAt 0) 0).1, (judged (dataAt 1) 0).2.2 rfl⟩,
    ⟨(judged (dataAt 16) 0).2.1, (judged (dataAt 17) 0).1⟩, (judged parityHere 0).1, (judged parityHere 0).2.1⟩


/-- The command of a state has brought both blocks, and a tag that differs or none. -/
def brought (mismatch : Bool) (s : State) : State :=
  { s with dp := { s.dp with ring := s.dp.ring.map (fun e => (e.1, { e.2 with received := 3, mismatch := mismatch })) } }

def endsGood (mismatch : Bool) (s : State) (p : State → Bool) : Bool :=
  answers (exec (.endMessage 9 4 .good) (brought mismatch s)) p

/-- The lane at its writes, its watch BROKEN. -/
def breaking (s : State) : State := s.onLane 0 (fun l => { l with watch := some ⟨0, false⟩ })

theorem test_CommandEnds_writes :
    endsGood false (atWork .writing .write (.write 0) (unsettled [])) (fun t =>
        decide ((t.lane 0).state = .verifying) && decide ((t.ring 0).cmd.map Cmd.op = some .readTags)) = true
      ∧ endsGood false (breaking (atWork .writing .write (.write 0) (unsettled []))) (fun t => decide ((t.lane 0).breaks = 1)) = true
      ∧ endsGood false (atWork .verifying .readTags (.verify 0) (unsettled [])) (fun t =>
          decide ((t.lane 0).work.unsettled = [1]) && decide (t.errorRun 3 = 0)) = true
      ∧ endsGood true (atWork .verifying .readTags (.verify 0) (unsettled [])) (fun t =>
          decide ((t.lane 0).work.failedOnce = [0]) && decide (t.me.counters.verifyRewrites = 1)) = true
      ∧ endsGood true (atWork .verifying .readTags (.verify 0) (unsettled [0])) (fun t =>
          decide ((t.lane 0).cause = some .targetVerify) && decide (t.errorRun 3 = 1)
            && decide (t.mp.fault.map (fun c => c.offer.kind) = some .verifyMismatch)) = true
      ∧ answers (exec (.endMessage 9 4 .noDevice) { issued .reading .read (.run 0) with
          dp := { (issued .reading .read (.run 0)).dp with errorRuns := [(3, 2)] } }) (fun t =>
          decide ((t.member 3).state = .failed) && decide (t.errorRun 3 = 3)) = true := by decide +kernel

/-- The slab of `atWork` FILLING, in a lane of its own. -/
def fillAt (state : LaneState) (work : RowWork) : State :=
  let s := atWork state .readTags (.verify 0) work
  { (s.onLane 0 (fun l => { l with job := some { moveJob 0 0 false with kind := .fill }, target := none })) with
    pm := { small.pm with slabs := [(0, { smallSlab ⟨0, 0⟩ with state := .filling, mark := true }), (1, smallSlab ⟨0, 1⟩)] } }

theorem test_CommandEnds_fill :
    ((fillAt .verifying (unsettled [0])).lane 0).writes = true
      ∧ endsGood true (fillAt .verifying (unsettled [0])) (fun t => decide ((t.lane 0).work.failedOnce = [])
          && decide (t.errorRun 3 = 1) && decide ((t.lane 0).state = .writing)) = true
      ∧ endsGood true ((fillAt .verifying (unsettled [])).setMember 3 { smallMember .failed [] with bands := [⟨1, 2048⟩] })
          (fun t => decide ((t.lane 0).work.unsettled = [1])) = true
      ∧ endsGood false (fillAt .writing { unsettled [] with unsettled := [0], again := true }) (fun t =>
          decide ((t.lane 0).state ≠ .idle)) = true := by decide +kernel

/-! ## Further clauses: jobs -/

/-- A CANCEL_JOB of slab 0 is answered OK. -/
def cancels (s : State) (p : State → Bool) : Bool :=
  answers (exec (.cancelJob 1) (asked .cancelJob 1 [1, 0, 0, 0] s)) (fun t => lastReply 1 .ok { t with mp := { t.mp with
    outbound := t.mp.outbound.take 1 } } && p t)

theorem test_JobCancelled_lane :
    (moving id).laneOf 0 = some 0 ∧ (∀ j ∈ (moving id).me.jobs, j.slab ≠ 0) ∧ ((moving id).slab 0).mark = true
      ∧ cancels (moving id) (fun t => decide ((t.lane 0).state = .aborting) && decide ((t.lane 0).cause = some .cancelled)
          && decide (t.jc.queue.map Record.body = [.jobAbort 0])) = true
      ∧ cancels (claiming.onLane 0 (fun l => { l with beginQueued := true })) (fun t =>
          decide ((t.lane 0).state = .claiming) && decide ((t.lane 0).cause = some .cancelled)) = true
      ∧ (claiming.slot ⟨1, 0⟩).state = .target ∧ (claiming.slot ⟨1, 0⟩).refs = 0 ∧ (claiming.slot ⟨0, 0⟩).state = .home
      ∧ cancels claiming (fun t => decide (t.lane 0 = Lane.idle) && decide (t.slot ⟨1, 0⟩ = Slot.free)
          && !(t.slab 0).mark) = true
      ∧ refusedWith (.cancelJob 1) .cancelJob [1, 0, 0, 0] .wrongState (moving (fun l => { l with state := .finishing })) = true
      ∧ refusedWith (.cancelJob 1) .cancelJob [1, 0, 0, 0] .wrongState
          (claiming.onLane 0 (fun l => { l with cause := some .targetWrite })) = true
      ∧ refusedWith (.cancelJob 1) .cancelJob [1, 0, 0, 0] .wrongState
          (moving (fun l => { l with job := some { moveJob 0 0 false with kind := .fill } })) = true
      ∧ refusedWith (.cancelJob 1) .cancelJob [1, 0, 0, 0] .notFound (small.setMark 0 true) = true := by decide +kernel

/-- Lane 0 waits for a token with three pages, and lane 1 for three that are not at hand. -/
def pagesShort : State :=
  let s := between .waitToken false
  { s with
    me := { s.me with
      lanes := [(0, { (s.lane 0) with pages := [0, 1, 2] }),
        (1, { Lane.idle with state := .waitPages, job := some (moveJob 1 2 false) })],
      tokenOrder := [0], moveRate := 1 },
    sp := { s.sp with free := [], waiting := [(1, 3)] } }

theorem test_JobsPausedAndResumed_pages :
    (pagesShort.sp.free ++ pagesHeld pagesShort.me.lanes).Nodup ∧ tableWf Lane.idle pagesShort.me.lanes = true
      ∧ (∀ n < 4, (pagesShort.lane n).lockout = false)
      ∧ (∀ e ∈ pagesShort.sp.waiting, e.1 < 4 ∧ (pagesShort.lane e.1).state = .waitPages)
      ∧ answers (exec (.pauseJobs 1) (asked .pauseJobs 1 [] pagesShort)) (fun t =>
          decide ((t.lane 0).state = .paused) && decide ((t.lane 1).state = .paused) && decide (t.sp.free = [0, 1, 2])
            && decide (t.sp.waiting = []) && decide (t.me.tokenOrder = [])) = true
      ∧ (pauseLane 0 pagesShort).agenda = [.pagesGranted 1] ∧ ((pauseLane 0 pagesShort).lane 1).pages = [0, 1, 2]
      ∧ answers (exec (.resumeJobs 1) (asked .resumeJobs 1 [] { between .paused true with
          sp := { (between .paused true).sp with free := [4, 5, 6, 7] },
          me := { (between .paused true).me with moveRate := 1 } })) (fun t =>
          decide ((t.lane 0).state = .waitToken) && decide ((t.lane 0).pages = [4, 5, 6]) && decide (t.sp.free = [7])
            && decide (t.me.tokenOrder = [0])) = true := by decide +kernel

/-- The slabs of two waiting jobs are marked, and lane 0 is free to claim. -/
def fillWaits : State := { filling with sp := { filling.sp with free := [4, 5, 6, 7] }, me := { filling.me with moveRate := 1 } }

theorem test_LaneClaims_pages :
    fillWaits.jobSlabs.Nodup ∧ (∀ g ∈ fillWaits.jobSlabs, (fillWaits.slab g).mark = true)
      ∧ fillWaits.me.jobs.length + fillWaits.laneJobs + fillWaits.reservedPlaces ≤ 1024
      ∧ answers (exec (.laneClaim 3) fillWaits) (fun t =>
          decide ((t.lane 3).state = .waitToken) && decide ((t.lane 3).pages = [4, 5, 6]) && decide (t.sp.free = [7])
            && decide (t.me.tokenOrder = [3])) = true := by decide +kernel

/-- Lane 0 waits for its token with the pages of row 0. -/
def rowWaits (f : Lane → Lane) : State :=
  (moving id).onLane 0 (fun l => f { l with state := .waitToken, commands := 0, pages := [0, 1, 2] })

theorem test_RowsCommitOrBreak_row :
    0 ∉ (rowWaits id).me.tokenOrder ∧ ((rowWaits id).lane 0).moves = true
      ∧ (rowWaits id).writeOverlaps 0 0 3 16 = false
      ∧ 2 ≤ ((rowWaits id).set ((rowWaits id).homePlace ((rowWaits id).lane 0)).set).width
      ∧ (rowWaits id).laneRuns ((rowWaits id).lane 0) = [(0, 16), (16, 16)]
      ∧ ((handle (.rowStart 0) (rowWaits id)).lane 0).state = .reading ∧ ((handle (.rowStart 0) (rowWaits id)).lane 0).commands = 2
      ∧ ((handle (.rowStart 0) { rowWaits id with gu := (holding .live .write 9000000).gu }).lane 0).watch = some ⟨0, false⟩
      ∧ ((handle (.rowStart 0) { rowWaits (fun l => { l with lockout := true }) with
          gu := (holding .live .write 9000000).gu }).lane 0).watch = some ⟨0, true⟩
      ∧ ((handle (.rowStart 0) (fillAt .waitToken RowWork.none)).lane 0).work.unsettled = [0, 1, 2]
      ∧ ((handle (.settleLost 0) (atWork .reading .read (.run 0) RowWork.none)).lane 0).state = .writing
      ∧ ((handle (.settleLost 0) (atWork .reading .read (.run 0) { RowWork.none with lost := [0] })).sp.holder = some 0)
      ∧ ((handle (.settleLost 0) (atWork .reading .read (.run 0) { RowWork.none with lost := [0, 1] })).lane 0).work.lost = []
      ∧ ((handle (.settleLost 0) ((atWork .reading .read (.run 0) { RowWork.none with lost := [0] }).setMember 2
          { smallMember .failed [] with bands := [⟨0, 2048⟩] })).lane 0).work.damage = [⟨1, 0, 16, .sourceLost⟩] := by
  decide +kernel

/-- Lane 0 recovers unit 0 with the recovery set. -/
def recovers (work : RowWork) : State :=
  let s := atWork .recovering .read (.rebuild none) work
  { s with sp := { s.sp with holder := some 0, recoveryWait := [2] } }

theorem test_RowsCommitOrBreak_rebuild :
    ((handle (.recoveryGranted 0) (recovers { RowWork.none with lost := [0] })).lane 0).work.rebuilding = some 0
      ∧ ((handle (.recoveryGranted 0) (recovers { RowWork.none with lost := [0] })).lane 0).commands = 3
      ∧ (finishRebuild 0 (recovers rebuilding)).sp.holder = some 2
      ∧ (finishRebuild 0 (recovers rebuilding)).me.counters.reconstructions = 1
      ∧ ((finishRebuild 0 (recovers { rebuilding with badUnits := [1] })).lane 0).work.damage
          = [⟨1, 0, 16, .sourceLost⟩, ⟨1, 16, 16, .sourceLost⟩]
      ∧ (finishRebuild 0 (recovers { rebuilding with parityBad := true })).me.counters.poisonedBlocks = 16 := by
  decide +kernel

/-- The lane of a row, its pages and its sets, as the staged contents are stated. -/
theorem test_TagCheckOutcomes :
    let s := rowWaits id
    let l := s.lane 0
    l.pages.Nodup ∧ (∀ p ∈ l.pages, p < 192) ∧ l.pages.length * 16 = (s.rowSet l).width * (s.rowSet l).unit
      ∧ 2 ≤ (s.rowSet l).width ∧ l.job.isSome = true ∧ (s.set (s.homePlace l).set).width = 3
      ∧ (s.set (s.homePlace l).set).unit = 16 := by decide +kernel

/-! ## Further clauses: the journal -/

/-- The owner of a durable record acts. -/
def durableTold (body : RecordBody) (owner : JOwner) (reply : Option ReqTag) (s : State) : State :=
  handle (.recordDurable ⟨3, body, owner, reply⟩) s

/-- A configuration request of tag 1 waits for its record. -/
def busyWith (w : PmWork) (s : State) : State := { asked .grow 1 [] s with pm := { s.pm with busy := some w } }

/-- Members 5 to 7 for a set 63 that is PENDING; member 5 is ACTIVE, member 7 FAILED. -/
def defining (state5 state7 : MemberState) : State :=
  let s := spare.setSet 63 (smallSet .pending 4 [5, 6, 7])
  busyWith (.defining 1 63) { s with pm := { s.pm with
    members := [(5, smallMember state5 []), (6, smallMember .active [⟨0, 2048⟩]), (7, smallMember state7 [])] } }

theorem test_RecordsBecomeDurable_members :
    (durableTold (.param .moveRate 0) .me none { small with me := { rated.me with tokenOrder := [2, 1] } }).agenda
        = [.rowStart 2, .rowStart 1]
      ∧ ((durableTold (.member 7 (.admission 5000000 true)) .pm none
          (busyWith (.joining 1 7 (some 3) true false) (joining true .read))).member 7).state = .available
      ∧ (durableTold (.member 7 (.admission 5000000 true)) .pm none
          (busyWith (.joining 1 7 (some 3) false false) small)).pm.busy = some (.joining 1 7 (some 3) false true)
      ∧ lastReply 1 .driveError (durableTold (.member 7 .unadmitted) .pm (some 1) (busyWith (.joinFailed 1 7) small)) = true
      ∧ lastReply 1 .ok (durableTold (.member 6 .unadmitted) .pm (some 1) (busyWith (.releasing 1 6 Member.absent) small)) = true
      ∧ lastReply 1 .ok (durableTold (.member 0 .failed) .pm (some 1) (busyWith (.failing 1 0) small)) = true
      ∧ (((defining .active .failed).set 63).positions.map Position.member).Nodup
      ∧ ((durableTold (.setDefine 63 16 524288 []) .pm (some 1) (defining .active .failed)).set 63).state = .degraded
      ∧ ((durableTold (.setDefine 63 16 524288 []) .pm (some 1) (defining .available .active)).member 5).state = .active
      ∧ (defining .available .active).journalOpen
      ∧ ((durableTold (.setRetire 1) .pm (some 1) (busyWith (.retiring 1 1) small)).member 3)
          = smallMember .available []
      ∧ (durableTold (.volumeCreate 0 8 4 1) .pm (some 1)
          (busyWith (.creating 1 0) (small.setVolume 0 ⟨.unused, 8, 4, 0, 0, 1⟩))).volume 0 = ⟨.online, 8, 4, 0, 0, 1⟩
      ∧ (durableTold (.growClose 1) .pm (some 1) (busyWith (.growing ⟨1, 1, 2, 3, 3, [⟨2, ⟨0, 2⟩⟩]⟩) small)).me.jobs
          = [{ moveJob 2 0 false with kind := .fill }] := by
  unfold State.journalOpen
  decide +kernel

/-- The lane of `moving` with nothing outstanding, and its slab's fronts. -/
def fronted : State :=
  let s := moving (fun l => { l with state := .finishing, commands := 0, pages := [0, 1, 2] })
  { s with
    pm := { s.pm with slabs := [(0, { s.slab 0 with front := 9, persisted := 4 }), (1, smallSlab ⟨0, 1⟩)] },
    sp := { s.sp with free := [5] } }

theorem test_RecordsBecomeDurable_lanes :
    ((durableTold (.jobBegin 0 ⟨1, 0⟩ true) (.lane 0) none claiming).slab 0).state = .moving
      ∧ ((durableTold (.jobBegin 0 ⟨1, 0⟩ true) (.lane 0) none
          (claiming.onLane 0 (fun l => { l with cause := some .cancelled }))).lane 0).state = .aborting
      ∧ fronted.replacePending 0 = false ∧ ((durableTold (.front 0 8) (.lane 0) none fronted).slab 0).persisted = 8
      ∧ durableTold (.front 0 10) (.lane 0) none fronted = fronted
      ∧ ((durableTold (.jobEnd 0 .fill) (.lane 0) none { filling with sp := small.sp }).slab 0) = smallSlab ⟨0, 0⟩
      ∧ (fronted.slot ⟨1, 0⟩).state = .target ∧ (fronted.slot ⟨0, 0⟩).state = .home
      ∧ (durableTold (.jobEnd 0 .move) (.lane 0) none fronted).slab 0 = smallSlab ⟨1, 0⟩
      ∧ (durableTold (.jobAbort 0) (.lane 0) none fronted).slab 0 = smallSlab ⟨0, 0⟩
      ∧ (durableTold (.jobAbort 0) (.lane 0) none fronted).sp.free = [0, 1, 2, 5]
      ∧ lastReply 1 .ok (durableTold (.damageClear 1 0 1) .me (some 1) (asked .damageClear 1 [] small)) = true := by
  decide +kernel

/-- The small part that programs a record at its head for the third failure, with so many bad blocks. -/
def thirdFailure (bad : Nat) : State :=
  let s := storing (.param .holdLife 20) .gu none (.program 4950000 0 2) small
  { s with jc := { s.jc with blocks := (0, ⟨.head, 2⟩) :: (List.range 63).map (fun i =>
      (i + 1, if 63 - bad ≤ i then ⟨.bad, 3⟩ else ⟨.erased, 0⟩)) } }

/-- The head is spent, and so many blocks that follow it are ERASED, the others as given. -/
def spent (erased : Nat) (other : BlockCond) : State :=
  { small with jc := { small.jc with
    nextPage := 256,
    blocks := (0, ⟨.head, 0⟩) :: (List.range 63).map (fun i => (i + 1, if i < erased then ⟨.erased, 0⟩ else ⟨other, 0⟩)) } }

/-- The part compacting, nothing queued. -/
def compacting : State :=
  { small with jc := { small.jc with
      state := .compacting, admission := false,
      blocks := (0, ⟨.written, 0⟩) :: (1, ⟨.head, 0⟩) :: (List.range 7).map (fun i => (i + 2, ⟨.erased, 0⟩)),
      head := some 1, nextPage := 0 } }

theorem test_StoreOperationsEnd_blocks :
    (thirdFailure 0).followingBlock 0 = some 1 ∧ 9 ≤ ((thirdFailure 0).blocksIn .erased).length
      ∧ (thirdFailure 48).usableBlocks = 16
      ∧ answers (exec (.pageProgramEnd false) (thirdFailure 0)) (fun t =>
          decide (t.storeBlock 0 = ⟨.bad, 3⟩) && decide (t.jc.head = some 1) && decide ((t.storeBlock 1).cond = .head)
            && decide (t.jc.storePlace.map Record.body = [.blockRetire 0])
            && decide (t.jc.op = some (.program 5000000 1 0 ⟨3, .param .holdLife 20, .gu, none⟩))) = true
      ∧ answers (exec (.pageProgramEnd false) (thirdFailure 48)) (fun t =>
          decide (t.part = .frozen) && decide (t.jc.head = some 1) && decide (t.jc.cause = some .fewBlocks)
            && decide (t.jc.counters.discarded = 2)) = true
      ∧ ((openNext (spent 63 .erased)).jc.head = some 1 ∧ (openNext (spent 63 .erased)).jc.state = .writing)
      ∧ ((openNext (spent 8 .written)).jc.state = .compacting ∧ (openNext (spent 8 .written)).jc.admission = false)
      ∧ openNext (spent 0 .awaiting) = spent 0 .awaiting
      ∧ (openNext (spent 0 .written)).agenda = [.freeze .noErasedBlock]
      ∧ (spent 0 .bad).followingBlock 0 = none := by decide +kernel

def onJournal (f : Journal → Journal) (s : State) : State := { s with jc := f s.jc }

theorem test_StoreOperationsEnd_image :
    compacting.headSpent = false ∧ (kickStore compacting).jc.imageRecord.map Record.seq = some 3
      ∧ (kickStore compacting).jc.nextSeq = 4
      ∧ (kickStore compacting).jc.image = [.imageEnd 3 0]
      ∧ (kickStore (onJournal (fun j => { j with imageBuilt := true, image := [.imageEnd 3 0] }) compacting)).jc.imageRecord
          = some ⟨3, .imageEnd 3 0, .jc, none⟩
      ∧ Account.fresh.growth = none
      ∧ answers (durably ⟨4, .imageEnd 3 0, .jc, none⟩ (onJournal (fun j => { j with
          imageBuilt := true, imageStart := some (3, 1), nextSeq := 5, op := some (readingBack ⟨4, .imageEnd 3 0, .jc, none⟩),
          imageRecord := some ⟨4, .imageEnd 3 0, .jc, none⟩ }) compacting)) (fun t =>
          decide (t.jc.state = .writing) && t.jc.admission && decide (t.jc.newestImage = some (3, 1))) = true := by
  decide +kernel

theorem test_StoreOperationsEnd_freeze :
    small.jc.active = true ∧ (frozen small).jc.active = false
      ∧ (handle (.freeze .fewBlocks) (thirdFailure 0)).agenda = [.recordDiscarded ⟨3, .param .holdLife 20, .gu, none⟩,
          .laneFrozen 0, .laneFrozen 1, .laneFrozen 2, .laneFrozen 3, .pmFrozen]
      ∧ (handle (.recordDiscarded ⟨3, .param .holdLife 20, .gu, some 1⟩) (asked .setParam 1 [] small)).mp.openTags = []
      ∧ ((handle (.laneFrozen 0) claiming).lane 0 = Lane.idle) ∧ (handle (.laneFrozen 0) claiming).me.jobs = [moveJob 0 2 false]
      ∧ ((handle (.laneFrozen 0) (claiming.onLane 0 (fun l => { l with cause := some .cancelled }))).me.jobs = []) := by
  decide +kernel

/-- A store whose image lacks its page of number 2, and one with a record of another kind. -/
def gapPages : List (Nat × List Byte) := [(0, pageBytes 1 (.imageBegin 7 Params.afterFormat 0 false ⟨0, 0, 0, 0, 0, 0⟩)),
  (1, pageBytes 3 (.imageEnd 1 0))]

set_option maxRecDepth 20000 in
theorem test_JournalScanned_images :
    (∀ v ∈ distinctPages (validPages gapPages), imageOf (distinctPages (validPages gapPages)) v = none)
      ∧ answers (exec (.journalScan gapPages) State.reset) (fun t => decide (t.part = .blank none)) = true
      ∧ judgePage (pageBytes 3 (.member 5 (.admission 5000000 true))) = .valid 3 (.member 5 (.admission 5000000 true))
      ∧ answers (exec (.journalScan (scanPages.take 2 ++ [(2, pageBytes 3 (.member 5 (.admission 5000000 true)))])) State.reset)
          (fun t => decide (t.jc.nextSeq = 4) && decide (t.member 5 = ⟨.available, 5000000, true, [], some 3⟩)) = true
      ∧ small.sm.transaction = none ∧ gives (exec .transactionLimit small) small = true := by decide +kernel

/-! ## Further clauses: claims beyond the head job -/

/-- `filling` with its job at a front, in a pool that has pages. -/
def filledTo (front : Nat) : State :=
  filling.setSlab 0 { filling.slab 0 with front := front, persisted := front }

def fillJob : Job := { moveJob 0 0 false with kind := .fill }

/-- A state in which the home set of slab 0 has FAILED. -/
def homeFailed (s : State) : State := s.setSet 0 { s.set 0 with state := .failed, failedCount := 2 }

/-- Slab 0 MOVING at a front with its restart job waiting, no page at hand. -/
def restarted (front : Nat) (j : Job) : State :=
  let s := moving id
  { s.setSlab 0 { s.slab 0 with front := front, persisted := front } with
    me := { small.me with jobs := [j] }, sp := { small.sp with free := [] } }

/-- What lane 0 finds as it examines the jobs of a state. -/
def scanned (s : State) : State := claimScan 0 [] s.me.jobs s

theorem test_LaneClaims_lastFront :
    ((filledTo 8192).slab 0).front = ((filledTo 8192).set 0).rows
      ∧ answers (exec (.laneClaim 3) (filledTo 8192)) (fun t =>
          decide (t.lane 3 = { Lane.idle with state := .finishing, job := some fillJob, row := 8192 })
            && decide (t.jc.queue.map Record.body = [.jobEnd 0 .fill]) && decide (t.sp = (filledTo 8192).sp)) = true
      ∧ answers (exec (.laneClaim 3) (filledTo 8191)) (fun t => decide ((t.lane 3).state = .waitPages)) = true
      ∧ ((scanned (restarted 8192 (retainedJob none))).lane 0).state = .finishing
      ∧ (scanned (restarted 8192 (retainedJob none))).jc.queue.map Record.body = [.jobEnd 0 .move]
      ∧ ((scanned (restarted 8191 (retainedJob none))).lane 0).state = .waitPages := by decide +kernel

theorem test_LaneClaims_scan :
    (homeFailed filling).chooseSlot ((homeFailed filling).volume 1).pool = some ⟨1, 0⟩
      ∧ (let s := homeFailed { filling with pm := { filling.pm with volumes := [(1, ⟨.online, 0, 8, 2, 2, 0⟩)] } }
        s.chooseSlot (s.volume 1).pool = none ∧ scanned s = claimScan 0 [fillJob] [] s)
      ∧ (scanned (homeFailed (waitingJob (moveJob 0 2 false)))).mp.outbound
          = [.notice (.jobAborted 1 0 0 .move .sourceFailed 0)]
      ∧ ((scanned (homeFailed (waitingJob (moveJob 0 2 true)))).lane 0).state = .claiming
      ∧ (scanned (homeFailed filling)).slab 0 = { filling.slab 0 with home := ⟨1, 0⟩, front := 0, persisted := 0 }
      ∧ (scanned (homeFailed filling)).slot ⟨1, 0⟩ = ⟨.home, 0, some 0, some 0⟩
      ∧ (scanned (homeFailed filling)).slot ⟨0, 0⟩ = Slot.free ∧ (scanned (homeFailed filling)).sp.waiting = [(0, 3)]
      ∧ (scanned (homeFailed filling)).jc.queue.map Record.body = [.replace 0 ⟨1, 0⟩]
      ∧ (let s := { homeFailed filling with jc := { filling.jc with admission := false } }
        s.jc.active = true ∧ s.jc.hasRoom = false ∧ (scanned s).sp.waiting = [] ∧ ((scanned s).lane 0).state = .waitPages
          ∧ (scanned s).jc.roomWait = [(.lane 0, [⟨.replace 0 ⟨1, 0⟩, none⟩])])
      ∧ (handle (.recordQueued ⟨3, .replace 0 ⟨1, 0⟩, .lane 0, none⟩) small).me.counters.replacements = 1 := by
  decide +kernel

theorem test_LaneClaims_restart :
    slotKey ⟨1, 0⟩ ≠ slotKey ((restarted 5 (retainedJob none)).slab 0).home
      ∧ ((scanned (restarted 5 (retainedJob none))).lane 0).row = 5
      ∧ (scanned (restarted 5 (retainedJob none))).sp.waiting = [(0, 3)]
      ∧ ((scanned (restarted 5 (retainedJob (some .cancelled)))).lane 0).cause = some .cancelled
      ∧ ((scanned ((restarted 5 (retainedJob none)).setSet 1 (smallSet .degraded 3 [3, 4, 5]))).lane 0).cause
          = some .targetDegraded
      ∧ ((scanned (homeFailed (restarted 5 (retainedJob none)))).lane 0).cause = some .sourceFailed
      ∧ ((startAttempt 0 (between .reading true)).lane 0).state = .paused
      ∧ (startAttempt 0 { between .reading false with sp := { small.sp with free := [4, 5, 6, 7] } }).agenda
          = [.pagesGranted 0] := by decide +kernel

/-! ## Further clauses: changes of set state, the failure of a member, drives that go -/

/-- `fillAt` with members 0 and 2 FAILED as asked, and a command of lane 0 to each of some members waiting. -/
def degradedFill (state : LaneState) (unsettled : List Nat) (waiting : List CmdUse) : State :=
  let s := (fillAt state { RowWork.none with unsettled := unsettled }).setMember 2 { smallMember .failed [] with bands := [⟨0, 2048⟩] }
  { s with dp := { s.dp with waiting := waiting.map (fun u => { laneCmd .write u with member := 2 }) } }

theorem test_MemberFailed_lanes :
    ((handle (.setChanged 1 .degraded) (moving id)).lane 0).cause = some .targetDegraded
      ∧ ((handle (.setChanged 0 .failed) (moving id)).lane 0).cause = some .sourceFailed
      ∧ handle (.setChanged 0 .degraded) (moving id) = moving id
      ∧ handle (.setChanged 0 .failed) (moving (fun l => { l with job := some (moveJob 0 2 true) }))
          = moving (fun l => { l with job := some (moveJob 0 2 true) })
      ∧ ((fillAt .waitToken RowWork.none).slot ⟨0, 0⟩).state = .home
      ∧ ((handle (.setChanged 0 .failed) (fillAt .waitToken RowWork.none)).lane 0) = Lane.idle
      ∧ ((handle (.setChanged 0 .failed) (fillAt .waitToken RowWork.none)).me.jobs = [fillJob])
      ∧ handle (.setChanged 0 .failed) (fillAt .finishing RowWork.none) = fillAt .finishing RowWork.none
      ∧ handle (.setChanged 0 .degraded) (fillAt .waitToken RowWork.none) = fillAt .waitToken RowWork.none
      ∧ ((degradedFill .writing [0, 1, 2] []).lane 0).writes = true
      ∧ ((laneSetChanged 0 .degraded 0 (degradedFill .writing [0, 1, 2] [.write 2, .skipped])).lane 0).commands + 1
          = ((degradedFill .writing [0, 1, 2] []).lane 0).commands
      ∧ ((laneSetChanged 0 .degraded 0 (degradedFill .writing [0, 1, 2] [.write 2, .skipped])).lane 0).work.unsettled.length = 2
      ∧ (meetGrant 0 0 8 (let s := moving (fun l => { l with watch := some ⟨0, true⟩ })
          { s with dp := { s.dp with waiting := [laneCmd .read (.run 0), laneCmd .write .skipped] } })).dp.waiting = []
      ∧ ((meetGrant 0 0 8 (let s := moving (fun l => { l with watch := some ⟨0, true⟩ })
          { s with dp := { s.dp with waiting := [laneCmd .read (.run 0), laneCmd .write .skipped] } })).lane 0).commands = 1 := by
  decide +kernel

theorem test_MemberFailed_parts :
    ((small.member 0).bands.map Band.set).Nodup
      ∧ (failMember 3 none (issued .aborting .read (.run 0))).mp.outbound = [.notice (.memberState 3 .active .failed),
          .notice (.setState 1 .online .degraded 1), .notice (.fault ⟨laneFault .driveNoDevice 0 (laneCmd .read (.run 0)) 2048, 0, false⟩)]
      ∧ (failMember 3 none (issued .aborting .read (.run 0))).dp.sent = [.cancel 9 4]
      ∧ (recordFailure 3 none (starting .labelChecks [])).pm.held = [3]
      ∧ recordFailure 3 none (frozen small) = frozen small
      ∧ (handOver (laneCmd .read (.run 0)) (small.setMember 3 (smallMember .failed []))).agenda
          = [.completed ⟨laneCmd .read (.run 0), .noDevice, 0, false, none⟩] := by decide +kernel

/-- An answer of shelf 0 with drives of 5000000 blocks, but for the bay of member `id`, which is given. -/
def answerWith (id : Nat) (bay : List Byte) : List Byte :=
  let body : List Byte := 0 :: (List.range 16).flatMap (fun i =>
    if i = id then bay else if i < 8 then 7 :: beBytes 6 5000000 else List.replicate 7 0)
  body ++ [complementSum body]

/-- Shelf 0 answers so to a poll. -/
def shelfSays (id : Nat) (bay : List Byte) (s : State) (p : State → Bool) : Bool :=
  answers (exec (.statePollEnd (.bytes (answerWith id bay)))
    { s with sm := { s.sm with transaction := some (0, 4995000), shelves := [(0, smallShelf)] } }) p

theorem test_ShelvesPolled_drives :
    shelfSays 7 (7 :: beBytes 6 6000000) small (fun t => decide (t.member 7 = ⟨.present, 6000000, true, [], none⟩)
        && decide (t.mp.outbound.length = 3)) = true
      ∧ shelfSays 7 (List.replicate 7 0) small (fun t => decide (t.member 7 = Member.absent)) = true
      ∧ (∀ n < 4, (small.lane n).job = none) ∧ small.entriesWhere (fun c => decide (c.member = 3)) = []
      ∧ shelfSays 3 (List.replicate 7 0) small (fun t => decide ((t.member 3).state = .failed)
          && decide ((t.set 1).state = .degraded) && decide (t.jc.queue.map Record.body = [.member 3 .failed])
          && decide (t.mp.outbound = [.notice (.bayChange 3 smallBay Bay.cleared),
            .notice (.memberState 3 .active .failed), .notice (.setState 1 .online .degraded 1)])) = true
      ∧ (let s := small.setMember 7 { small.member 7 with state := .joining }
        shelfSays 7 (List.replicate 7 0) { s with pm := { s.pm with busy := some (.joining 1 7 none false false) } } (fun t =>
          decide (t.member 7 = Member.absent) && decide (t.pm.busy = some (.joinFailed 1 7))
            && decide (t.jc.queue.map Record.body = [.member 7 .unadmitted]))) = true
      ∧ (handle (.driveGone 7) (joining false .write)).dp.sent = [.cancel 9 4]
      ∧ handle (.driveAppeared 3 1 false) small = small
      ∧ (handle (.driveAppeared 7 1 false) small).member 7 = ⟨.present, 1, false, [], none⟩
      ∧ handle (.driveGone 9) small = small := by decide +kernel

/-- Shelf 0 lost: its three drives PRESENT, AVAILABLE and ACTIVE are reported, its clear bays too. -/
theorem test_ShelvesMissed_drives :
    smallShelf.bays.length = 16
      ∧ answers (exec .transactionLimit (polling 0 4995000 { smallShelf with misses := 2 })) (fun t =>
          decide ((t.shelf 0).state = .lost) && decide (t.member 7 = Member.absent) && decide ((t.member 6).state = .failed)
            && decide ((t.member 0).state = .failed) && decide ((t.set 0).state = .failed)
            && decide (t.mp.outbound.take 2 = [.notice (.shelfLost 0 8), .notice (.bayChange 0 smallBay Bay.cleared)])
            && decide (t.sm.counters.bayChanges = 8)) = true := by decide +kernel

/-! ## Further clauses: growths, labels, start-up -/

/-- The small part with room for many slabs in set 1. -/
def roomy : State :=
  { small with pm := { small.pm with
    sets := [(0, smallSet .online 2 [0, 1, 2]), (1, { smallSet .online 61 [3, 4, 5] with slots := 61 })],
    volumes := [(1, ⟨.online, 0, 80, 2, 2, 2⟩)] } }

set_option maxRecDepth 20000 in
theorem test_GrowthBegins_large :
    answers (exec (.grow 1) (asked .grow 1 [1, 0, 0, 63] roomy)) (fun t => decide (t.jc.queue.length = 4)
        && decide (t.jc.queue.getLast?.map Record.body = some (.growClose 2)) && decide ((t.set 1).freeCount = 0)) = true
      ∧ refusedWith (.grow 1) .grow [1, 0, 0, 64] .noSpace roomy = true
      ∧ growHomes 2 [2, 3] small = some ([⟨2, ⟨1, 0⟩⟩, ⟨3, ⟨1, 1⟩⟩], (small.takeSlot ⟨1, 0⟩ .home 2).takeSlot ⟨1, 1⟩ .home 3)
      ∧ (growHomes 2 [2, 3, 4, 5, 6] small).isNone = true
      ∧ (let s := { small with jc := { small.jc with admission := false } }
        s.jc.active = true ∧ s.jc.hasRoom = false ∧ s.waitsForRoom .pm = false
          ∧ answers (exec (.grow 1) (asked .grow 1 [1, 0, 0, 3] s)) (fun t => decide (t.jc.queue = [])
            && decide (t.jc.roomWait.map (fun e => e.2.length) = [3])) = true)
      ∧ (∀ k < 1, spare.slot ⟨63, k⟩ = Slot.free) := by decide +kernel

theorem test_BlocksOnDriveLink_label :
    answers (exec (.pull 9 4 0) { joining false .write with dp := { (joining false .write).dp with labels := [(4, ones)] } })
      (fun t => decide (t.dp.sent = [.pullAnswer 9 4 0 (BitVec.allOnes 32768) 5])) = true := by decide +kernel

theorem test_StartUpEnds_order :
    (starting .firstRound [(6, smallMember .available []), (7, smallMember .available []), (9, smallMember .available [])]).membersToCheck
        = [6, 7, 9]
      ∧ answers (exec .firstRoundEnd (starting .firstRound
          [(6, smallMember .available []), (7, smallMember .available []), (9, smallMember .available [])])) (fun t =>
          decide (t.pm.checks = [6, 7]) && decide (t.pm.held = [9])
            && decide (t.dp.sent = [.command 0 1 6 .read 0 1, .command 1 1 7 .read 0 1])) = true := by decide +kernel

/-- An exchange that posts another one: it is taken first. -/
theorem test_EveryCommandCompletes_exchanges :
    (handle (.driveGone 3) small).agenda.head? = some (.setChanged 1 .degraded)
      ∧ settle 1 { small with agenda := [.driveGone 3, .driveGone 9] }
        = { handle (.driveGone 3) small with agenda := (handle (.driveGone 3) small).agenda ++ [.driveGone 9] } := by
  decide +kernel

/-! ## Further clauses: a claim at every list kept, the end of a row, FORMAT, the image and what it loads -/

/-- The small part with slab 0 FILLING at row 5, pages free, and its FILL job. -/
def fillStarts (rate tokens : Nat) : State :=
  { fillWaits with me := { fillWaits.me with moveRate := rate, tokens := tokens } }

theorem test_LaneClaims_start :
    (∀ s ∈ [fillStarts 0 0, fillStarts 1 1],
        s.waitsForRoom (.lane 3) = false ∧ s.onPageList 3 = false ∧ s.sp.waiting = [] ∧ 3 ∉ s.me.tokenOrder
          ∧ answers (exec (.laneClaim 3) s) (fun t =>
              decide ((t.lane 3).state = .writing) && decide ((t.lane 3).commands = 3) && decide (t.sp.free = [7])
                && decide (t.me.tokens = 0)) = true)
      ∧ ((claimScan 3 [moveJob 9 2 false] (fillJob :: [moveJob 1 2 false]) filling).lane 3).row = 5
      ∧ (claimScan 3 [moveJob 9 2 false] (fillJob :: [moveJob 1 2 false]) filling).me.jobs = [moveJob 9 2 false, moveJob 1 2 false]
      ∧ ((claimScan 0 [fillJob] [moveJob 0 2 false] moveWaits).lane 0).awaitedHolds = 1
      ∧ (claimScan 0 [fillJob] [moveJob 0 2 false] moveWaits).me.jobs = [fillJob]
      ∧ ((claimScan 0 [fillJob] [moveJob 0 2 false] (waitingJob (moveJob 0 2 false))).jc.queue.map Record.body
          = [.jobBegin 0 ⟨1, 0⟩ false])
      ∧ (handle (.pagesGranted 0) ((rowWaits id).onLane 0 (fun l => { l with state := .waitPages }))).agenda = [.rowStart 0]
      ∧ ((handle (.recordQueued ⟨3, .jobBegin 0 ⟨1, 0⟩ false, .lane 0, none⟩) claiming).lane 0).beginQueued = true := by
  decide +kernel

/-- A lane without a job reports 0 as front, persisted front and row; a lane with one, its slab's (log 61 and 62). -/
theorem test_TableReadReplies_lane :
    (small.lane 3).job = none ∧ (small.laneView 3).front = 0 ∧ (small.laneView 3).persisted = 0
      ∧ (small.laneView 3).lane.row = 0 ∧ ((watching true 0).lane 0).job.isSome = true
      ∧ ((watching true 0).laneView 0).front = ((watching true 0).slab ((watching true 0).lane 0).slab).front := by
  decide +kernel

/-- The row of lane 0 of `watching`, with noted damage, a lockout and three pages, and lane 2 waiting for two of them. -/
def rowEnds : State :=
  let s := watching true 3
  let s := s.onLane 0 (fun l => { l with
    lockout := true, pages := [3, 4, 5], work := { RowWork.none with damage := [⟨1, 0, 16, .sourceLost⟩] } })
  { s with me := { s.me with ckptRows := 1, lanes := s.me.lanes ++ [(2, { Lane.idle with state := .waitPages })] },
           sp := { s.sp with free := [], waiting := [(2, 2)] } }

theorem test_RowsCommitOrBreak_commit :
    (rowEnds.lane 0).watch = some ⟨0, true⟩ ∧ rowEnds.journalOpen
      ∧ (commitCheck 0 rowEnds).jc.queue.map Record.body = [.damageAdd ⟨1, 0, 16, .sourceLost⟩, .front 0 1]
      ∧ .reevaluate 0 ∈ (commitCheck 0 rowEnds).agenda
      ∧ ((commitCheck 0 rowEnds).lane 2).pages = [3, 4] ∧ (commitCheck 0 rowEnds).sp.free = [5]
      ∧ (commitCheck 0 (frozen rowEnds)).me.damage = [⟨1, 0, 16, .sourceLost⟩]
      ∧ (commitCheck 0 (frozen rowEnds)).jc.queue = []
      ∧ ((commitCheck 0 (rowEnds.onLane 0 (fun l => { l with row := 8191, watch := some ⟨8191, true⟩ }))).jc.queue.map
          Record.body).getLast? = some (.jobEnd 0 .move)
      ∧ ((handle (.recordQueued ⟨3, .jobEnd 0 .move, .lane 0, none⟩) (watching true 3)).slab 0).state = .committing
      ∧ (handle (.recordQueued ⟨3, .damageAdd ⟨1, 0, 16, .found⟩, .lane 0, none⟩) small).me.damage = [⟨1, 0, 16, .found⟩] := by
  unfold State.journalOpen
  decide +kernel

theorem test_StoreOperationsEnd_unmade :
    (handle (.recordUnmade (.lane 0) ⟨.damageAdd ⟨1, 0, 16, .found⟩, none⟩) (frozen small)).me.damage = [⟨1, 0, 16, .found⟩]
      ∧ ((handle (.recordUnmade (.lane 0) ⟨.front 0 1, none⟩)
          (frozen ((rowWaits id).onLane 0 (fun l => { l with state := .waitPages, pages := [] })))).lane 0).pages = [0, 1, 2]
      ∧ (handle (.recordUnmade (.lane 0) ⟨.replace 0 ⟨1, 0⟩, none⟩) { frozen filling with
          me := { filling.me with lanes := [(0, { Lane.idle with state := .waitPages, job := some fillJob })] } }).sp.waiting
          = [(0, 3)]
      ∧ (handle (.recordUnmade (.lane 0) ⟨.jobBegin 0 ⟨1, 0⟩ false, none⟩) claiming).lane 0 = Lane.idle
      ∧ ({ Account.fresh with growth := some ⟨1, 2, 4, 3, [[⟨2, ⟨0, 2⟩⟩], [⟨3, ⟨1, 0⟩⟩]]⟩ }.imageParts.map List.length
          = [13, 4, 4]) := by decide +kernel

/-- The start-up of a part whose members 0 and 3 failed since its scan. -/
def heldFailures (n : Nat) : State :=
  { starting .labelChecks [] with pm := { filling.pm with members := [], held := (List.range n).map (· * 3) } }

theorem test_StartUpEnds_held :
    tableWf Volume.unused (heldFailures 2).pm.volumes = true ∧ (heldFailures 2).jc.head = some 0
      ∧ (heldFailures 2).headSpent = false ∧ (heldFailures 2).jc.nextSeq = 3
      ∧ answers (exec .fixUps (heldFailures 2)) (fun t =>
          decide (t.jc.queue.map Record.body = [.member 0 .failed, .member 3 .failed]) && decide (t.pm.held = [])
            && decide (t.jc.op = some (.program 5000000 0 2 ⟨3, .member 0 .failed, .pm, none⟩))
            && decide ((t.volume 1).ready = 0) && decide (t.part = .ready)) = true
      ∧ answers (exec .fixUps (heldFailures 34)) (fun t =>
          decide (t.jc.queue.length = 32) && decide (t.jc.nextSeq = 35)
            && decide (t.jc.roomWait = [(.pm, [⟨.member 96 .failed, none⟩, ⟨.member 99 .failed, none⟩])])) = true := by
  decide +kernel

/-- A FORMAT of the small part at its last erase, with so many blocks bad. -/
def formatEnds (bad : Nat) : State :=
  let s := formatting false (.erase 0 63)
  { s with jc := { s.jc with
      imageStart := none, blocks := (List.range 63).map (fun i => (i, if i < bad then ⟨.bad, 0⟩ else ⟨.erased, 0⟩)) } }

/-- The IMAGE_BEGIN of a FORMAT, being programmed at page 0 of block 0 with so many failed pages; so many other blocks usable. -/
def formatWrites (failed usable : Nat) : State :=
  let s := formatting true (.program 4990000 0 0 ⟨1, .imageBegin 7 Params.afterFormat 0 false ⟨0, 0, 0, 0, 0, 0⟩, .jc, none⟩)
  { s with jc := { s.jc with
      imageStart := none, nextSeq := 2, nextPage := 0,
      imageRecord := some ⟨1, .imageBegin 7 Params.afterFormat 0 false ⟨0, 0, 0, 0, 0, 0⟩, .jc, none⟩,
      blocks := (0, ⟨.head, failed⟩) :: (List.range 63).map (fun i => (i + 1, if i < usable then ⟨.erased, 0⟩ else ⟨.bad, 0⟩)) } }

theorem test_FormatTaken_erases :
    answers (exec (.eraseEnd false) (formatting false (.erase 0 62))) (fun t =>
        decide ((t.storeBlock 62).cond = .bad) && decide (t.jc.op = some (.erase 5000000 63)) && t.mp.fault.isSome
          && decide (t.jc.counters.eraseFailures = 1) && decide (t.jc.counters.retired = 1)) = true
      ∧ answers (exec .storeOpTimeout (formatEnds 2)) (fun t =>
          decide ((t.storeBlock 63).cond = .bad) && decide (t.storeBlock 2 = ⟨.head, 0⟩) && decide (t.jc.nextSeq = 2)
            && decide (t.jc.op = some (.program 5000000 2 0
              ⟨1, .imageBegin 7 Params.afterFormat 0x8000000000000003 false ⟨0, 0, 0, 0, 0, 0⟩, .jc, none⟩))) = true
      ∧ answers (exec (.eraseEnd true) (formatEnds 49)) (fun t =>
          decide (t.part = .blank (some .fewBlocks)) && lastReply 1 .journalDown t && decide (t.jc.format = none)
            && decide (t.pm.members = [])) = true
      ∧ answers (exec (.eraseEnd true) (formatEnds 48)) (fun t => decide (t.storeBlock 48 = ⟨.head, 0⟩)) = true := by
  decide +kernel

theorem test_FormatTaken_image :
    (formatWrites 2 16).usableBlocks = 17 ∧ (formatWrites 2 15).usableBlocks = 16
      ∧ (formatWrites 2 16).followingBlock 0 = some 1
      ∧ answers (durably ⟨1, .imageBegin 7 Params.afterFormat 0 false ⟨0, 0, 0, 0, 0, 0⟩, .jc, none⟩ (formatWrites 0 16)) (fun t =>
          decide (t.jc.op = some (.program 5000000 0 3 ⟨2, .imageEnd 1 0, .jc, none⟩)) && decide (t.jc.nextSeq = 3)
            && decide (t.jc.imageStart = some (1, 0))) = true
      ∧ answers (exec (.pageProgramEnd false) (formatWrites 0 16)) (fun t =>
          decide (t.storeBlock 0 = ⟨.head, 1⟩) && decide (t.jc.nextPage = 1)) = true
      ∧ answers (exec (.pageProgramEnd false) (formatWrites 2 16)) (fun t =>
          decide (t.jc.head = some 1) && decide (t.jc.storePlace.map Record.seq = [3])
            && decide (t.jc.op.isSome = true) && decide (t.jc.nextPage = 0)) = true
      ∧ answers (exec (.pageProgramEnd false) (formatWrites 2 15)) (fun t =>
          decide (t.part = .blank (some .fewBlocks)) && lastReply 1 .journalDown t && decide (t.jc.op = none)) = true := by
  decide +kernel

/-- A lasting state with an entry of each table, a range of damage and an open growth. -/
def lasting : Account :=
  { Account.fresh with
    arrayId := 7, params := { Params.afterFormat with slabSize := 1 }, bad := 6, lost := true,
    members := [(0, ⟨.active, 5000000, true, [⟨2, 2048⟩], some 1⟩), (1, ⟨.failed, 5000000, true, [⟨2, 2048⟩], some 2⟩),
      (2, ⟨.active, 5000000, false, [⟨2, 2048⟩], some 3⟩), (9, ⟨.available, 70000, true, [], some 4⟩)],
    sets := [(2, some ⟨16, 524288, [⟨0, 2048⟩, ⟨1, 2048⟩, ⟨2, 2048⟩]⟩)],
    volumes := [(1, ⟨.online, 0, 8, 2, 0, 4⟩)],
    slabs := [(0, ⟨.moving, 1, ⟨2, 0⟩, some ⟨2, 3⟩, 0, 5, false, true⟩), (1, ⟨.filling, 1, ⟨2, 1⟩, none, 0, 0, false, false⟩)],
    damage := [⟨1, 0, 16, .found⟩, ⟨1, 16, 4, .salvage⟩],
    growth := some ⟨1, 2, 4, 3, [[⟨2, ⟨2, 2⟩⟩]]⟩ }

theorem test_JournalScanned_image :
    readImage lasting.arrayId lasting.params lasting.bad lasting.lost lasting.imageCounts lasting.imageParts = lasting
      ∧ (imageAccount ⟨⟨0, 1, .imageBegin 7 Params.afterFormat 2 false ⟨0, 0, 0, 0, 0, 0⟩⟩, 3, [.blockRetire 4]⟩).bad = 18 := by
  decide +kernel

theorem test_JournalScanned_fits : lasting.fitsImage := by
  refine ⟨by decide +kernel, by decide +kernel, ?_, by decide +kernel, by decide +kernel, ?_, ?_⟩
  · intro e he d hd
    simp [lasting] at he
    subst he
    simp at hd
    subst hd
    decide
  · unfold damageFormed Damage.before Damage.stop
    decide +kernel
  · intro g hg
    simp [lasting, Account.fresh] at hg
    subst hg
    decide

theorem test_JournalScanned_load :
    tableWf none lasting.sets = true ∧ tableWf Slab.unused lasting.slabs = true ∧ tableWf Volume.unused lasting.volumes = true
      ∧ ((lasting.slabs.flatMap (fun e => e.2.home :: e.2.target.toList)).map slotKey).Nodup
      ∧ (let t := loadAccount lasting State.reset
        t.set 2 = ⟨.degraded, 3, 16, 524288, [⟨0, 2048⟩, ⟨1, 2048⟩, ⟨2, 2048⟩], 8192, 4, 1, 1, false⟩
          ∧ t.slot ⟨2, 3⟩ = ⟨.target, 0, some 0, none⟩ ∧ (t.slab 0).front = 5 ∧ (t.volume 1).ready = 1
          ∧ t.slot ⟨2, 2⟩ = Slot.free) := by decide +kernel

/-- A store whose head, block 3, is full, with block 4 as given, and the image begun in block 3. -/
def fullPages (b : Nat) (bytes : List Byte) : List (Nat × List Byte) := [(1023, [0]), (b * 256, bytes), (512, [0])]

theorem test_JournalScanned_ring :
    let f : FoundImage := ⟨⟨768, 1, .imageBegin 7 Params.afterFormat 0 false ⟨0, 0, 0, 0, 0, 0⟩⟩, 2, []⟩
    (setRing (fullPages 4 [255]) Account.fresh f 9 3 State.reset).jc.head = some 4
      ∧ (setRing (fullPages 4 [255]) Account.fresh f 9 3 State.reset).storeBlock 3 = ⟨.written, 0⟩
      ∧ (setRing (fullPages 4 [0]) Account.fresh f 9 3 State.reset).jc.head = some 3
      ∧ (setRing (fullPages 4 [0]) Account.fresh f 9 3 State.reset).jc.nextPage = 256
      ∧ (setRing (fullPages 4 [0]) Account.fresh f 9 3 State.reset).storeBlock 2 = ⟨.awaiting, 0⟩
      ∧ (setRing [(770, [0])] Account.fresh f 9 3 State.reset).jc.nextPage = 3 := by decide +kernel

/-- A restart that finds the head full and a WRITTEN block after it: PART_STATE of READY, and then the freeze (log 54). -/
theorem test_StartUpEnds_fullHead :
    answers (exec .fixUps { starting .labelChecks [] with jc := { (spent 0 .written).jc with state := .none } }) (fun t =>
      decide (t.part = .frozen) && decide (t.mp.outbound = [.notice (.partState .ready),
        .notice (.journalState .frozen (some .noErasedBlock))])) = true := by decide +kernel

/-- A frame of no request kind, refused for its tag, is answered with kind 0x80 (log 55). -/
theorem test_AcceptanceChecksInOrder_kind :
    (⟨0, 0x55, []⟩ : Frame).replyKind = 0x80 ∧ (⟨0, 2, [0, 0]⟩ : Frame).replyKind = 0x82 := by decide

/-- Lane 0 at its reads, with a lockout, the recovery set and a FRONT that waits for room behind another owner's record; lanes 2
and 3 wait for the set. -/
def aborts : State :=
  let s := moving (fun l => { l with state := .recovering, lockout := true, commands := 0, pages := [3, 4, 5] })
  { s with
    sp := { s.sp with free := [6], holder := some 0, recoveryWait := [2, 3] },
    jc := { s.jc with admission := false, roomWait := [(.gu, [⟨.param .holdLife 20, none⟩]), (.lane 0, [⟨.front 0 4, none⟩])] } }

theorem test_JobCancelled_abort :
    (let t := takeCause 0 .cancelled aborts;
      aborts.jc.active = true ∧ aborts.jc.hasRoom = false ∧ 0 ∉ aborts.sp.recoveryWait
        ∧ t.sp.holder = some 2 ∧ t.sp.recoveryWait = [3] ∧ t.sp.free = [3, 4, 5, 6]
        ∧ t.agenda = [.recoveryGranted 2, .reevaluate 0]
        ∧ t.jc.roomWait = [(.gu, [⟨.param .holdLife 20, none⟩]), (.lane 0, [⟨.jobAbort 0, none⟩])])
      ∧ (takeCause 0 .cancelled { aborts with sp := { aborts.sp with recoveryWait := [] } }).sp.holder = none
      ∧ (takeCause 0 .cancelled { aborts with sp := { aborts.sp with holder := some 1, recoveryWait := [2, 0] } }).sp.recoveryWait = [2]
      ∧ (takeCause 0 .cancelled (frozen aborts)).jc.roomWait = [(.gu, [⟨.param .holdLife 20, none⟩])]
      ∧ (takeCause 0 .cancelled (frozen aborts)).jc.queue = [] := by decide +kernel

/-- The choice of log 56: MEMBER_STATE ahead of the fault of the label command. -/
theorem test_ShelvesPolled_order :
    (handle (.driveGone 7) (joining false .write)).mp.outbound.map (fun f => match f with
      | .notice n => n.bit
      | .reply .. => 99) = [(Notice.memberState 7 .joining .absent).bit, 12] := by decide +kernel

end Sys2Proof.Tests
end

section
/-! PROOFS. The deadlines of holds and deferrals: the end of a quarantine (R57), and the time-out and the re-evaluation of a deferred
MAP (R66, R67). -/

namespace Sys2Proof.Machine

/-! ## The end of a hold changes the Grant Unit and the Placement Map alone -/

theorem forEach_lowerRef_pm (l : List Place) (s : State) : ∃ m, forEach State.lowerRef l s = { s with pm := m } := by
  induction l generalizing s with
  | nil => exact ⟨s.pm, rfl⟩
  | cons p rest ih =>
    obtain ⟨m, hm⟩ := writeSlot_pm p { s.slot p with refs := (s.slot p).refs - 1 }.drained s
    obtain ⟨m', hm'⟩ := ih (s.lowerRef p)
    refine ⟨m', hm'.trans ?_⟩
    rw [State.lowerRef, hm]

theorem freeHold_gu_pm (h : Nat) (s : State) : ∃ g m, freeHold h s = { s with gu := g, pm := m } := by
  obtain ⟨m, hm⟩ := forEach_lowerRef_pm (s.hold h).places
    ((s.setHold h (Hold.free (s.hold h).generation)).onGu (fun g => { g with freeOrder := g.freeOrder ++ [h] }))
  exact ⟨_, m, hm⟩

/-- A change of the Grant Unit, the Placement Map and the Message Port posts nothing and moves no job, so it concludes as it is. -/
theorem finish_gu_pm_mp {s : State} (hs : s.quiet) (g : GrantUnit) (p : PlacementMap) (m : MsgPort) :
    finish s { s with gu := g, pm := p, mp := m } = { s with gu := g, pm := p, mp := m } :=
  finish_quiet hs rfl rfl rfl

theorem finish_freeHold {s : State} (hs : s.quiet) (h : Nat) : finish s (freeHold h s) = freeHold h s := by
  obtain ⟨g, m, hf⟩ := freeHold_gu_pm h s
  rw [hf]
  exact finish_gu_pm_mp hs g m s.mp

/-- The entry that becomes FREE, and the one or two slots whose counts fall (R57). -/
theorem freeHold_eq (h : Nat) (s : State) :
    let freed := (s.setHold h (Hold.free (s.hold h).generation)).onGu (fun g => { g with freeOrder := g.freeOrder ++ [h] })
    ((s.hold h).target = none → freeHold h s = freed.lowerRef (s.hold h).home)
      ∧ ∀ q, (s.hold h).target = some q → freeHold h s = (freed.lowerRef (s.hold h).home).lowerRef q := by
  constructor
  · intro ht
    simp only [freeHold, Hold.places, ht, forEach]
  · intro q ht
    simp only [freeHold, Hold.places, ht, forEach]

theorem execQuarantineEnd_due {s : State} {h : Nat} (hs : s.quiet) (he : (s.hold h).state = .expired)
    (hd : (s.hold h).deadline ≤ s.now) : execQuarantineEnd h s = .next (freeHold h s) := by
  unfold execQuarantineEnd
  rw [if_pos ⟨he, hd⟩, conclude, finish_freeHold hs]

/-- Settles O26: the command frees the hold, and freeing a hold leaves no exchange to take. -/
theorem quarantineEnds : Obligations.QuarantineEnds := by
  intro s h hs e freed he hd
  have hx : exec (.quarantineEnd h) s = .next (freeHold h s) := execQuarantineEnd_due hs he hd
  rw [hx]
  obtain ⟨hnone, hsome⟩ := freeHold_eq h s
  cases ht : e.target with
  | none => rw [hnone ht]; rfl
  | some q => rw [hsome q ht]; rfl

/-! ## A deferred MAP is answered BUSY (R66, R67) -/

/-- An answer does not look at the Grant Unit. -/
theorem answer_onGu (f : GrantUnit → GrantUnit) (tag : ReqTag) (r : Result) (b : ReplyBody) (s : State) :
    (s.onGu f).answer tag r b = (s.answer tag r b).onGu f := by
  unfold State.answer
  by_cases h : tag ∈ s.mp.openTags
  · rw [if_pos h, if_pos (show tag ∈ (s.onGu f).mp.openTags from h)]
    rfl
  · rw [if_neg h, if_neg (show tag ∉ (s.onGu f).mp.openTags from h)]

@[simp] theorem answer_gu (tag : ReqTag) (r : Result) (b : ReplyBody) (s : State) : (s.answer tag r b).gu = s.gu := by
  obtain ⟨m, hm⟩ := answer_eq tag r b s
  rw [hm]

/-- An answered tag is no longer open (R170). -/
theorem answer_closes_tag (tag : ReqTag) (r : Result) (b : ReplyBody) (s : State) :
    tag ∉ (s.answer tag r b).mp.openTags := by
  unfold State.answer
  by_cases h : tag ∈ s.mp.openTags
  · rw [if_pos h]
    simp
  · rwa [if_neg h]

theorem timeOutDeferred_eq (tag : ReqTag) (s : State) :
    timeOutDeferred tag s = (s.answer tag .busy .empty).onGu (fun g =>
      { g with deferred := g.deferred.filter (fun d => d.tag ≠ tag),
               counters := { g.counters with deferralTimeouts := bump g.counters.deferralTimeouts } }) := by
  unfold timeOutDeferred dropDeferred State.refuse
  rw [answer_onGu]
  rfl

theorem finish_timeOutDeferred {s : State} (hs : s.quiet) (tag : ReqTag) :
    finish s (timeOutDeferred tag s) = timeOutDeferred tag s := by
  obtain ⟨m, hm⟩ := answer_eq tag .busy .empty s
  rw [timeOutDeferred_eq, hm]
  exact finish_gu_pm_mp hs _ s.pm m

theorem execDeferralDeadline_due {s : State} {tag : ReqTag} {d : Deferred} (hs : s.quiet)
    (hf : s.gu.deferred.find? (fun d => d.tag = tag) = some d) (hd : d.deadline ≤ s.now) :
    execDeferralDeadline tag s = .next (timeOutDeferred tag s) := by
  simp only [execDeferralDeadline, hf, if_pos hd, conclude, finish_timeOutDeferred hs]

theorem timeOutDeferred_deferred (tag : ReqTag) (s : State) :
    (timeOutDeferred tag s).gu.deferred = s.gu.deferred.filter (fun d => d.tag ≠ tag) := by
  rw [timeOutDeferred_eq, onGu_gu, answer_gu]

theorem timeOutDeferred_closes_tag (tag : ReqTag) (s : State) : tag ∉ (timeOutDeferred tag s).mp.openTags := by
  rw [timeOutDeferred_eq]
  exact answer_closes_tag tag .busy .empty s

/-! ## Where a write is placed (R51) -/

/-- The range of a MAP overlaps the row of a lockout in force on its slab (R52, R102). -/
theorem overlapsLocked_iff (s : State) (g first count : Nat) :
    s.overlapsLocked g first count = true ↔
      ∃ n, s.laneOf g = some n ∧ (s.lane n).lockout = true
        ∧ overlapsRow (s.rowSet (s.lane n)).width (s.rowSet (s.lane n)).unit (s.lane n).row
            (first - s.volumeSlab g * s.slabBlocks) (first - s.volumeSlab g * s.slabBlocks + count - 1) = true := by
  unfold State.overlapsLocked
  cases hl : s.laneOf g with
  | none => simp
  | some n => simp

theorem placing_write_in_motion {s : State} {g : Nat} (first count : Nat)
    (hm : (s.slab g).state = .moving ∨ (s.slab g).state = .committing) :
    s.placing g .write first count = s.placingInMotion g first count := by
  unfold State.placing
  rcases hm with hm | hm <;> simp only [hm]

theorem placing_write_locked {s : State} {g first count : Nat}
    (hm : (s.slab g).state = .moving ∨ (s.slab g).state = .committing) (hl : s.overlapsLocked g first count = true) :
    s.placing g .write first count = .deferred := by
  rw [placing_write_in_motion first count hm, State.placingInMotion, if_pos hl]

theorem placing_write_mirrored {s : State} {g first count : Nat} {q : Place}
    (hm : (s.slab g).state = .moving ∨ (s.slab g).state = .committing) (hq : (s.slab g).target = some q)
    (hl : ¬s.overlapsLocked g first count = true) : s.placing g .write first count = .mirrored q true := by
  rw [placing_write_in_motion first count hm, State.placingInMotion, if_neg hl]
  simp only [hq]

theorem placing_write_home {s : State} {g : Nat} (first count : Nat) (hl : (s.slab g).state = .live)
    (hc : s.claimedTarget g = none) : s.placing g .write first count = .home := by
  simp only [State.placing, hl, hc]

/-! ## Re-evaluation (R66) -/

/-- A slab with no entry in the Deferral Queue has nothing to place again. -/
theorem reevaluate_none {g : Nat} {s : State} (h : ∀ e ∈ s.gu.deferred, e.slab ≠ g) : reevaluate g s = s := by
  have hf : s.gu.deferred.filter (fun e => e.slab = g) = [] := by simpa using h
  rw [reevaluate, hf, forEach]

theorem reevaluate_single {g : Nat} {d : Deferred} {s : State} (h : s.gu.deferred.filter (fun e => e.slab = g) = [d]) :
    reevaluate g s = reevaluateOne d s := by
  rw [reevaluate, h, forEach, forEach]

theorem reevaluateOne_full {d : Deferred} {s : State} (h : s.gu.freeOrder = []) :
    reevaluateOne d s = ((dropDeferred d.tag s).answer d.tag .busy .empty).onGu (fun g =>
      { g with counters := { g.counters with deferralRefusals := bump g.counters.deferralRefusals } }) := by
  rw [reevaluateOne, if_pos h]
  rfl

/-- With a hold free, an entry that its placement defers again stays as it is. -/
theorem reevaluateOne_deferred {d : Deferred} {s : State} (h : s.gu.freeOrder ≠ [])
    (hp : s.placing d.slab .write d.first d.count = .deferred) : reevaluateOne d s = s := by
  rw [reevaluateOne, if_neg h]
  simp only [hp]

theorem reevaluateOne_granted {d : Deferred} {s : State} {p : Placing} (h : s.gu.freeOrder ≠ [])
    (hp : s.placing d.slab .write d.first d.count = p) (hn : p ≠ .deferred) :
    reevaluateOne d s
      = grantPlaced ⟨d.tag, d.volume, d.first, d.count, d.slab, .write⟩ p (dropDeferred d.tag s) := by
  rw [reevaluateOne, if_neg h]
  cases p with
  | home => simp only [hp]
  | mirrored q handed => simp only [hp]
  | deferred => exact absurd rfl hn

/-- A deferred MAP that has timed out is not found again where it was the only one of its slab (R67). -/
theorem reevaluate_timeOutDeferred {tag : ReqTag} {g : Nat} {s : State}
    (h : ∀ e ∈ s.gu.deferred, e.slab = g → e.tag = tag) :
    reevaluate g (timeOutDeferred tag s) = timeOutDeferred tag s := by
  refine reevaluate_none fun e he hg => ?_
  rw [timeOutDeferred_deferred, List.mem_filter, decide_eq_true_eq] at he
  obtain ⟨hmem, htag⟩ := he
  exact htag (h e hmem hg)

/-- Settles O27: at its deadline the entry is dropped and answered; a re-evaluation before that follows the placement of R51. -/
theorem deferralTimesOut : Obligations.DeferralTimesOut := by
  constructor
  · intro s tag hs d hf hd
    refine ⟨timeOutDeferred tag s, execDeferralDeadline_due hs hf hd, timeOutDeferred_eq tag s, ?_,
      timeOutDeferred_closes_tag tag s, reevaluate_timeOutDeferred⟩
    intro e he
    rw [timeOutDeferred_deferred, List.mem_filter, decide_eq_true_eq] at he
    exact he.2
  · intro s d hf told b offset removed ask locked
    have htold : told = reevaluateOne d s := reevaluate_single hf
    have hlocked : s.overlapsLocked d.slab d.first d.count = true ↔ locked := overlapsLocked_iff s d.slab d.first d.count
    rw [htold]
    refine ⟨fun hfull => reevaluateOne_full hfull, fun hfree hm hl => ?_, fun hfree q hm hq hl => ?_,
      fun hfree hlive hc => ?_⟩
    · exact reevaluateOne_deferred hfree (placing_write_locked hm (hlocked.2 hl))
    · have hp := placing_write_mirrored hm hq (mt hlocked.1 hl)
      exact reevaluateOne_granted hfree hp (by simp)
    · exact reevaluateOne_granted hfree (placing_write_home d.first d.count hlive hc) (by simp)

end Sys2Proof.Machine
end

section
/-! PROOFS. The machine as a whole: what every command answers, and that every step keeps the limits and forms. -/

namespace Sys2Proof.Machine

/-! ## Lists -/

theorem getD_of_lt {α : Type} {l : List α} {i : Nat} (d : α) (h : i < l.length) : l.getD i d = l[i] := by
  rw [List.getD_eq_getElem?_getD, List.getElem?_eq_getElem h, Option.getD_some]

theorem dropWhile_all {α : Type} {p : α → Bool} {l : List α} (h : ∀ a ∈ l, p a = true) : l.dropWhile p = [] := by
  rw [← List.append_nil l, List.dropWhile_append_of_pos h, List.dropWhile_nil]

theorem foldl_keeps {α β : Type} (l : List α) (b : β) : l.foldl (fun b _ => b) b = b := by
  induction l with
  | nil => rfl
  | cons a rest ih => exact ih

/-- A search by two tests that agree on a list. -/
theorem find?_agree {α : Type} {p q : α → Bool} {l : List α} (h : ∀ a ∈ l, p a = q a) : l.find? p = l.find? q := by
  induction l with
  | nil => rfl
  | cons a rest ih =>
    obtain ⟨ha, hrest⟩ := List.forall_mem_cons.1 h
    rw [List.find?_cons, List.find?_cons, ha, ih hrest]

/-! ## What a command can answer -/

/-- The three ways in which a command ends: it changes nothing; it concludes with a state that keeps the limits and forms where the
state before has them; or it concludes as a restart or a FORMAT does. -/
inductive Concludes (s : State) : Answer → Prop
  | same : Concludes s (.next s)
  | settled (t : State) (ht : s.sound → t.sound) : Concludes s (conclude s t)
  | restart (t : State) (ht : s.sound → t.sound) : Concludes s (concludeReset s t)

theorem Concludes.completes {s : State} {a : Answer} (h : Concludes s a) :
    ∃ t : State, a = .next t ∧ t.pending = s.pending ∧ t.clock.now = s.clock.now := by
  cases h with
  | same => exact ⟨s, rfl, rfl, rfl⟩
  | settled t _ => exact ⟨finish s t, rfl, rfl, rfl⟩
  | restart t _ => exact ⟨finishReset s t, rfl, rfl, rfl⟩

theorem Concludes.sound {s t : State} {a : Answer} (h : Concludes s a) (hs : s.sound) (ha : a = .next t) : t.sound := by
  cases h with
  | same =>
    cases ha
    exact hs
  | settled u hu =>
    cases ha
    exact finish_sound hs (hu hs)
  | restart u hu =>
    cases ha
    exact finishReset_sound (hu hs)

theorem Concludes.ite {s t : State} {c : Prop} [Decidable c] (ht : s.sound → t.sound) :
    Concludes s (if c then conclude s t else .next s) := by
  split
  · exact .settled t ht
  · exact .same

theorem takeRequest_concludes {k : ReqKind} {tag : ReqTag} {f : List Byte → State → State} {s : State}
    (hf : ∀ p s, s.sound → (f p s).sound) : Concludes s (takeRequest k tag f s) := by
  unfold takeRequest
  split
  · exact .same
  · exact .settled _ (serveRequest_sound hf)

/-! ## The control link -/

theorem execAcceptRequest_concludes (s : State) : Concludes s (execAcceptRequest s) := by
  unfold execAcceptRequest
  split
  · exact .same
  · next f rest _ =>
    split
    · next hfree => exact .settled _ fun hs => judgeFrame_sound (onMp_sound hs rfl rfl rfl) hfree.1
    · exact .same

/-- A frame that leaves the outbound queue leaves room in it. -/
theorem dropOutbound_sound {f : OutFrame} {rest : List OutFrame} {s : State} (hs : s.sound) (ho : s.mp.outbound = f :: rest) :
    (s.onMp (fun m => { m with outbound := rest })).sound := by
  obtain ⟨⟨hnotices, hrequests, htags, hreplies, hopen⟩, hparts⟩ := hs
  have hsub : rest.Sublist s.mp.outbound := ho ▸ List.sublist_cons_self f rest
  have hnc : noticeCount rest ≤ noticeCount s.mp.outbound := (hsub.filter _).length_le
  have hrc : replyCount rest ≤ replyCount s.mp.outbound := (hsub.filter _).length_le
  exact ⟨⟨Nat.le_trans hnc hnotices, hrequests, htags, Nat.le_trans (Nat.add_le_add_right hrc _) hreplies, hopen⟩, hparts⟩

theorem execOutboundFrameSent_concludes (s : State) : Concludes s (execOutboundFrameSent s) := by
  unfold execOutboundFrameSent
  split
  · exact .same
  · next f rest ho =>
    dsimp only
    split
    · exact .restart _ fun _ => restarted_sound
    · exact .settled _ fun hs => countSent_sound (dropOutbound_sound hs ho)

theorem execFormat_concludes (tag : ReqTag) (s : State) : Concludes s (execFormat tag s) := by
  unfold execFormat
  split
  · exact .same
  · dsimp only
    split
    · exact .settled _ refuse_sound
    · exact .restart _ fun hs => beginFormat_sound (markTaken_sound hs)

/-! ## The drive fabric -/

theorem execReadData_concludes (e generation block : Nat) (data : BlockData) (blockTag : TagBits) (s : State) :
    Concludes s (execReadData e generation block data blockTag s) := by
  unfold execReadData
  split
  · exact .settled _ fun hs => markReceived_sound (layPage_sound hs)
  · exact .settled _ countLate_sound

theorem execPull_concludes (e generation block : Nat) (s : State) : Concludes s (execPull e generation block s) := by
  unfold execPull
  split
  · exact .settled _ send_sound
  · exact .settled _ fun hs => countLate_sound (send_sound hs)

theorem execTags_concludes (e generation block : Nat) (blockTag : TagBits) (s : State) :
    Concludes s (execTags e generation block blockTag s) := by
  unfold execTags
  split
  · exact .settled _ fun hs => compareTag_sound (markReceived_sound hs)
  · exact .settled _ countLate_sound

theorem execEndMessage_concludes (e generation : Nat) (status : EndStatus) (s : State) :
    Concludes s (execEndMessage e generation status s) := by
  unfold execEndMessage
  split
  · exact .settled _ fun hs => serveCommands_sound (completeEntry_sound hs)
  · exact .settled _ countLate_sound

theorem execFlushAnswer_concludes (s : State) : Concludes s (execFlushAnswer s) := by
  unfold execFlushAnswer
  split
  · exact .settled _ flushDone_sound
  · exact .same
  · exact .same

theorem execFlushRetry_concludes (s : State) : Concludes s (execFlushRetry s) := by
  unfold execFlushRetry
  split
  · exact .ite retryFlush_sound
  · exact .same
  · exact .same

/-! ## The management bus -/

theorem execPollRoundStart_concludes (s : State) : Concludes s (execPollRoundStart s) := by
  unfold execPollRoundStart
  split
  · exact .same
  · exact .ite beginRound_sound

theorem execStatePollEnd_concludes (answer : PollAnswer) (s : State) : Concludes s (execStatePollEnd answer s) := by
  unfold execStatePollEnd
  split
  · exact .same
  · exact .settled _ endPoll_sound

theorem execTransactionLimit_concludes (s : State) : Concludes s (execTransactionLimit s) := by
  unfold execTransactionLimit
  split
  · exact .same
  · exact .ite endPoll_sound

/-! ## The map store -/

theorem execPageProgramEnd_concludes (success : Bool) (s : State) : Concludes s (execPageProgramEnd success s) := by
  unfold execPageProgramEnd
  split
  · exact .settled _ programEnded_sound
  all_goals exact .same

theorem execReadBackEnd_concludes (page : List Byte) (s : State) : Concludes s (execReadBackEnd page s) := by
  unfold execReadBackEnd
  split
  · exact .settled _ readBackEnded_sound
  all_goals exact .same

theorem execEraseEnd_concludes (success : Bool) (s : State) : Concludes s (execEraseEnd success s) := by
  unfold execEraseEnd
  split
  · exact .settled _ fun hs => ite_sound (eraseDone_sound hs) (eraseLost_sound hs)
  all_goals exact .same

theorem execStoreOpTimeout_concludes (s : State) : Concludes s (execStoreOpTimeout s) := by
  unfold execStoreOpTimeout
  split
  · exact .same
  · exact .ite storeTimeOut_sound

theorem execJournalScan_concludes (pages : List (Nat × List Byte)) (s : State) :
    Concludes s (execJournalScan pages s) := by
  unfold execJournalScan
  split
  · exact .settled _ scanEnded_sound
  all_goals exact .same

/-! ## Deadlines and lanes -/

theorem execDeferralDeadline_concludes (tag : ReqTag) (s : State) : Concludes s (execDeferralDeadline tag s) := by
  unfold execDeferralDeadline
  split
  · exact .same
  · exact .ite timeOutDeferred_sound

theorem execRateWindow_concludes (s : State) : Concludes s (execRateWindow s) := by
  unfold execRateWindow
  split
  · exact .same
  · exact .ite beginWindow_sound

theorem execBackoffEnd_concludes (n : Nat) (s : State) : Concludes s (execBackoffEnd n s) := by
  unfold execBackoffEnd
  dsimp only
  split
  · exact .same
  · exact .ite startAttempt_sound

/-- A lane that may claim is in IDLE, so that it holds no page. -/
theorem mayClaim_pages {n : Nat} {s : State} (hs : s.sound) (h : s.mayClaim n = true) : (s.lane n).pages = [] := by
  simp only [State.mayClaim, Bool.and_eq_true, decide_eq_true_eq] at h
  exact idle_pages hs h.1.1

theorem execLaneClaim_concludes (n : Nat) (s : State) : Concludes s (execLaneClaim n s) := by
  unfold execLaneClaim
  split
  · next hclaim => exact .settled _ fun hs => claimScan_sound hs (mayClaim_pages hs hclaim.2)
  · exact .same

/-! ## Every command -/

/-- Every command ends in one of the three ways. -/
theorem exec_concludes (c : Instr) (s : State) : Concludes s (exec c s) := by
  cases c with
  | coldReset => exact .restart _ fun _ => restarted_sound
  | inboundFrame bytes => exact .settled _ receive_sound
  | frameByteTimeout => exact .ite badFrame_sound
  | acceptRequest => exact execAcceptRequest_concludes s
  | outboundFrameSent => exact execOutboundFrameSent_concludes s
  | inquire tag => exact takeRequest_concludes fun _ _ => serveInquire_sound
  | status tag => exact takeRequest_concludes fun _ _ => serveStatus_sound
  | tableRead tag => exact takeRequest_concludes fun _ _ => serveTableRead_sound
  | setParam tag => exact takeRequest_concludes fun _ _ => serveSetParam_sound
  | noticeMask tag => exact takeRequest_concludes fun _ _ => serveNoticeMask_sound
  | faultRead tag => exact takeRequest_concludes fun _ _ => serveFaultRead_sound
  | faultClear tag => exact takeRequest_concludes fun _ _ => serveFaultClear_sound
  | reset tag => exact takeRequest_concludes fun _ _ => serveReset_sound
  | format tag => exact execFormat_concludes tag s
  | map tag => exact takeRequest_concludes fun _ _ => serveMap_sound
  | unhold tag => exact takeRequest_concludes fun _ _ => serveUnhold_sound
  | admitMember tag => exact takeRequest_concludes fun _ _ => serveAdmit_sound
  | releaseMember tag => exact takeRequest_concludes fun _ _ => serveReleaseMember_sound
  | failMember tag => exact takeRequest_concludes fun _ _ => serveFailMember_sound
  | defineSet tag => exact takeRequest_concludes fun _ _ => serveDefineSet_sound
  | retireSet tag => exact takeRequest_concludes fun _ _ => serveRetireSet_sound
  | createVolume tag => exact takeRequest_concludes fun _ _ => serveCreateVolume_sound
  | grow tag => exact takeRequest_concludes fun _ _ => serveGrow_sound
  | rebalance tag => exact takeRequest_concludes fun _ _ => serveRebalance_sound
  | move tag => exact takeRequest_concludes fun _ _ => serveMove_sound
  | cancelJob tag => exact takeRequest_concludes fun _ _ => serveCancelJob_sound
  | pauseJobs tag => exact takeRequest_concludes fun _ _ => servePauseJobs_sound
  | resumeJobs tag => exact takeRequest_concludes fun _ _ => serveResumeJobs_sound
  | damageRead tag => exact takeRequest_concludes fun _ _ => serveDamageRead_sound
  | damageClear tag => exact takeRequest_concludes fun _ _ => serveDamageClear_sound
  | readData e generation block data blockTag => exact execReadData_concludes e generation block data blockTag s
  | pull e generation block => exact execPull_concludes e generation block s
  | tags e generation block blockTag => exact execTags_concludes e generation block blockTag s
  | endMessage e generation status => exact execEndMessage_concludes e generation status s
  | flushAnswer => exact execFlushAnswer_concludes s
  | flushRetry => exact execFlushRetry_concludes s
  | commandTimeout e => exact .ite timeOutEntry_sound
  | pollRoundStart => exact execPollRoundStart_concludes s
  | statePollEnd answer => exact execStatePollEnd_concludes answer s
  | transactionLimit => exact execTransactionLimit_concludes s
  | pageProgramEnd success => exact execPageProgramEnd_concludes success s
  | readBackEnd page => exact execReadBackEnd_concludes page s
  | storeOpTimeout => exact execStoreOpTimeout_concludes s
  | eraseEnd success => exact execEraseEnd_concludes success s
  | holdExpiry h => exact .ite expireHold_sound
  | quarantineEnd h => exact .ite freeHold_sound
  | deferralDeadline tag => exact execDeferralDeadline_concludes tag s
  | laneClaim n => exact execLaneClaim_concludes n s
  | rateWindow => exact execRateWindow_concludes s
  | backoffEnd n => exact execBackoffEnd_concludes n s
  | journalScan pages => exact execJournalScan_concludes pages s
  | firstRoundEnd => exact .ite checkLabels_sound
  | fixUps => exact .ite fun hs => enterService_sound (repair_sound hs)
  | inboundHeader bytes => exact .settled _ receive_sound
  | inboundFifoFull b => exact .settled _ receiveByte_sound

/-! ## A step -/

theorem step_idle {s : State} (h : s.pending = []) : step s = .next (tick s) := by
  simp only [step, h]

theorem step_front {s : State} {c : Instr} {rest : List Instr} (h : s.pending = c :: rest) :
    step s = exec c { s with pending := rest } := by
  simp only [step, h]

/-- The bits of the shift register after one step (R99). -/
theorem lfsrStep_getLsbD (r : BitVec 16) :
    (∀ i, i < 15 → (lfsrStep r).getLsbD (i + 1) = r.getLsbD i)
      ∧ (lfsrStep r).getLsbD 0 = (r.getLsbD 15 ^^ r.getLsbD 13 ^^ r.getLsbD 12 ^^ r.getLsbD 10) := by
  refine ⟨fun i hi => ?_, ?_⟩
  · rw [lfsrStep, BitVec.getLsbD_append, BitVec.getLsbD_extractLsb']
    simp [hi]
  · rw [lfsrStep, BitVec.getLsbD_append]
    simp

/-- A register that is not 0 does not become 0: a one moves up, or it is bit 15 alone and enters the lowest bit. -/
theorem lfsrStep_ne_zero {r : BitVec 16} (h : r ≠ 0#16) : lfsrStep r ≠ 0#16 := by
  intro hz
  obtain ⟨hmove, hlow⟩ := lfsrStep_getLsbD r
  rw [hz] at hmove hlow
  have hbits : ∀ i, i < 15 → r.getLsbD i = false := fun i hi => by rw [← hmove i hi, BitVec.getLsbD_zero]
  have h15 : r.getLsbD 15 = false := by
    rw [hbits 13 (by decide), hbits 12 (by decide), hbits 10 (by decide), BitVec.getLsbD_zero] at hlow
    simpa using hlow.symm
  refine h (BitVec.eq_of_getLsbD_eq fun i hi => ?_)
  rw [BitVec.getLsbD_zero]
  rcases Nat.lt_or_ge i 15 with hi' | hi'
  · exact hbits i hi'
  · rw [show i = 15 by omega, h15]

theorem tick_sound {s : State} (hs : s.sound) : (tick s).sound := by
  obtain ⟨hmp, ⟨hdeferred, hqueue, hmemory, hruns, hregister⟩, hrest⟩ := hs
  exact ⟨hmp, ⟨hdeferred, hqueue, hmemory, hruns, lfsrStep_ne_zero hregister⟩, hrest⟩

theorem with_pending_sound {s : State} (rest : List Instr) (hs : s.sound) : State.sound { s with pending := rest } :=
  sound_of_eq hs rfl rfl rfl rfl rfl rfl rfl

/-- Settles O4: one lemma for each operation says that it keeps the limits, and each command ends in one of three ways. -/
theorem stepKeepsSound : Obligations.StepKeepsSound := by
  intro s t hs ht
  cases hp : s.pending with
  | nil =>
    rw [step_idle hp] at ht
    cases ht
    exact tick_sound hs
  | cons c rest =>
    rw [step_front hp] at ht
    exact (exec_concludes c _).sound (with_pending_sound rest hs) ht

theorem settle_next (k : Nat) {u : State} {i : Internal} {rest : List Internal} (h : u.agenda = i :: rest) :
    settle (k + 1) u = settle k { handle i { u with agenda := [] } with
      agenda := (handle i { u with agenda := [] }).agenda ++ rest } := by
  rw [settle, h]

/-- Settles O3: every command ends in one of three ways, and the exchanges of a step are taken from the head of the agenda. -/
theorem everyCommandCompletes : Obligations.EveryCommandCompletes :=
  ⟨fun c s => (exec_concludes c s).completes, fun _ _ => rfl,
    fun k _ => ⟨fun h => settle_quiet k h, fun _ _ h => settle_next k h⟩⟩

/-- Settles O1. -/
theorem stepRunsFront : Obligations.StepRunsFront := fun _ _ _ h => step_front h

/-- Settles O2: the shift register that an idle step leaves is its next state. -/
theorem idleStepLetsTimePass : Obligations.IdleStepLetsTimePass := by
  intro s h
  obtain ⟨hmove, hlow⟩ := lfsrStep_getLsbD s.clock.lfsr
  exact ⟨lfsrStep s.clock.lfsr, step_idle h, hmove, hlow⟩

/-- Settles O5: the pages are all free, and every other collection is empty. -/
theorem resetIsSound : Obligations.ResetIsSound := by
  refine ⟨⟨?_, ?_, ?_, ?_, ?_⟩, ⟨?_, ?_, Memory.wf_reset, ?_, ?_⟩, damageFormed_nil, pagesDivided_reset⟩
  case refine_5 => exact fun r hr => absurd hr List.not_mem_nil
  case refine_8 => exact fun _ => Nat.zero_le 3
  all_goals decide

/-- A restart leaves no exchange, so that it concludes as it is. -/
theorem finishReset_quiet {s t : State} (h : t.agenda = []) :
    finishReset s t = { t with clock := ⟨s.clock.now, 1⟩, pending := s.pending } := by
  rw [finishReset, settle_quiet _ h]

/-- Settles O6: the state that a restart leaves has nothing on its agenda. -/
theorem coldResetRestarts : Obligations.ColdResetRestarts := by
  intro s
  change concludeReset s (restarted s) = _
  rw [concludeReset, finishReset_quiet (show (restarted s).agenda = [] from rfl)]
  rfl

end Sys2Proof.Machine
end

section
/-! PROOFS. The Message Port: replies and the bytes of frames (R170, R177), notices and faults (R171, R175), and the requests that it
answers itself (R172 to R175). -/

namespace Sys2Proof.Machine

/-! ## Answers -/

/-- An answered request: its tag closes, its place is free, its reply stands last. -/
theorem answer_open {s : State} {tag : ReqTag} (result : Result) (body : ReplyBody) (h : tag ∈ s.mp.openTags) :
    s.answer tag result body =
      { s with mp := { s.mp with
          requests := s.mp.requests.filter (fun q => q.tag ≠ tag),
          openTags := s.mp.openTags.filter (fun t => t ≠ tag),
          outbound := s.mp.outbound
            ++ [.reply tag (((s.request tag).map (fun r => r.kind.replyCode)).getD ReqKind.map.replyCode) result
                (if result = .ok then body else .empty)] } } := by
  unfold State.answer
  rw [if_pos h]
  rfl

theorem answer_request {s : State} {r : Request} (result : Result) (body : ReplyBody) (hr : s.request r.tag = some r)
    (h : r.tag ∈ s.mp.openTags) :
    s.answer r.tag result body =
      { s with mp := { s.mp with
          requests := s.mp.requests.filter (fun q => q.tag ≠ r.tag),
          openTags := s.mp.openTags.filter (fun t => t ≠ r.tag),
          outbound := s.mp.outbound
            ++ [.reply r.tag (r.kind.code + 0x80) result (if result = .ok then body else .empty)] } } := by
  rw [answer_open result body h, hr]
  rfl

/-- A tag without a place in the request queue is that of a deferred MAP. -/
theorem answer_deferred {s : State} {tag : ReqTag} (result : Result) (body : ReplyBody) (hr : s.request tag = none)
    (h : tag ∈ s.mp.openTags) :
    s.answer tag result body =
      { s with mp := { s.mp with
          openTags := s.mp.openTags.filter (fun t => t ≠ tag),
          outbound := s.mp.outbound ++ [.reply tag 0x89 result (if result = .ok then body else .empty)] } } := by
  have hkeep : s.mp.requests.filter (fun q => q.tag ≠ tag) = s.mp.requests := by
    simpa [List.filter_eq_self, State.request] using hr
  rw [answer_open result body h, hkeep, hr]
  rfl

theorem answer_closed {s : State} {tag : ReqTag} (result : Result) (body : ReplyBody) (h : tag ∉ s.mp.openTags) :
    s.answer tag result body = s := by
  unfold State.answer
  rw [if_neg h]

theorem outboundBytes_cons {s : State} {f : OutFrame} {rest : List OutFrame} (h : s.mp.outbound = f :: rest) :
    s.outboundBytes = f.bytes := by
  simp only [State.outboundBytes, h]

/-! ## The bytes of a frame (spec/12 section B) -/

/-- The five header bytes that the header check covers. -/
def headerFields (tag : ReqTag) (kind length : Nat) : List Byte :=
  beBytes 2 length ++ beBytes 2 tag.toNat ++ beBytes 1 kind

@[simp] theorem length_headerFields (tag : ReqTag) (kind length : Nat) : (headerFields tag kind length).length = 5 := by
  simp [headerFields]

/-- A frame is its start byte, its five checked header bytes, their check, its payload and the payload's check. -/
theorem frameBytes_eq (tag : ReqTag) (kind : Nat) (payload : List Byte) :
    frameBytes tag kind payload = [0xC3#8] ++ (headerFields tag kind payload.length
      ++ ([complementSum (headerFields tag kind payload.length)] ++ (payload ++ beBytes 4 (crc32 payload)))) := by
  simp [frameBytes, headerFields]

theorem frameBytes_laidOut (tag : ReqTag) {kind : Nat} {payload : List Byte} (hk : kind < 256) (hl : payload.length ≤ 1024) :
    let frame := frameBytes tag kind payload
    frame.length = 11 + payload.length ∧ frame.getD 0 0 = 0xC3#8 ∧ fieldAt frame 1 2 = payload.length
      ∧ fieldAt frame 3 2 = tag.toNat ∧ byteAt frame 5 = kind
      ∧ frame.getD 6 0 = complementSum ((frame.drop 1).take 5)
      ∧ (frame.drop 7).take payload.length = payload ∧ fieldAt frame (7 + payload.length) 4 = crc32 payload := by
  intro frame
  have hframe : frame = _ := frameBytes_eq tag kind payload
  have hfields : (frame.drop 1).take 5 = headerFields tag kind payload.length := by
    rw [hframe]
    exact List.take_left' (length_headerFields ..)
  have hpayload : frame.drop 7 = payload ++ beBytes 4 (crc32 payload) := by
    rw [hframe, ← List.append_assoc, ← List.append_assoc]
    exact List.drop_left' (by simp)
  have hcheck : frame.drop (7 + payload.length) = beBytes 4 (crc32 payload) ++ [] := by
    rw [← List.drop_drop, hpayload, List.drop_left' rfl, List.append_nil]
  have htag : tag.toNat < 256 ^ 2 := tag.isLt
  refine ⟨by simp [hframe]; omega, by simp [hframe], fieldAt_of_drop (rest := frame.drop 3) ?_ (by omega),
    fieldAt_of_drop (rest := frame.drop 5) ?_ htag, byteAt_of_drop (rest := frame.drop 6) ?_ hk, ?_, ?_,
    fieldAt_of_drop hcheck (crc32_lt payload)⟩
  · simp [hframe, headerFields, beBytes]
  · simp [hframe, headerFields, beBytes]
  · simp [hframe, headerFields, beBytes]
  · rw [hfields, hframe]
    simp [headerFields, beBytes]
  · rw [hpayload, List.take_left' rfl]

theorem resultCode_lt (r : Result) : r.code < 256 := by cases r <;> decide

theorem setStateCode_lt (t : SetState) : t.code < 256 := by cases t <;> decide

theorem beBytes_one (v : Nat) : beBytes 1 v = [BitVec.ofNat 8 v] := by
  simp [beBytes]

theorem replyPayload_refused {result : Result} (body : ReplyBody) (h : result ≠ .ok) :
    replyPayload result body = beBytes 1 result.code := by
  unfold replyPayload
  rw [if_neg h]

/-- A payload begins with the result code. -/
theorem replyPayload_result (result : Result) (body : ReplyBody) :
    ∃ rest, replyPayload result body = beBytes 1 result.code ++ rest := by
  by_cases h : result = .ok
  · unfold replyPayload
    rw [if_pos h]
    split
    · exact ⟨[], (List.append_nil _).symm⟩
    · exact ⟨_, by simp only [GrantReply.bytes, List.append_assoc, h]; rfl⟩
    · exact ⟨_, rfl⟩
  · exact ⟨[], by rw [replyPayload_refused body h, List.append_nil]⟩

/-! ## The payload of a granted MAP (R54) -/

@[simp] theorem length_targetBytes (t : Option (Place × SetState)) : (targetBytes t).length = 5 := by
  cases t <;> simp [targetBytes]

/-- The fields of a granted MAP's payload, each ahead of the next. -/
theorem grantBytes_eq (g : GrantReply) :
    g.bytes = beBytes 1 0 ++ (beBytes 2 g.hold ++ (beBytes 2 g.generation ++ (beBytes 1 g.volume ++ (beBytes 8 g.first
      ++ (beBytes 2 g.count ++ (beBytes 2 g.slab ++ (beBytes 1 g.home.set ++ (beBytes 2 g.home.slot
        ++ (beBytes 1 g.homeState.code ++ (targetBytes g.target ++ (beBytes 1 0 ++ (beBytes 4 g.lifetime ++ [])))))))))))) := by
  simp only [GrantReply.bytes, List.append_assoc, List.append_nil, Result.code]

theorem grantBytes_drop_target (g : GrantReply) :
    g.bytes.drop 22 = targetBytes g.target ++ (beBytes 1 0 ++ (beBytes 4 g.lifetime ++ [])) := by
  rw [grantBytes_eq]
  simp [beBytes]

/-- A granted MAP's payload of 32 bytes, field after field (spec/12 section C). -/
theorem grantBytes_laidOut {g : GrantReply} (hhold : g.hold < 512) (hgeneration : g.generation < 65536)
    (hvolume : g.volume < 4) (hfirst : g.first < 2 ^ 64) (hcount : g.count ≤ 4096) (hslab : g.slab < 16384)
    (hset : g.home.set < 64) (hslot : g.home.slot < 1024) (hlifetime : g.lifetime < 2 ^ 32) :
    let p := g.bytes
    p.length = 32 ∧ byteAt p 0 = 0 ∧ fieldAt p 1 2 = g.hold ∧ fieldAt p 3 2 = g.generation ∧ byteAt p 5 = g.volume
      ∧ fieldAt p 6 8 = g.first ∧ fieldAt p 14 2 = g.count ∧ fieldAt p 16 2 = g.slab ∧ byteAt p 18 = g.home.set
      ∧ fieldAt p 19 2 = g.home.slot ∧ byteAt p 21 = g.homeState.code ∧ byteAt p 27 = 0
      ∧ fieldAt p 28 4 = g.lifetime := by
  intro p
  have hp : p = _ := grantBytes_eq g
  have htarget : p.drop 22 = _ := grantBytes_drop_target g
  have hbehind : p.drop 27 = beBytes 1 0 ++ (beBytes 4 g.lifetime ++ []) := by
    rw [show (27 : Nat) = 22 + 5 from rfl, ← List.drop_drop, htarget, List.drop_left' (length_targetBytes _)]
  have hlast : p.drop 28 = beBytes 4 g.lifetime ++ [] := by
    rw [show (28 : Nat) = 27 + 1 from rfl, ← List.drop_drop, hbehind, List.drop_left' (length_beBytes ..)]
  refine ⟨?_, byteAt_of_drop (rest := p.drop 1) ?_ (by decide), fieldAt_of_drop (rest := p.drop 3) ?_ (by omega),
    fieldAt_of_drop (rest := p.drop 5) ?_ hgeneration, byteAt_of_drop (rest := p.drop 6) ?_ (by omega),
    fieldAt_of_drop (rest := p.drop 14) ?_ hfirst, fieldAt_of_drop (rest := p.drop 16) ?_ (by omega),
    fieldAt_of_drop (rest := p.drop 18) ?_ (by omega), byteAt_of_drop (rest := p.drop 19) ?_ (by omega),
    fieldAt_of_drop (rest := p.drop 21) ?_ (by omega), byteAt_of_drop (rest := p.drop 22) ?_ (setStateCode_lt _),
    byteAt_of_drop hbehind (by decide), fieldAt_of_drop hlast hlifetime⟩
  all_goals simp [hp, beBytes]

theorem byteAt_drop (bytes : List Byte) (i j : Nat) : byteAt (bytes.drop i) j = byteAt bytes (i + j) := by
  simp [byteAt, List.getD_eq_getElem?_getD]

theorem fieldAt_drop (bytes : List Byte) (i j n : Nat) : fieldAt (bytes.drop i) j n = fieldAt bytes (i + j) n := by
  simp [fieldAt]

theorem grantBytes_no_target {g : GrantReply} (h : g.target = none) {i : Nat} (hlow : 22 ≤ i) (hhigh : i ≤ 26) :
    byteAt g.bytes i = 0 := by
  obtain ⟨j, rfl⟩ := Nat.exists_eq_add_of_le hlow
  rw [← byteAt_drop, grantBytes_drop_target, h]
  have hj : j = 0 ∨ j = 1 ∨ j = 2 ∨ j = 3 ∨ j = 4 := by omega
  rcases hj with rfl | rfl | rfl | rfl | rfl <;> rfl

theorem grantBytes_target {g : GrantReply} {t : Place} {state : SetState} (h : g.target = some (t, state))
    (hset : t.set < 64) (hslot : t.slot < 1024) :
    byteAt g.bytes 22 = 1 ∧ byteAt g.bytes 23 = t.set ∧ fieldAt g.bytes 24 2 = t.slot
      ∧ byteAt g.bytes 26 = state.code := by
  generalize hq : g.bytes.drop 22 = q
  have hbyte : ∀ j, byteAt g.bytes (22 + j) = byteAt q j := fun j => by rw [← hq, byteAt_drop]
  have hfield : ∀ j n, fieldAt g.bytes (22 + j) n = fieldAt q j n := fun j n => by rw [← hq, fieldAt_drop]
  rw [grantBytes_drop_target, h] at hq
  refine ⟨(hbyte 0).trans (byteAt_of_drop (rest := q.drop 1) ?_ (by decide)),
    (hbyte 1).trans (byteAt_of_drop (rest := q.drop 2) ?_ (by omega)),
    (hfield 2 2).trans (fieldAt_of_drop (rest := q.drop 4) ?_ (by omega)),
    (hbyte 4).trans (byteAt_of_drop (rest := q.drop 5) ?_ (setStateCode_lt _))⟩
  all_goals simp [← hq, targetBytes, beBytes]

/-- Settles O7: an answer's two cases by its tag and its request, and the bytes by the fields laid one after another. -/
theorem answerPlacesReply : Obligations.AnswerPlacesReply := by
  refine ⟨fun _ _ result body hr h => answer_request result body hr h,
    fun _ _ result body hr h => answer_deferred result body hr h, fun _ _ result body h => answer_closed result body h,
    fun _ _ _ h => outboundBytes_cons h, fun tag _ _ hk hl => frameBytes_laidOut tag hk hl, ?_, ?_, ?_, rfl, rfl⟩
  · intro tag kind result body
    obtain ⟨rest, hrest⟩ := replyPayload_result result body
    exact ⟨rfl, byteAt_of_drop (rest := rest) hrest (resultCode_lt result),
      fun h => by rw [replyPayload_refused body h, beBytes_one]⟩
  · intro n
    refine ⟨rfl, ?_⟩
    cases n <;> simp [Notice.bit]
  · intro g hhold hgeneration hvolume hfirst hcount hslab hset hslot hlifetime p
    obtain ⟨h0, h1, h2, h3, h4, h5, h6, h7, h8, h9, h10, h11, h12⟩ :=
      grantBytes_laidOut hhold hgeneration hvolume hfirst hcount hslab hset hslot hlifetime
    exact ⟨h0, h1, h2, h3, h4, h5, h6, h7, h8, h9, h10, h11, h12, fun h i => grantBytes_no_target h,
      fun t state h => grantBytes_target h⟩

end Sys2Proof.Machine
end

section
/-! PROOFS. Notices and faults offered (R171, R175), the requests that the Message Port answers itself (R172 to R175), and the requests
that a part's state refuses (R162, R163). -/

namespace Sys2Proof.Machine

/-! ## Notices and faults -/

theorem offerNotice_disabled {n : Notice} {s : State} (h : s.mp.mask.getLsbD n.bit = false) : s.offerNotice n = s := by
  rw [State.offerNotice, h]
  rfl

theorem offerNotice_queued {n : Notice} {s : State} (h : s.mp.mask.getLsbD n.bit = true)
    (hroom : noticeCount s.mp.outbound < 32) :
    s.offerNotice n = { s with mp := { s.mp with outbound := s.mp.outbound ++ [.notice n] } } := by
  rw [State.offerNotice, if_pos h, if_pos (show _ < Config.maxNotices from hroom)]
  rfl

theorem offerNotice_lost {n : Notice} {s : State} (h : s.mp.mask.getLsbD n.bit = true)
    (hfull : 32 ≤ noticeCount s.mp.outbound) :
    s.offerNotice n = { s with mp := { s.mp with
      noticesLost := true,
      counters := { s.mp.counters with noticesLost := min (s.mp.counters.noticesLost + 1) 4294967295 } } } := by
  rw [State.offerNotice, if_pos h, if_neg (show ¬_ < Config.maxNotices from Nat.not_lt.2 hfull)]
  rfl

/-- Settles O8: the three cases of an offer. -/
theorem noticeOffered : Obligations.NoticeOffered :=
  fun _ _ => ⟨offerNotice_disabled, offerNotice_queued, offerNotice_lost⟩

theorem offerFault_empty {o : FaultOffer} {s : State} (h : s.mp.fault = none) :
    s.offerFault o =
      State.offerNotice (.fault ⟨o, 0, false⟩) { s with mp := { s.mp with fault := some ⟨o, 0, false⟩ } } := by
  simp only [State.offerFault, h]
  rfl

theorem offerFault_held {o : FaultOffer} {s : State} {c : Capture} (h : s.mp.fault = some c) :
    s.offerFault o = { s with mp := { s.mp with fault := some ⟨c.offer, min (c.extra + 1) 4294967295, true⟩ } } := by
  simp only [State.offerFault, h]
  rfl

/-- Settles O9: the two cases of the fault record. -/
theorem faultOffered : Obligations.FaultOffered := fun _ _ => ⟨offerFault_empty, fun _ => offerFault_held⟩

/-! ## Requests that change the Message Port alone -/

/-- A request served to a change of the Message Port alone concludes with that change. -/
theorem takeRequest_mp {k : ReqKind} {tag : ReqTag} {f : List Byte → State → State} {s t : State} {p : List Byte}
    (h : s.serves k tag p) (hf : f p s = t) (ht : ∃ m, t = { s with mp := m }) : takeRequest k tag f s = .next t := by
  obtain ⟨m, hm⟩ := ht
  rw [takeRequest_serves h, hf, hm, finish_mp h.1]

/-- A request served to an answer. -/
theorem takeRequest_answers {k : ReqKind} {tag : ReqTag} {f : List Byte → State → State} {s : State} {p : List Byte}
    {r : Result} {b : ReplyBody} (h : s.serves k tag p) (hf : f p s = s.answer tag r b) :
    takeRequest k tag f s = .next (s.answer tag r b) :=
  takeRequest_mp h hf (answer_eq tag r b s)

theorem answer_onMp_eq (f : MsgPort → MsgPort) (tag : ReqTag) (r : Result) (b : ReplyBody) (s : State) :
    ∃ m, (s.answer tag r b).onMp f = { s with mp := m } := by
  obtain ⟨m, hm⟩ := answer_eq tag r b s
  rw [hm]
  exact ⟨f m, rfl⟩

/-- No part state refuses an INQUIRE or a STATUS (R163, R169). -/
theorem stateRefusal_inquire (s : State) : s.stateRefusal .inquire = none := by
  unfold State.stateRefusal
  split <;> simp

theorem stateRefusal_status (s : State) : s.stateRefusal .status = none := by
  unfold State.stateRefusal
  split <;> simp

/-- Settles O10: each scope is served to its answer, which changes the Message Port alone. -/
theorem inquireAndStatusReply : Obligations.InquireAndStatusReply := by
  intro s tag p hs
  refine ⟨fun ht => takeRequest_answers ⟨hs, ht, stateRefusal_inquire s⟩ rfl, fun ht => ?_⟩
  have hserves : s.serves .status tag p := ⟨hs, ht, stateRefusal_status s⟩
  refine ⟨fun h0 => takeRequest_mp hserves ?_ (answer_onMp_eq _ ..), fun h0 h1 => takeRequest_answers hserves ?_,
    fun h0 => takeRequest_answers hserves ?_, fun h0 => takeRequest_answers hserves ?_,
    fun h => takeRequest_answers hserves ?_⟩
  · simp only [serveStatus, h0]
  · simp only [serveStatus, h0]
    rw [if_pos (Nat.le_of_lt_succ h1)]
    rfl
  · simp only [serveStatus, h0]
  · simp only [serveStatus, h0]
  · rcases h with ⟨h0, h1⟩ | h0
    · simp only [serveStatus, h0]
      rw [if_neg (by omega)]
      rfl
    · unfold serveStatus
      split
      case h_5 => rfl
      all_goals omega

/-! ## TABLE_READ (R173) -/

theorem answerInRange_inside {i n : Nat} (tag : ReqTag) (body : ReplyBody) (s : State) (h : i < n) :
    answerInRange tag (decide (i < n)) body s = s.answer tag .ok body := by
  rw [answerInRange, decide_eq_true h, if_pos rfl]

theorem answerInRange_outside {i n : Nat} (tag : ReqTag) (body : ReplyBody) (s : State) (h : n ≤ i) :
    answerInRange tag (decide (i < n)) body s = s.answer tag .badField .empty := by
  rw [answerInRange, decide_eq_false (Nat.not_lt.2 h)]
  rfl

theorem viewOfCode_unknown {v : Nat} (h : 9 ≤ v) : View.ofCode v = none := by
  unfold View.ofCode
  split
  case h_10 => rfl
  all_goals omega

theorem laneView_without_job {s : State} {n : Nat} (h : (s.lane n).job = none) :
    (s.laneView n).front = 0 ∧ (s.laneView n).persisted = 0 := by
  simp [State.laneView, h]

theorem laneView_with_job {s : State} {n : Nat} {j : Job} (h : (s.lane n).job = some j) :
    (s.laneView n).front = (s.slab j.slab).front ∧ (s.laneView n).persisted = (s.slab j.slab).persisted := by
  simp [State.laneView, Lane.slab, h]

theorem serveTableRead_outside {tag : ReqTag} {p : List Byte} {s : State}
    (h : (byteAt p 0 = 0 ∧ 256 ≤ fieldAt p 2 2) ∨ (byteAt p 0 = 1 ∧ 64 ≤ fieldAt p 2 2)
      ∨ (byteAt p 0 = 2 ∧ 64 ≤ fieldAt p 2 2) ∨ (byteAt p 0 = 3 ∧ 16384 ≤ fieldAt p 2 2)
      ∨ (byteAt p 0 = 4 ∧ 512 ≤ fieldAt p 2 2) ∨ (byteAt p 0 = 6 ∧ 4 ≤ fieldAt p 2 2)
      ∨ (byteAt p 0 = 7 ∧ 16 ≤ fieldAt p 2 2) ∨ (byteAt p 0 = 8 ∧ 1024 ≤ fieldAt p 2 2) ∨ 9 ≤ byteAt p 0) :
    serveTableRead tag p s = s.answer tag .badField .empty := by
  rcases h with ⟨hv, hi⟩ | ⟨hv, hi⟩ | ⟨hv, hi⟩ | ⟨hv, hi⟩ | ⟨hv, hi⟩ | ⟨hv, hi⟩ | ⟨hv, hi⟩ | ⟨hv, hi⟩ | hv
  case inr.inr.inr.inr.inr.inr.inr.inr =>
    simp only [serveTableRead, viewOfCode_unknown hv]
    rfl
  all_goals simp only [serveTableRead, hv, View.ofCode]
  case inr.inr.inl => exact if_neg (Nat.not_lt.2 hi)
  case inr.inr.inr.inr.inr.inr.inr.inl => exact if_neg (Nat.not_lt.2 hi)
  all_goals exact answerInRange_outside _ _ _ hi

/-- Settles O11: each view is served to its answer. -/
theorem tableReadReplies : Obligations.TableReadReplies := by
  intro s tag p hserves view i slot replies
  have reply {r : Result} {b : ReplyBody} (hf : serveTableRead tag p s = s.answer tag r b) : replies r b :=
    takeRequest_answers hserves hf
  refine ⟨fun hv hi => reply ?_, fun hv hi => reply ?_, fun hv hi hnone => reply ?_, fun hv hi hused hslot => reply ?_,
    fun hv hi => reply ?_, fun hv hi => reply ?_, fun hv j hj => reply ?_, fun hv hj => reply ?_, fun hv hi => reply ?_,
    laneView_without_job, fun _ => laneView_with_job, fun hv hi => reply ?_, fun hv hi d hd => reply ?_,
    fun hv hi hd => reply ?_, fun h => reply (serveTableRead_outside h)⟩
  all_goals simp only [serveTableRead, show byteAt p 0 = _ from hv, View.ofCode]
  · exact answerInRange_inside tag _ s hi
  · exact answerInRange_inside tag _ s hi
  · rw [if_pos hi, State.slotView, if_pos hnone]
    rfl
  · rw [if_pos hi, State.slotView, if_neg (not_or.2 ⟨hused, Nat.not_le.2 hslot⟩)]
    rfl
  · exact answerInRange_inside tag _ s hi
  · exact answerInRange_inside tag _ s hi
  · rw [show s.me.jobs[fieldAt p 2 2]? = some j from hj]
    rfl
  · rw [List.getElem?_eq_none hj]
    rfl
  · exact answerInRange_inside tag _ s hi
  · exact answerInRange_inside tag _ s hi
  · rw [if_pos hi, show s.me.damage[fieldAt p 2 2]? = some d from hd]
    rfl
  · rw [if_pos hi, List.getElem?_eq_none hd]
    rfl

/-- Settles O12: the answer, and the one field of the Message Port that changes with it. -/
theorem maskAndFaultRequests : Obligations.MaskAndFaultRequests := fun _ _ _ =>
  ⟨fun h => takeRequest_mp h rfl (answer_onMp_eq ..), fun h => takeRequest_answers h rfl,
    fun h => takeRequest_mp h rfl (answer_onMp_eq ..)⟩

/-! ## Requests that the part's state refuses -/

/-- A request refused by the part's state is answered with its result, whatever its owner would do with it. -/
theorem takeRequest_refused {k : ReqKind} {tag : ReqTag} {p : List Byte} {f : List Byte → State → State} {s : State}
    {r : Result} (hs : s.quiet) (ht : s.takeable k tag = some ⟨tag, k, p, false⟩) (hr : s.stateRefusal k = some r) :
    takeRequest k tag f s = .next (s.answer tag r .empty) := by
  simp only [takeRequest, ht, serveRequest, hr, conclude]
  rw [finish_refuse hs, State.refuse]

theorem stateRefusal_starting {s : State} {k : ReqKind} (h : s.part = .starting) (hi : k ≠ .inquire) (hs : k ≠ .status) :
    s.stateRefusal k = some .starting := by
  simp [State.stateRefusal, h, hi, hs]

theorem stateRefusal_blank {s : State} {k : ReqKind} {cause : Option BlankCause} (h : s.part = .blank cause)
    (hi : k ≠ .inquire) (hs : k ≠ .status) (hf : k ≠ .format) : s.stateRefusal k = some .wrongState := by
  simp [State.stateRefusal, h, hi, hs, hf]

/-- Every command that names a request, FORMAT apart, takes it as its kind. -/
theorem exec_request {c : Instr} {k : ReqKind} {tag : ReqTag} (h : c.request = some (k, tag)) (hk : k ≠ .format) :
    ∃ f, ∀ s, exec c s = takeRequest k tag f s := by
  cases c <;> cases h
  case format => exact absurd rfl hk
  all_goals exact ⟨_, fun _ => rfl⟩

theorem execFormat_none {tag : ReqTag} {s : State} (h : s.takeable .format tag = none) : execFormat tag s = .next s := by
  simp only [execFormat, h]

theorem exec_untaken {c : Instr} {k : ReqKind} {tag : ReqTag} {s : State} (h : c.request = some (k, tag))
    (ht : s.takeable k tag = none) : exec c s = .next s := by
  by_cases hk : k = .format
  · subst hk
    cases c <;> cases h
    exact execFormat_none ht
  · obtain ⟨f, hf⟩ := exec_request h hk
    rw [hf, takeRequest_none ht]

/-- Settles O13: a command that names a request takes it as its kind, and the part's state answers first. -/
theorem requestsRefusedByState : Obligations.RequestsRefusedByState := by
  intro c k tag s hc hs
  refine ⟨exec_untaken hc, fun p ht hformat hinquire hstatus => ?_⟩
  obtain ⟨f, hf⟩ := exec_request hc hformat
  refine ⟨fun hpart => ?_, fun cause hpart => ?_⟩
  · rw [hf, takeRequest_refused hs ht (stateRefusal_starting hpart hinquire hstatus)]
  · rw [hf, takeRequest_refused hs ht (stateRefusal_blank hpart hinquire hstatus hformat)]

/-! ## Frames sent (R171, R176) -/

theorem execOutboundFrameSent_counts {s : State} {f : OutFrame} {rest : List OutFrame} (hs : s.quiet)
    (ho : s.mp.outbound = f :: rest) (h : s.draining = false ∨ f.resetReply = false) :
    exec .outboundFrameSent s = .next (countSent f (s.onMp (fun m => { m with outbound := rest }))) := by
  have hdrain : ¬(s.draining = true ∧ f.resetReply = true) := by
    rintro ⟨hd, hf⟩
    rcases h with h | h <;> simp_all
  change execOutboundFrameSent s = _
  simp only [execOutboundFrameSent, ho]
  rw [if_neg hdrain, conclude, countSent]
  split
  · exact congrArg _ (finish_mp hs _)
  · exact congrArg _ (finish_mp hs _)

/-- Settles O18: the frame that leaves is counted by its kind. -/
theorem sentFrameLeavesQueue : Obligations.SentFrameLeavesQueue := by
  intro s f rest hs ho h
  refine ⟨fun hf => ?_, fun hf => ?_⟩
  · rw [execOutboundFrameSent_counts hs ho h, countSent, if_pos hf]
    rfl
  · rw [execOutboundFrameSent_counts hs ho h, countSent, if_neg (by simp [hf])]
    rfl

end Sys2Proof.Machine
end

section
/-! PROOFS. The control link: acceptance (R169), the receiver (R167, R168), and the drain of a RESET (R162). -/

namespace Sys2Proof.Machine

/-! ## Acceptance -/

theorem replyFree_of_lt {s : State} (h : replyCount s.mp.outbound + s.mp.openTags.length < 96) : s.replyFree = true :=
  decide_eq_true h

theorem execAcceptRequest_judges {s : State} {f : Frame} {rest : List Frame} (hf : s.mp.fifo = f :: rest)
    (hfree : replyCount s.mp.outbound + s.mp.openTags.length < 96) (hd : s.draining = false) :
    exec .acceptRequest s = conclude s (judgeFrame f (s.onMp (fun m => { m with fifo := rest }))) := by
  change execAcceptRequest s = _
  simp only [execAcceptRequest, hf]
  rw [if_pos ⟨replyFree_of_lt hfree, hd⟩]

/-- A frame that fails a check is refused with its result. -/
theorem acceptRequest_refuses {s : State} {f : Frame} {rest : List Frame} {r : Result} (hs : s.quiet)
    (hf : s.mp.fifo = f :: rest) (hfree : replyCount s.mp.outbound + s.mp.openTags.length < 96) (hd : s.draining = false)
    (hc : s.acceptCheck f = some r) :
    exec .acceptRequest s = .next { s with mp := { s.mp with
      fifo := rest,
      counters := { s.mp.counters with refused := min (s.mp.counters.refused + 1) 4294967295 },
      outbound := s.mp.outbound ++ [.reply f.tag
        (((ReqKind.ofCode f.kind.toNat).map (fun k => k.code + 0x80)).getD 0x80) r .empty] } } := by
  have hc' : (s.onMp (fun m => { m with fifo := rest })).acceptCheck f = some r := hc
  rw [execAcceptRequest_judges hf hfree hd, judgeFrame, hc']
  exact congrArg _ (finish_mp hs _)

/-- A frame that passes every check is accepted as its kind. -/
theorem acceptRequest_accepts {s : State} {f : Frame} {rest : List Frame} {k : ReqKind} (hs : s.quiet)
    (hf : s.mp.fifo = f :: rest) (hfree : replyCount s.mp.outbound + s.mp.openTags.length < 96) (hd : s.draining = false)
    (hc : s.acceptCheck f = none) (hk : ReqKind.ofCode f.kind.toNat = some k) :
    exec .acceptRequest s = .next { s with mp := { s.mp with
      fifo := rest,
      counters := { s.mp.counters with accepted := min (s.mp.counters.accepted + 1) 4294967295 },
      openTags := s.mp.openTags ++ [f.tag],
      requests := s.mp.requests ++ [⟨f.tag, k, f.payload, false⟩] } } := by
  have hc' : (s.onMp (fun m => { m with fifo := rest })).acceptCheck f = none := hc
  rw [execAcceptRequest_judges hf hfree hd, judgeFrame, hc']
  simp only [acceptFrame, hk]
  exact congrArg _ (finish_mp hs _)

theorem acceptCheck_tagZero {s : State} {f : Frame} (h : f.tag = 0) : s.acceptCheck f = some .badField := by
  rw [State.acceptCheck, if_pos h]

theorem acceptCheck_tagOpen {s : State} {f : Frame} (h : f.tag ≠ 0) (ho : f.tag ∈ s.mp.openTags) :
    s.acceptCheck f = some .dupTag := by
  rw [State.acceptCheck, if_neg h, if_pos (List.contains_iff_mem.2 ho)]

theorem acceptCheck_kind {s : State} {f : Frame} (h : f.tag ≠ 0) (ho : f.tag ∉ s.mp.openTags)
    (hk : ReqKind.ofCode f.kind.toNat = none) : s.acceptCheck f = some .badKind := by
  rw [State.acceptCheck, if_neg h, if_neg (mt List.contains_iff_mem.1 ho)]
  simp only [hk]

theorem acceptCheck_length {s : State} {f : Frame} {k : ReqKind} (h : f.tag ≠ 0) (ho : f.tag ∉ s.mp.openTags)
    (hk : ReqKind.ofCode f.kind.toNat = some k) (hl : lengthAllowed k f.payload.length = false) :
    s.acceptCheck f = some .badLength := by
  rw [State.acceptCheck, if_neg h, if_neg (mt List.contains_iff_mem.1 ho)]
  simp [hk, hl]

theorem acceptCheck_state {s : State} {f : Frame} {k : ReqKind} {r : Result} (h : f.tag ≠ 0) (ho : f.tag ∉ s.mp.openTags)
    (hk : ReqKind.ofCode f.kind.toNat = some k) (hl : lengthAllowed k f.payload.length = true)
    (hr : s.stateRefusal k = some r) : s.acceptCheck f = some r := by
  rw [State.acceptCheck, if_neg h, if_neg (mt List.contains_iff_mem.1 ho)]
  simp [hk, hl, hr]

theorem acceptCheck_room {s : State} {f : Frame} {k : ReqKind} (h : f.tag ≠ 0) (ho : f.tag ∉ s.mp.openTags)
    (hk : ReqKind.ofCode f.kind.toNat = some k) (hl : lengthAllowed k f.payload.length = true)
    (hr : s.stateRefusal k = none) :
    s.acceptCheck f = if s.mp.requests.length < Config.maxRequests then none else some .busy := by
  rw [State.acceptCheck, if_neg h, if_neg (mt List.contains_iff_mem.1 ho)]
  simp [hk, hl, hr]

/-- Settles O15: the checks are read in order, and the first one that fails gives the result. -/
theorem acceptanceChecksInOrder : Obligations.AcceptanceChecksInOrder := by
  intro s f rest hs hf hfree hd refused
  have refuse {r : Result} (hc : s.acceptCheck f = some r) : refused r := acceptRequest_refuses hs hf hfree hd hc
  refine ⟨fun h0 => refuse (acceptCheck_tagZero h0), fun h0 ho => refuse (acceptCheck_tagOpen h0 ho), fun h0 ho => ?_⟩
  refine ⟨fun hk => refuse (acceptCheck_kind h0 ho hk), fun k hk => ?_⟩
  refine ⟨fun hl => refuse (acceptCheck_length h0 ho hk hl), fun hl => ?_⟩
  refine ⟨fun hp hi hst => refuse ?_, fun cause hp hi hst hfmt => refuse ?_, fun hr hfull => refuse ?_, fun hr hroom => ?_⟩
  · exact acceptCheck_state h0 ho hk hl (stateRefusal_starting hp hi hst)
  · exact acceptCheck_state h0 ho hk hl (stateRefusal_blank hp hi hst hfmt)
  · exact (acceptCheck_room h0 ho hk hl hr).trans (if_neg (Nat.not_lt.2 hfull))
  · exact acceptRequest_accepts hs hf hfree hd ((acceptCheck_room h0 ho hk hl hr).trans (if_pos hroom)) hk

/-! ## A byte received changes the Message Port alone -/

/-- A state that differs from another in the Message Port alone. -/
def MpOnly (s t : State) : Prop := ∃ m, t = { s with mp := m }

theorem MpOnly.refl (s : State) : MpOnly s s := ⟨s.mp, rfl⟩

theorem MpOnly.onMp (f : MsgPort → MsgPort) (s : State) : MpOnly s (s.onMp f) := ⟨f s.mp, rfl⟩

theorem MpOnly.trans {s t u : State} (h : MpOnly s t) (h' : MpOnly t u) : MpOnly s u := by
  obtain ⟨m, rfl⟩ := h
  obtain ⟨m', rfl⟩ := h'
  exact ⟨m', rfl⟩

theorem MpOnly.finish {s t : State} (h : MpOnly s t) (hs : s.quiet) : finish s t = t := by
  obtain ⟨m, rfl⟩ := h
  exact finish_mp hs m

theorem startHeader_mpOnly (got : List Byte) (s : State) : MpOnly s (startHeader got s) := by
  unfold startHeader
  split
  · exact .onMp _ s
  · exact .trans (.onMp _ s) (.onMp _ _)

theorem judgeHeader_mpOnly (h : List Byte) (overrun : Bool) (s : State) : MpOnly s (judgeHeader h overrun s) := by
  unfold judgeHeader
  split
  · exact .onMp _ s
  · dsimp only
    split
    · exact .trans (.onMp _ s) (.onMp _ _)
    · exact .trans (.onMp _ s) (startHeader_mpOnly ..)

theorem badFrame_mpOnly (s : State) : MpOnly s (badFrame s) :=
  .trans (.onMp _ s) (.trans (.onMp _ _) (offerFault_eq _ _))

theorem goodFrame_mpOnly (f : Frame) (s : State) : MpOnly s (goodFrame f s) := by
  unfold goodFrame
  dsimp only
  split
  · exact .trans (.onMp _ s) (.onMp _ _)
  · exact .trans (.onMp _ s) (.trans (.onMp _ _) (.onMp _ _))

theorem headerByte_mpOnly (got : List Byte) (overrun : Bool) (b : Byte) (s : State) :
    MpOnly s (headerByte got overrun b s) := by
  unfold headerByte
  dsimp only
  have hcount : ∀ c : Bool, MpOnly s (if c then countLink (fun c => { c with overruns := bump c.overruns }) s else s) := by
    intro c
    cases c
    · exact .refl s
    · exact ⟨_, rfl⟩
  split
  · exact (hcount _).trans (judgeHeader_mpOnly ..)
  · exact (hcount _).trans (.onMp _ _)

theorem payloadByte_mpOnly (h got : List Byte) (b : Byte) (s : State) : MpOnly s (payloadByte h got b s) := by
  unfold payloadByte
  dsimp only
  split
  · split
    · unfold judgePayload
      dsimp only
      split
      · exact goodFrame_mpOnly ..
      · exact badFrame_mpOnly s
    · exact .onMp _ s
  · exact .trans (.onMp _ s) (.onMp _ _)

theorem receiveByte_mpOnly (b : Byte) (s : State) : MpOnly s (receiveByte b s) := by
  unfold receiveByte
  dsimp only
  refine .trans (.onMp (fun m => { m with lastByte := s.now }) s) ?_
  split
  · split
    · exact startHeader_mpOnly ..
    · exact .refl _
  · exact headerByte_mpOnly ..
  · exact payloadByte_mpOnly ..
  · exact .onMp _ _

theorem receive_mpOnly (bytes : List Byte) (s : State) : MpOnly s (receive bytes s) := by
  induction bytes generalizing s with
  | nil => exact .refl s
  | cons b rest ih => exact (receiveByte_mpOnly b s).trans (ih (receiveByte b s))

theorem receive_cons (b : Byte) (rest : List Byte) (s : State) : receive (b :: rest) s = receive rest (receiveByte b s) := rfl

/-! ## The byte in each state of the receiver -/

/-- The state in which a byte is judged: its time has been taken. -/
def State.heard (s : State) : State := { s with mp := { s.mp with lastByte := s.clock.now } }

theorem receiveByte_hunting {b : Byte} {s : State} (h : s.mp.receiver = .hunting) :
    receiveByte b s = if b = 0xC3#8 then startHeader [] s.heard else s.heard := by
  simp only [receiveByte, onMp_mp, h]
  rfl

theorem receiveByte_header {b : Byte} {s : State} {got : List Byte} {overrun : Bool} (h : s.mp.receiver = .header got overrun) :
    receiveByte b s = headerByte got overrun b s.heard := by
  simp only [receiveByte, onMp_mp, h]
  rfl

theorem receiveByte_payload {b : Byte} {s : State} {hd got : List Byte} (h : s.mp.receiver = .payload hd got) :
    receiveByte b s = payloadByte hd got b s.heard := by
  simp only [receiveByte, onMp_mp, h]
  rfl

theorem receiveByte_discarding {b : Byte} {s : State} {left : Nat} (h : s.mp.receiver = .discarding left) :
    receiveByte b s = setReceiver (if left ≤ 1 then .hunting else .discarding (left - 1)) s.heard := by
  simp only [receiveByte, onMp_mp, h]
  rfl

/-! ## Headers -/

theorem startHeader_fits {got : List Byte} {s : State} (h : s.mp.used + 1 + got.length < 4096) :
    startHeader got s = setReceiver (.header got false) s := if_pos h

/-- The overruns counter raised, with the receiver that goes on. -/
def State.overran (s : State) (receiver : Receiver) : State :=
  { s with mp := { s.mp with
      receiver := receiver, counters := { s.mp.counters with overruns := min (s.mp.counters.overruns + 1) 4294967295 } } }

theorem startHeader_overruns {got : List Byte} {s : State} (h : 4096 ≤ s.mp.used + 1 + got.length) :
    startHeader got s = s.overran (.header got true) := if_neg (Nat.not_lt.2 h)

/-- The overrun of a header byte, counted once: at the byte that fills the FIFO, not in a header overrun before. -/
def State.headerOverrun (s : State) (got : List Byte) (overrun : Bool) : Bool :=
  overrun || decide (4096 ≤ s.mp.used + 2 + got.length)

def State.countHeaderOverrun (s : State) (got : List Byte) (overrun : Bool) : State :=
  { s with mp := { s.mp with counters := { s.mp.counters with
      overruns := if overrun = false ∧ 4096 ≤ s.mp.used + 2 + got.length then min (s.mp.counters.overruns + 1) 4294967295
        else s.mp.counters.overruns } } }

theorem headerByte_eq (got : List Byte) (overrun : Bool) (b : Byte) (s : State) :
    headerByte got overrun b s =
      if got.length = 5 then judgeHeader (got ++ [b]) (s.headerOverrun got overrun) (s.countHeaderOverrun got overrun)
      else setReceiver (.header (got ++ [b]) (s.headerOverrun got overrun)) (s.countHeaderOverrun got overrun) := by
  have hcount : (if (decide (Config.fifoBytes ≤ s.mp.used + 2 + got.length) && !overrun) = true then
      countLink (fun c => { c with overruns := bump c.overruns }) s else s) = s.countHeaderOverrun got overrun := by
    unfold State.countHeaderOverrun
    by_cases h : overrun = false ∧ 4096 ≤ s.mp.used + 2 + got.length
    · rw [if_pos h, h.1, decide_eq_true (show Config.fifoBytes ≤ _ from h.2)]
      rfl
    · rw [if_neg h, if_neg fun hc => h ?_]
      rw [Bool.and_eq_true, decide_eq_true_eq, Bool.not_eq_true'] at hc
      exact hc.symm
  have hlen : (got ++ [b]).length = 6 ↔ got.length = 5 := by simp
  simp only [headerByte, hcount, hlen]
  rfl

/-- The header check and the length of six collected bytes. -/
theorem headerGood_append {got : List Byte} {b : Byte} (hl : got.length = 5) :
    headerGood (got ++ [b]) = true ↔ b = complementSum got ∧ fieldAt got 0 2 ≤ 1024 := by
  have hb : (got ++ [b])[5]?.getD 0#8 = b := by simp [← hl]
  have ht : (got ++ [b]).take 5 = got := List.take_left' hl
  have hf : fieldAt (got ++ [b]) 0 2 = fieldAt got 0 2 := by
    simp [fieldAt, List.take_append_of_le_length (show 2 ≤ got.length by omega)]
  simp [headerGood, hb, ht, hf]

theorem fieldAt_header {got : List Byte} {b : Byte} (hl : got.length = 5) :
    fieldAt (got ++ [b]) 0 2 = fieldAt got 0 2 := by
  simp [fieldAt, List.take_append_of_le_length (show 2 ≤ got.length by omega)]

theorem judgeHeader_good {h : List Byte} {overrun : Bool} {s : State} (hg : headerGood h = true) :
    judgeHeader h overrun s = setReceiver (if overrun then .discarding (fieldAt h 0 2 + 4) else .payload h []) s :=
  if_pos hg

/-- The state after a rejected header, counted. -/
def State.rejectedHeader (s : State) : State :=
  { s with mp := { s.mp with counters := { s.mp.counters with
      headerErrors := min (s.mp.counters.headerErrors + 1) 4294967295 } } }

theorem judgeHeader_hunts {h : List Byte} {overrun : Bool} {s : State} (hg : ¬headerGood h = true) (hm : 0xC3#8 ∉ h) :
    judgeHeader h overrun s = setReceiver .hunting s.rejectedHeader := by
  have hd : h.dropWhile (fun b => b ≠ 0xC3#8) = [] :=
    dropWhile_all fun b hb => decide_eq_true fun hb' => hm (hb' ▸ hb)
  unfold judgeHeader
  rw [if_neg hg, hd]
  rfl

theorem dropWhile_before {before rest : List Byte} (hm : 0xC3#8 ∉ before) :
    (before ++ 0xC3#8 :: rest).dropWhile (fun b => b ≠ 0xC3#8) = 0xC3#8 :: rest := by
  have hall : ∀ b ∈ before, decide (b ≠ 0xC3#8) = true := fun b hb => decide_eq_true fun hb' => hm (hb' ▸ hb)
  rw [List.dropWhile_append_of_pos hall, List.dropWhile_cons_of_neg (by simp)]

theorem judgeHeader_restarts {h before rest : List Byte} {overrun : Bool} {s : State} (hg : ¬headerGood h = true)
    (hh : h = before ++ 0xC3#8 :: rest) (hm : 0xC3#8 ∉ before) :
    judgeHeader h overrun s = startHeader rest s.rejectedHeader := by
  unfold judgeHeader
  rw [if_neg hg, hh, dropWhile_before hm]
  rfl

/-! ## Payloads -/

theorem payloadByte_collects {h got : List Byte} {b : Byte} {s : State} (hroom : s.mp.used + 8 + got.length < 4096)
    (hl : got.length + 1 < fieldAt h 0 2 + 4) : payloadByte h got b s = setReceiver (.payload h (got ++ [b])) s := by
  have hne : ¬(got ++ [b]).length = fieldAt h 0 2 + 4 := by simp; omega
  have hfit : s.mp.used + 7 + (got ++ [b]).length ≤ fifoRoom (decide ((got ++ [b]).length = fieldAt h 0 2 + 4)) := by
    rw [decide_eq_false hne]
    simp [fifoRoom, Config.fifoBytes]
    omega
  unfold payloadByte
  dsimp only
  rw [if_pos hfit, if_neg hne]

theorem payloadByte_overruns {h got : List Byte} {b : Byte} {s : State} (hfull : 4096 ≤ s.mp.used + 8 + got.length)
    (hl : got.length + 1 < fieldAt h 0 2 + 4) :
    payloadByte h got b s = s.overran (.discarding (fieldAt h 0 2 + 4 - got.length - 1)) := by
  have hne : ¬(got ++ [b]).length = fieldAt h 0 2 + 4 := by simp; omega
  have hfit : ¬s.mp.used + 7 + (got ++ [b]).length ≤ fifoRoom (decide ((got ++ [b]).length = fieldAt h 0 2 + 4)) := by
    rw [decide_eq_false hne]
    simp [fifoRoom, Config.fifoBytes]
    omega
  have hleft : fieldAt h 0 2 + 4 - (got ++ [b]).length = fieldAt h 0 2 + 4 - got.length - 1 := by simp; omega
  unfold payloadByte
  dsimp only
  rw [if_neg hfit, hleft, if_neg (by omega)]
  rfl

theorem payloadByte_completes {h got : List Byte} {b : Byte} {s : State} (hroom : s.mp.used + 8 + got.length ≤ 4096)
    (hl : got.length + 1 = fieldAt h 0 2 + 4) : payloadByte h got b s = judgePayload h (got ++ [b]) s := by
  have heq : (got ++ [b]).length = fieldAt h 0 2 + 4 := by simpa using hl
  have hfit : s.mp.used + 7 + (got ++ [b]).length ≤ fifoRoom (decide ((got ++ [b]).length = fieldAt h 0 2 + 4)) := by
    rw [decide_eq_true heq]
    simp [fifoRoom, Config.fifoBytes]
    omega
  unfold payloadByte
  dsimp only
  rw [if_pos hfit, if_pos heq]

theorem judgePayload_good {h got : List Byte} {s : State}
    (hc : fieldAt got (fieldAt h 0 2) 4 = crc32 (got.take (fieldAt h 0 2))) :
    judgePayload h got s = goodFrame (frameOf h (got.take (fieldAt h 0 2))) s := if_pos hc

theorem judgePayload_bad {h got : List Byte} {s : State}
    (hc : fieldAt got (fieldAt h 0 2) 4 ≠ crc32 (got.take (fieldAt h 0 2))) : judgePayload h got s = badFrame s := if_neg hc

theorem goodFrame_draining {f : Frame} {s : State} (h : s.draining = true) :
    goodFrame f s = { s with mp := { s.mp with
      receiver := .hunting,
      counters := { s.mp.counters with framesReceived := min (s.mp.counters.framesReceived + 1) 4294967295 } } } :=
  if_pos h

theorem goodFrame_joins {f : Frame} {s : State} (h : s.draining = false) :
    goodFrame f s = { s with mp := { s.mp with
      receiver := .hunting,
      counters := { s.mp.counters with framesReceived := min (s.mp.counters.framesReceived + 1) 4294967295 },
      fifo := s.mp.fifo ++ [f] } } := if_neg (by simp [setReceiver, countLink, h])

/-- A header with which the FIFO is not full counts no overrun. -/
theorem headerByte_fits {got : List Byte} {s : State} (h : s.mp.used + 2 + got.length < 4096) :
    s.headerOverrun got false = false ∧ s.countHeaderOverrun got false = s := by
  have hn : ¬4096 ≤ s.mp.used + 2 + got.length := by omega
  exact ⟨by simp [State.headerOverrun, hn], by simp [State.countHeaderOverrun, hn]⟩

/-- The header byte that fills the FIFO counts its overrun. -/
theorem headerByte_full {got : List Byte} {s : State} (h : 4096 ≤ s.mp.used + 2 + got.length) :
    s.headerOverrun got false = true ∧ s.countHeaderOverrun got false = s.overran s.mp.receiver := by
  refine ⟨decide_eq_true h, ?_⟩
  unfold State.countHeaderOverrun
  rw [if_pos ⟨rfl, h⟩]
  rfl

/-- An overrun is counted once. -/
theorem headerByte_overrun (got : List Byte) (s : State) :
    s.headerOverrun got true = true ∧ s.countHeaderOverrun got true = s := ⟨rfl, rfl⟩

/-- Settles O16: one equation for each state of the receiver, and for each judgement. -/
theorem receiverJudgesFrames : Obligations.ReceiverJudgesFrames := by
  intro s b hs heard
  refine ⟨fun bytes => ⟨?_, ?_⟩, fun h hb => ?_, fun h hb hroom => ?_, fun got h hl hroom => ?_,
    fun got h hl hroom hb hf => ?_, fun got overrun h hl hbad => ?_, ⟨fun h hb hfull => ?_, fun got h hl hfull => ?_,
    fun got h hl hfull hb hf => ?_⟩, fun got h => ⟨fun hl => ?_, fun hl hb hf => ?_⟩, fun hd got h hroom hl => ?_,
    fun hd got h hfull hl => ?_, fun hd got h hroom hl hc hdrain => ?_, fun hd got h hroom hl => ⟨fun hc hdrain => ?_,
    fun hc => ?_⟩⟩
  · exact congrArg _ ((receive_mpOnly (b :: bytes) s).finish hs)
  · exact congrArg _ ((receive_mpOnly (b :: bytes) s).finish hs)
  · rw [receiveByte_hunting h, if_neg hb]
    rfl
  · rw [receiveByte_hunting h, if_pos hb, startHeader_fits (got := []) (s := s.heard) hroom]
    rfl
  · obtain ⟨ho, hc⟩ := headerByte_fits (s := s.heard) hroom
    rw [receiveByte_header h, headerByte_eq, if_neg (by omega), ho, hc]
    rfl
  · obtain ⟨ho, hc⟩ := headerByte_fits (s := s.heard) (got := got) (by rw [hl]; exact hroom)
    rw [receiveByte_header h, headerByte_eq, if_pos hl, ho, hc, judgeHeader_good ((headerGood_append hl).2 ⟨hb, hf⟩)]
    rfl
  · have hreject : ¬headerGood (got ++ [b]) = true := mt (headerGood_append hl).1 hbad
    intro overruns rejected
    have hjudged : receiveByte b s = judgeHeader (got ++ [b]) (s.heard.headerOverrun got overrun)
        (s.heard.countHeaderOverrun got overrun) := by
      rw [receiveByte_header h, headerByte_eq, if_pos hl]
    have hcounted : (s.heard.countHeaderOverrun got overrun).mp.counters.overruns = overruns := by
      simp only [State.countHeaderOverrun, hl]
      rfl
    have hrejected : ∀ receiver, setReceiver receiver (s.heard.countHeaderOverrun got overrun).rejectedHeader
        = rejected receiver overruns := fun receiver => by
      rw [← hcounted]
      rfl
    refine ⟨fun hm => ?_, fun before rest hsplit hm => ⟨fun hroom => ?_, fun hfull => ?_⟩⟩
    · rw [hjudged, judgeHeader_hunts hreject hm, hrejected]
    · rw [hjudged, judgeHeader_restarts hreject hsplit hm, startHeader_fits (by exact hroom), hrejected]
    · rw [hjudged, judgeHeader_restarts hreject hsplit hm, startHeader_overruns (by exact hfull), ← hcounted]
      rfl
  · rw [receiveByte_hunting h, if_pos hb, startHeader_overruns (got := []) (s := s.heard) hfull]
    rfl
  · obtain ⟨ho, hc⟩ := headerByte_full (s := s.heard) hfull
    rw [receiveByte_header h, headerByte_eq, if_neg (by omega), ho, hc]
    rfl
  · obtain ⟨ho, hc⟩ := headerByte_full (s := s.heard) (got := got) (by rw [hl]; exact hfull)
    rw [receiveByte_header h, headerByte_eq, if_pos hl, ho, hc, judgeHeader_good ((headerGood_append hl).2 ⟨hb, hf⟩),
      fieldAt_header hl]
    rfl
  · obtain ⟨ho, hc⟩ := headerByte_overrun got s.heard
    rw [receiveByte_header h, headerByte_eq, if_neg (by omega), ho, hc]
    rfl
  · obtain ⟨ho, hc⟩ := headerByte_overrun got s.heard
    rw [receiveByte_header h, headerByte_eq, if_pos hl, ho, hc, judgeHeader_good ((headerGood_append hl).2 ⟨hb, hf⟩),
      fieldAt_header hl]
    rfl
  · rw [receiveByte_payload h, payloadByte_collects (s := s.heard) hroom hl]
    rfl
  · rw [receiveByte_payload h, payloadByte_overruns (s := s.heard) hfull hl]
    rfl
  · rw [receiveByte_payload h, payloadByte_completes (s := s.heard) hroom hl, judgePayload_good hc,
      goodFrame_draining (by exact hdrain)]
    rfl
  · rw [receiveByte_payload h, payloadByte_completes (s := s.heard) hroom hl, judgePayload_good hc,
      goodFrame_joins (by exact hdrain)]
    rfl
  · rw [receiveByte_payload h, payloadByte_completes (s := s.heard) hroom hl, judgePayload_bad hc]
    rfl

/-! ## Frames that do not complete (R167, R168) -/

theorem receiveByte_counts {b : Byte} {s : State} {left : Nat} (h : s.mp.receiver = .discarding left) :
    receiveByte b s = { s with mp := { s.mp with
      lastByte := s.clock.now, receiver := if left ≤ 1 then .hunting else .discarding (left - 1) } } := by
  rw [receiveByte_discarding h]
  rfl

/-- The last of the bytes counted out makes the receiver hunt. -/
theorem receive_countsOut {bytes : List Byte} {s : State} (h : s.mp.receiver = .discarding bytes.length)
    (hl : 1 ≤ bytes.length) :
    receive bytes s = { s with mp := { s.mp with lastByte := s.clock.now, receiver := .hunting } } := by
  induction bytes generalizing s with
  | nil => simp at hl
  | cons b rest ih =>
    rw [receive_cons, receiveByte_counts h]
    cases rest with
    | nil => rfl
    | cons c more => rw [ih (by simp) (by simp)]

theorem execFrameByteTimeout_early {s : State} (h : s.mp.receiver = .hunting ∨ s.clock.now < s.mp.lastByte + 10000) :
    exec .frameByteTimeout s = .next s := by
  refine if_neg ?_
  rintro ⟨hin, hdue⟩
  rcases h with h | h
  · rw [h] at hin
    exact absurd hin Bool.false_ne_true
  · exact absurd hdue (Nat.not_le.2 h)

theorem execFrameByteTimeout_due {s : State} (hs : s.quiet) (h : s.mp.receiver ≠ .hunting)
    (hdue : s.mp.lastByte + 10000 ≤ s.clock.now) : exec .frameByteTimeout s = .next (badFrame s) := by
  have hin : s.mp.receiver.inFrame = true := by
    cases hr : s.mp.receiver with
    | hunting => exact absurd hr h
    | header got overrun => rfl
    | payload hd got => rfl
    | discarding left => rfl
  exact (if_pos ⟨hin, hdue⟩).trans (congrArg _ ((badFrame_mpOnly s).finish hs))

/-- Settles O17: a frame that fills the FIFO is counted out byte by byte, and one that meets the limit is bad. -/
theorem incompleteFramesEnd : Obligations.IncompleteFramesEnd := by
  intro s hs
  refine ⟨fun b hd got h hfull hl => ?_, fun left b h => receiveByte_counts h, fun bytes h hl => receive_countsOut h hl,
    fun h hdue => execFrameByteTimeout_due hs h hdue, execFrameByteTimeout_early⟩
  have hbyte : receiveByte b s = s.heard.overran (.discarding (fieldAt hd 0 2 + 4 - got.length - 1)) := by
    rw [receiveByte_payload h, payloadByte_overruns (s := s.heard) (Nat.le_of_eq hfull.symm) hl]
  refine (congrArg Host.Outcome.next ((receiveByte_mpOnly b s).finish hs)).trans ?_
  rw [hbyte]
  rfl

end Sys2Proof.Machine
end

section
/-! PROOFS. RESET (R162): the drain begins, and with its reply sent the issued commands are cancelled and the cold path begins. -/

namespace Sys2Proof.Machine

/-! ## The entries of a table in its form -/

theorem le_key_of_mem {α : Type} [DecidableEq α] {d : α} {t : List (Nat × α)} {low k : Nat} {v : α}
    (hw : tableWfFrom d low t = true) (hm : (k, v) ∈ t) : low ≤ k := by
  induction t generalizing low with
  | nil => exact absurd hm List.not_mem_nil
  | cons e rest ih =>
    simp only [tableWfFrom, Bool.and_eq_true, decide_eq_true_eq] at hw
    obtain ⟨⟨hlow, -⟩, hrest⟩ := hw
    rcases List.mem_cons.1 hm with rfl | hm
    · exact hlow
    · have := ih hrest hm
      omega

/-- A table in its form reads at a listed key what stands there. -/
theorem tableRead_of_mem {α : Type} [DecidableEq α] {d : α} {t : List (Nat × α)} {low k : Nat} {v : α}
    (hw : tableWfFrom d low t = true) (hm : (k, v) ∈ t) : tableRead d t k = v := by
  induction t generalizing low with
  | nil => exact absurd hm List.not_mem_nil
  | cons e rest ih =>
    simp only [tableWfFrom, Bool.and_eq_true, decide_eq_true_eq] at hw
    obtain ⟨-, hrest⟩ := hw
    rcases List.mem_cons.1 hm with rfl | hm
    · exact if_pos rfl
    · have hk := le_key_of_mem hrest hm
      exact (if_neg (by omega)).trans (ih hrest hm)

/-- The keys of a table in its form rise. -/
theorem keys_pairwise {α : Type} [DecidableEq α] {d : α} {t : List (Nat × α)} {low : Nat}
    (hw : tableWfFrom d low t = true) : (t.map Prod.fst).Pairwise (· < ·) := by
  induction t generalizing low with
  | nil => exact List.Pairwise.nil
  | cons e rest ih =>
    simp only [tableWfFrom, Bool.and_eq_true, decide_eq_true_eq] at hw
    obtain ⟨-, hrest⟩ := hw
    refine List.pairwise_cons.2 ⟨fun k hk => ?_, ih hrest⟩
    obtain ⟨⟨k, v⟩, hm, rfl⟩ := List.mem_map.1 hk
    exact le_key_of_mem hrest hm

/-! ## Ring entries -/

theorem entriesWhere_nodup {s : State} (p : Cmd → Bool) (hw : tableWf (RingEntry.free 0) s.dp.ring = true) :
    (s.entriesWhere p).Nodup :=
  ((keys_pairwise hw).sublist (List.filter_sublist.map _)).imp fun h => Nat.ne_of_lt h

theorem mem_entriesWhere {s : State} {p : Cmd → Bool} {e : Nat} (hw : tableWf (RingEntry.free 0) s.dp.ring = true)
    (h : e ∈ s.entriesWhere p) : ∃ c, (s.ring e).cmd = some c ∧ p c = true := by
  obtain ⟨⟨k, r⟩, hm, rfl⟩ := List.mem_map.1 h
  obtain ⟨hmem, hp⟩ := List.mem_filter.1 hm
  have hr : s.ring k = r := tableRead_of_mem hw hmem
  rw [hr]
  cases hc : r.cmd with
  | none => simp [hc] at hp
  | some c => exact ⟨c, rfl, by simpa [hc] using hp⟩

/-! ## Cancels -/

/-- Giving up the pages of a command changes the free places of the label buffer alone. -/
theorem freeLabelPlace_eq (c : Cmd) (s : State) :
    ∃ free, freeLabelPlace c s = { s with dp := { s.dp with labelFree := free } } := by
  unfold freeLabelPlace
  split
  · exact ⟨_, rfl⟩
  · exact ⟨_, rfl⟩
  · exact ⟨_, rfl⟩

theorem freeEntry_eq (e : Nat) (c : Cmd) (s : State) :
    ∃ free, freeEntry e c s = { s with dp := { s.dp with
      ring := tableWrite (RingEntry.free 0) s.dp.ring e (RingEntry.free (s.ring e).generation),
      freeOrder := s.dp.freeOrder ++ [e], labelFree := free } } := by
  obtain ⟨free, hfree⟩ := freeLabelPlace_eq c
    ((s.setRing e (RingEntry.free (s.ring e).generation)).onDp (fun d => { d with freeOrder := d.freeOrder ++ [e] }))
  exact ⟨free, hfree⟩

/-- A cancelled entry: its message is sent, and no other entry changes. -/
theorem cancelEntry_eq {e : Nat} {c : Cmd} {s : State} (h : (s.ring e).cmd = some c) :
    ∃ d, cancelEntry e s = { s with dp := d } ∧ d.sent = s.dp.sent ++ [.cancel e (s.ring e).generation]
      ∧ ∀ e', e' ≠ e → tableRead (RingEntry.free 0) d.ring e' = s.ring e' := by
  obtain ⟨free, hfree⟩ := freeEntry_eq e c s
  have hc : cancelEntry e s = (freeEntry e c s).send (.cancel e (s.ring e).generation) := by
    simp only [cancelEntry, h]
  refine ⟨_, hc.trans (by rw [hfree]; rfl), rfl, fun e' hne => ?_⟩
  exact tableRead_tableWrite_other _ _ _ hne

/-- Distinct entries that hold commands are cancelled, each with its message, in order. -/
theorem forEach_cancelEntry {es : List Nat} {s : State} (hn : es.Nodup) (hc : ∀ e ∈ es, (s.ring e).cmd.isSome = true) :
    ∃ d, forEach cancelEntry es s = { s with dp := d }
      ∧ d.sent = s.dp.sent ++ es.map (fun e => .cancel e (s.ring e).generation) := by
  induction es generalizing s with
  | nil => exact ⟨s.dp, rfl, by simp⟩
  | cons e rest ih =>
    obtain ⟨hne, hrest⟩ := List.nodup_cons.1 hn
    obtain ⟨c, hcmd⟩ := Option.isSome_iff_exists.1 (hc e List.mem_cons_self)
    obtain ⟨d, hd, hsent, hother⟩ := cancelEntry_eq hcmd
    have hring : ∀ e' ∈ rest, State.ring { s with dp := d } e' = s.ring e' := fun e' he' =>
      hother e' (fun h => hne (h ▸ he'))
    obtain ⟨d', hd', hsent'⟩ := ih (s := { s with dp := d }) hrest fun e' he' => by
      rw [hring e' he']
      exact hc e' (List.mem_cons_of_mem _ he')
    refine ⟨d', by rw [forEach, hd, hd'], ?_⟩
    have hmap : rest.map (fun e' => FabricMsg.cancel e' (State.ring { s with dp := d } e').generation)
        = rest.map (fun e' => .cancel e' (s.ring e').generation) :=
      List.map_congr_left fun e' he' => by rw [hring e' he']
    rw [hsent', hmap, show State.dp { s with dp := d } = d from rfl, hsent, List.map_cons, List.append_assoc,
      List.singleton_append]

theorem countSent_mpOnly (f : OutFrame) (s : State) : MpOnly s (countSent f s) := by
  unfold countSent
  split
  · exact .onMp _ s
  · exact .onMp _ s

/-- The reply of a RESET has been sent during its drain. -/
theorem execOutboundFrameSent_resets {s : State} {f : OutFrame} {rest : List OutFrame} (ho : s.mp.outbound = f :: rest)
    (hd : s.draining = true) (hf : f.resetReply = true) :
    ∃ m, exec .outboundFrameSent s = concludeReset s (restarted
      (forEach cancelEntry (s.entriesWhere (fun _ => true)) { s with mp := m })) := by
  obtain ⟨m, hm⟩ := (MpOnly.onMp (fun m => { m with outbound := rest }) s).trans (countSent_mpOnly f _)
  refine ⟨m, ?_⟩
  change execOutboundFrameSent s = _
  simp only [execOutboundFrameSent, ho]
  rw [if_pos ⟨hd, hf⟩, hm]
  rfl

/-- Settles O14: the drain changes the Message Port alone; at its end the cancels go out entry after entry, and a restart keeps the log
of sent messages. -/
theorem resetDrainsAndRestarts : Obligations.ResetDrainsAndRestarts := by
  refine ⟨fun s tag p h => ?_, fun s tag rest hd hw ho => ?_⟩
  · refine (takeRequest_serves h).trans (congrArg _ ?_)
    obtain ⟨m, hm⟩ := answer_eq tag .ok .empty { s with draining := true, mp := { s.mp with fifo := [] } }
    refine Eq.trans (congrArg (finish s) hm) (Eq.trans ?_ hm.symm)
    exact finish_quiet h.1 rfl rfl rfl
  · obtain ⟨m, hm⟩ := execOutboundFrameSent_resets ho hd rfl
    obtain ⟨d, hd', hsent⟩ := forEach_cancelEntry (s := { s with mp := m }) (entriesWhere_nodup (fun _ => true) hw)
      fun e he => by
        obtain ⟨c, hc, -⟩ := mem_entriesWhere hw he
        exact Option.isSome_iff_exists.2 ⟨c, hc⟩
    rw [hm, hd', concludeReset, finishReset_quiet rfl]
    simp only [restarted, hsent]
    rfl

end Sys2Proof.Machine
end

section
/-! PROOFS. The Grant Unit's MAP (R50 to R54, R65): its checks, its grants and its deferral, and the watch that a grant breaks (R96,
R97). -/

namespace Sys2Proof.Machine

/-! ## The overlap of a range with a row (R52) -/

theorem overlapsRow_iff (w u r first last : Nat) :
    overlapsRow w u r first last = true ↔ first + 1 ≤ (r + 1) * ((w - 1) * u) ∧ r * ((w - 1) * u) ≤ last := by
  rw [overlapsRow, Bool.and_eq_true, decide_eq_true_eq, decide_eq_true_eq]
  rfl

/-- Settles O19: a shared offset is the larger of the two first offsets. -/
theorem rangeOverlapsRow : Obligations.RangeOverlapsRow := by
  intro w u r first last hw hu hrange
  have hspan : 1 ≤ (w - 1) * u := Nat.one_le_iff_ne_zero.2 (Nat.mul_ne_zero (by omega) (by omega))
  have hnext : (r + 1) * ((w - 1) * u) = r * ((w - 1) * u) + (w - 1) * u := by rw [Nat.add_mul, Nat.one_mul]
  rw [overlapsRow_iff]
  refine ⟨⟨fun ⟨hf, hl⟩ => ⟨by omega, hl⟩, fun ⟨hf, hl⟩ => ⟨by omega, hl⟩⟩,
    fun ⟨hf, hl⟩ => ⟨max first (r * ((w - 1) * u)), by omega⟩, fun ⟨o, hfo, hol, hro, hor⟩ => by omega⟩

/-! ## The checks of a MAP (R50) -/

theorem accessOf_none {n : Nat} (h : 2 ≤ n) : accessOf n = none := by
  unfold accessOf
  split
  case h_3 => rfl
  all_goals omega

theorem accessOf_some {n : Nat} (h : n < 2) : ∃ a, accessOf n = some a := by
  have : n = 0 ∨ n = 1 := by omega
  rcases this with rfl | rfl
  · exact ⟨.read, rfl⟩
  · exact ⟨.write, rfl⟩

theorem mapRefusal_form {s : State} {f : MapFields} (h : ¬(f.volume < 4 ∧ 1 ≤ f.count ∧ f.count ≤ 4096)) :
    s.mapRefusal f = some .badField := by
  rw [State.mapRefusal, if_pos]
  rw [Bool.not_eq_true', ← Bool.not_eq_true]
  simpa [and_assoc] using h

/-- With the form right the slab, the ready range and the free order are looked at. -/
theorem mapRefusal_formed {s : State} {f : MapFields} (h : f.volume < 4 ∧ 1 ≤ f.count ∧ f.count ≤ 4096) :
    s.mapRefusal f =
      if f.first / s.slabBlocks ≠ (f.first + f.count - 1) / s.slabBlocks then some .badField
      else if (s.volume f.volume).ready * s.slabBlocks ≤ f.first + f.count - 1 then some .outOfRange
      else if s.gu.freeOrder = [] then some .busy
      else none := by
  obtain ⟨hv, hlow, hhigh⟩ := h
  rw [State.mapRefusal, if_neg (by simp [hv, hlow, hhigh])]

/-- A refused MAP: answered, counted, and nothing else. -/
theorem map_refused {s : State} {tag : ReqTag} {p : List Byte} {r : Result} (h : s.serves .map tag p)
    (hr : serveMap tag p s = refuseMap tag r s) :
    exec (.map tag) s = .next ((s.answer tag r .empty).onGu (fun g =>
      { g with counters := { g.counters with refusals := min (g.counters.refusals + 1) 4294967295 } })) := by
  refine (takeRequest_serves h).trans (congrArg _ ?_)
  rw [hr]
  obtain ⟨m, hm⟩ := answer_eq tag r .empty s
  change finish s ((s.answer tag r .empty).onGu _) = _
  rw [hm]
  exact finish_gu_pm_mp h.1 _ s.pm m

theorem serveMap_refused {s : State} {tag : ReqTag} {p : List Byte} {r : Result} (ha : byteAt p 1 < 2)
    (hr : s.mapRefusal (mapFields p) = some r) : serveMap tag p s = refuseMap tag r s := by
  obtain ⟨a, ha⟩ := accessOf_some ha
  simp only [serveMap, hr, show (mapFields p).access = some a from ha]

/-- Settles O20: the checks are read in order, and the first one that fails gives the result. -/
theorem mapChecksInOrder : Obligations.MapChecksInOrder := by
  intro s tag p h volume access count first last refused check1 check2 check3
  have refuse {r : Result} (hr : serveMap tag p s = refuseMap tag r s) : refused r := map_refused h hr
  have formed (h1 : check1) : (mapFields p).volume < 4 ∧ 1 ≤ (mapFields p).count ∧ (mapFields p).count ≤ 4096 :=
    ⟨h1.1, h1.2.1, h1.2.2.1⟩
  refine ⟨fun h1 => refuse ?_, fun h1 h2 => refuse ?_, fun h1 h2 h3 => refuse ?_, fun h1 h2 h3 hfree => refuse ?_⟩
  · by_cases ha : access < 2
    · exact serveMap_refused ha (mapRefusal_form fun hf => h1 ⟨hf.1, hf.2.1, hf.2.2, ha⟩)
    · simp only [serveMap, show (mapFields p).access = none from accessOf_none (Nat.not_lt.1 ha)]
  · exact serveMap_refused h1.2.2.2 ((mapRefusal_formed (formed h1)).trans (if_pos h2))
  · exact serveMap_refused h1.2.2.2 ((mapRefusal_formed (formed h1)).trans
      ((if_neg (Classical.not_not.2 h2)).trans (if_pos (Nat.not_lt.1 h3))))
  · exact serveMap_refused h1.2.2.2 ((mapRefusal_formed (formed h1)).trans
      ((if_neg (Classical.not_not.2 h2)).trans ((if_neg (Nat.not_le.2 h3)).trans (if_pos hfree))))

/-! ## A MAP that passes its checks -/

/-- What a MAP asks for, from its payload. -/
def State.askOf (s : State) (tag : ReqTag) (p : List Byte) (access : Access) : MapAsk :=
  ⟨tag, byteAt p 0, fieldAt p 4 8, fieldAt p 2 2, (s.volume (byteAt p 0)).base + fieldAt p 4 8 / s.slabBlocks, access⟩

theorem serveMap_passes {s : State} {tag : ReqTag} {p : List Byte} {h : Nat} {rest : List Nat} {access : Access}
    (hp : s.mapPasses p h rest) (ha : accessOf (byteAt p 1) = some access) :
    serveMap tag p s = placeMap (s.askOf tag p access) s := by
  obtain ⟨hv, hlow, hhigh, -, hslab, hready, hfree⟩ := hp
  have hr : s.mapRefusal (mapFields p) = none := by
    refine (mapRefusal_formed (f := mapFields p) ⟨hv, hlow, hhigh⟩).trans ?_
    have hnotfree : ¬s.gu.freeOrder = [] := by simp [hfree]
    exact (if_neg (Classical.not_not.2 hslab)).trans ((if_neg (Nat.not_le.2 hready)).trans (if_neg hnotfree))
  simp only [serveMap, hr, show (mapFields p).access = some access from ha]
  rfl

/-! ## Slots named by a grant (R11) -/

/-- Slots named: the counts of the slots rise, and slots alone change. -/
theorem forEach_raiseRef_eq (l : List Place) (s : State) :
    ∃ slots, forEach State.raiseRef l s = s.onPm (fun m => { m with slots := slots }) := by
  induction l generalizing s with
  | nil => exact ⟨s.pm.slots, rfl⟩
  | cons q rest ih =>
    obtain ⟨slots, hslots⟩ := ih (s.raiseRef q)
    refine ⟨slots, hslots.trans ?_⟩
    rw [raiseRef_eq]
    rfl

theorem raiseRef_slot_same {q q' : Place} (s : State) (h : slotKey q' = slotKey q) :
    (s.raiseRef q).slot q' = { s.slot q with refs := (s.slot q).refs + 1 } := by
  rw [raiseRef_eq, State.slot, h]
  exact tableRead_tableWrite_same _ _ _ _

theorem raiseRef_slot_other {q q' : Place} (s : State) (h : slotKey q' ≠ slotKey q) :
    (s.raiseRef q).slot q' = s.slot q' := by
  rw [raiseRef_eq]
  exact tableRead_tableWrite_other _ _ _ h

/-! ## Grants (R53) -/

/-- The state after a grant made on the hold at the head of the free order. -/
def State.granted (s : State) (a : MapAsk) (target : Option Place) (h : Nat) (rest : List Nat) : State :=
  let e := s.newHold a h target
  (countGranted a.access target (forEach State.raiseRef e.places
    ((s.onGu (fun g => { g with freeOrder := rest })).setHold h e))).answer a.tag .ok (.grant (s.grantReply h e))

/-- The counters of the Grant Unit after a grant (R69). -/
def GrantCounters.granted (c : GrantCounters) : Access → Option Place → GrantCounters
  | .read, _ => { c with readGrants := min (c.readGrants + 1) 4294967295 }
  | .write, none => { c with writeGrants := min (c.writeGrants + 1) 4294967295 }
  | .write, some _ => { c with mirroredGrants := min (c.mirroredGrants + 1) 4294967295 }

theorem countGranted_eq (access : Access) (target : Option Place) (s : State) :
    countGranted access target s = s.onGu (fun g => { g with counters := g.counters.granted access target }) := by
  cases access with
  | read => rfl
  | write => cases target <;> rfl

theorem grantMap_eq {s : State} {a : MapAsk} {target : Option Place} {h : Nat} {rest : List Nat}
    (hf : s.gu.freeOrder = h :: rest) : grantMap a target s = s.granted a target h rest := by
  obtain ⟨slots, hslots⟩ := forEach_raiseRef_eq (s.newHold a h target).places
    ((s.onGu (fun g => { g with freeOrder := rest })).setHold h (s.newHold a h target))
  simp only [grantMap, hf, State.granted]
  rw [hslots, countGranted_eq]
  rfl

/-- An answer looks at the Message Port alone. -/
theorem answer_of_mp {s t : State} (tag : ReqTag) (r : Result) (b : ReplyBody) (h : t.mp = s.mp) :
    t.answer tag r b = { t with mp := (s.answer tag r b).mp } := by
  have hr : t.request tag = s.request tag := by rw [State.request, State.request, h]
  by_cases ho : tag ∈ s.mp.openTags
  · rw [answer_open r b ho, answer_open r b (by rwa [h]), hr, h]
  · rw [answer_closed r b ho, answer_closed r b (by rwa [h]), ← h]

theorem forEach_raiseRef_onGu (f : GrantUnit → GrantUnit) (l : List Place) (s : State) :
    forEach State.raiseRef l (s.onGu f) = (forEach State.raiseRef l s).onGu f := by
  induction l generalizing s with
  | nil => rfl
  | cons q rest ih =>
    have hq : (s.onGu f).raiseRef q = (s.raiseRef q).onGu f := by
      rw [raiseRef_eq, raiseRef_eq]
      rfl
    rw [forEach, forEach, hq, ih]

/-- A grant changes the hold, the free order and the counters of the Grant Unit, counts of slots, and the Message Port. -/
theorem granted_eq (s : State) (a : MapAsk) (target : Option Place) (h : Nat) (rest : List Nat) :
    s.granted a target h rest = { s with
      gu := { s.gu with
        holds := tableWrite (Hold.free 0) s.gu.holds h (s.newHold a h target), freeOrder := rest,
        counters := s.gu.counters.granted a.access target },
      pm := (forEach State.raiseRef (s.newHold a h target).places s).pm,
      mp := (s.answer a.tag .ok (.grant (s.grantReply h (s.newHold a h target)))).mp } := by
  have hraise : forEach State.raiseRef (s.newHold a h target).places
      ((s.onGu (fun g => { g with freeOrder := rest })).setHold h (s.newHold a h target))
        = ((forEach State.raiseRef (s.newHold a h target).places s).onGu (fun g => { g with freeOrder := rest })).setHold h
            (s.newHold a h target) := by
    rw [State.setHold, forEach_raiseRef_onGu, forEach_raiseRef_onGu]
    rfl
  obtain ⟨slots, hslots⟩ := forEach_raiseRef_eq (s.newHold a h target).places s
  rw [State.granted, hraise, countGranted_eq, hslots]
  exact answer_of_mp (s := s) _ _ _ rfl

/-- What a grant keeps and makes, field by field. -/
theorem granted_hold_same (s : State) (a : MapAsk) (target : Option Place) (h : Nat) (rest : List Nat) :
    (s.granted a target h rest).hold h = s.newHold a h target := by
  rw [granted_eq]
  exact tableRead_tableWrite_same (Hold.free 0) s.gu.holds h (s.newHold a h target)

theorem granted_hold_other (s : State) (a : MapAsk) (target : Option Place) {h h' : Nat} (rest : List Nat) (hne : h' ≠ h) :
    (s.granted a target h rest).hold h' = s.hold h' := by
  rw [granted_eq]
  exact tableRead_tableWrite_other (Hold.free 0) s.gu.holds (s.newHold a h target) hne

theorem granted_slot (s : State) (a : MapAsk) (target : Option Place) (h : Nat) (rest : List Nat) (q : Place) :
    (s.granted a target h rest).slot q = (forEach State.raiseRef (s.newHold a h target).places s).slot q := by
  rw [granted_eq]
  rfl

/-- The Placement Map's other tables stay. -/
theorem granted_pm (s : State) (a : MapAsk) (target : Option Place) (h : Nat) (rest : List Nat) :
    ∃ slots, (s.granted a target h rest).pm = { s.pm with slots := slots } := by
  obtain ⟨slots, hslots⟩ := forEach_raiseRef_eq (s.newHold a h target).places s
  exact ⟨slots, by rw [granted_eq, hslots]; rfl⟩

theorem finish_granted {s : State} (hs : s.quiet) (a : MapAsk) (target : Option Place) (h : Nat) (rest : List Nat) :
    finish s (s.granted a target h rest) = s.granted a target h rest := by
  rw [granted_eq]
  exact finish_gu_pm_mp hs _ _ _

/-! ## A grant on the home (R51) -/

theorem placing_home {s : State} {g : Nat} {access : Access} (first count : Nat)
    (h : access = .read ∨ ((s.slab g).state = .live ∧ s.claimedTarget g = none)) :
    s.placing g access first count = .home := by
  cases access with
  | read => rfl
  | write =>
    rcases h with h | ⟨hlive, hclaim⟩
    · cases h
    · exact placing_write_home first count hlive hclaim

theorem placeMap_home {s : State} {a : MapAsk} {h : Nat} {rest : List Nat} (hf : s.gu.freeOrder = h :: rest)
    (hp : s.placing a.slab a.access a.first a.count = .home) : placeMap a s = s.granted a none h rest := by
  simp only [placeMap, hp]
  exact grantMap_eq hf

/-- Settles O21: the MAP passes its checks, is placed on the home, and is granted there. -/
theorem mapGrantedOnHome : Obligations.MapGrantedOnHome := by
  intro s tag p h rest hserves hpasses v g home generation access hplace
  have hrange : byteAt p 1 < 2 := hpasses.2.2.2.1
  have haccess : accessOf (byteAt p 1) = some access := by
    have : byteAt p 1 = 0 ∨ byteAt p 1 = 1 := by omega
    rcases this with h | h <;> simp [access, h, accessOf]
  have hread : access = .read ↔ byteAt p 1 = 0 := by
    by_cases h : byteAt p 1 = 0 <;> simp [access, h]
  have hserved : serveMap tag p s = s.granted (s.askOf tag p access) none h rest :=
    (serveMap_passes hpasses haccess).trans
      (placeMap_home hpasses.2.2.2.2.2.2 (placing_home _ _ (hplace.imp hread.2 id)))
  have hhome : (s.askOf tag p access).slab = g := rfl
  obtain ⟨slots, hpm⟩ := granted_pm s (s.askOf tag p access) none h rest
  refine ⟨s.granted (s.askOf tag p access) none h rest, (takeRequest_serves hserves).trans ?_, granted_hold_same .., ?_, ?_⟩
  · rw [hserved, finish_granted hserves.1]
  · exact fun h' hne => granted_hold_other _ _ _ _ hne
  · rw [hpm]
    refine ⟨?_, ?_, ?_, ?_, ?_, rfl, rfl, rfl, rfl, ?_⟩
    · rw [granted_eq]
    · rw [granted_eq]
    · rw [granted_eq]
      by_cases h0 : byteAt p 1 = 0 <;> simp [State.askOf, access, h0, GrantCounters.granted]
    · exact (granted_slot ..).trans (raiseRef_slot_same s rfl)
    · exact fun q hq => (granted_slot ..).trans (raiseRef_slot_other s hq)
    · rw [granted_eq]
      exact ⟨rfl, rfl, rfl, rfl, rfl, rfl, rfl⟩

/-! ## A deferral (R51, R65) -/

theorem deferMap_room {a : MapAsk} {s : State} (h : s.gu.deferred.length < 64) :
    deferMap a s = { s with
      gu := { s.gu with
        deferred := s.gu.deferred
          ++ [⟨a.tag, a.volume, a.first, a.count, a.slab, s.clock.now + s.gu.holdLife * 1000000⟩],
        counters := { s.gu.counters with deferrals := min (s.gu.counters.deferrals + 1) 4294967295 } },
      mp := { s.mp with requests := s.mp.requests.filter (fun r => r.tag ≠ a.tag) } } := if_pos h

theorem deferMap_full {a : MapAsk} {s : State} (h : 64 ≤ s.gu.deferred.length) :
    deferMap a s = (s.answer a.tag .busy .empty).onGu (fun u =>
      { u with counters := { u.counters with deferralRefusals := min (u.counters.deferralRefusals + 1) 4294967295 } }) :=
  if_neg (Nat.not_lt.2 h)

/-- Settles O23: the write is placed under the lockout, and the Deferral Queue has room or not. -/
theorem mapDeferredByLockout : Obligations.MapDeferredByLockout := by
  intro s tag p h rest n hserves hpasses hwrite v first count g offset geometry hmotion hlane hlock hover
  have haccess : accessOf (byteAt p 1) = some .write := by rw [hwrite]; rfl
  have hlocked : s.overlapsLocked g first count = true := (overlapsLocked_iff s g first count).2 ⟨n, hlane, hlock, hover⟩
  have hdefer : serveMap tag p s = deferMap (s.askOf tag p .write) s := by
    refine (serveMap_passes hpasses haccess).trans ?_
    have hp : s.placing (s.askOf tag p .write).slab (s.askOf tag p .write).access (s.askOf tag p .write).first
        (s.askOf tag p .write).count = .deferred := placing_write_locked hmotion hlocked
    simp only [placeMap, hp]
  refine ⟨fun hroom => (takeRequest_serves hserves).trans ?_, fun hfull => (takeRequest_serves hserves).trans ?_⟩
  · rw [hdefer, deferMap_room hroom]
    exact congrArg _ (finish_gu_pm_mp hserves.1 _ s.pm _)
  · rw [hdefer, deferMap_full hfull]
    obtain ⟨m, hm⟩ := answer_eq tag .busy .empty s
    change Host.Outcome.next (finish s ((s.answer tag .busy .empty).onGu _)) = .next ((s.answer tag .busy .empty).onGu _)
    rw [hm]
    exact congrArg _ (finish_gu_pm_mp hserves.1 _ s.pm m)

/-! ## The watch that a mirrored grant breaks (R96, R97, R129) -/

/-- Label places given up change their free order alone. -/
theorem forEach_freeLabelPlace_eq (l : List Cmd) (s : State) :
    ∃ free, forEach freeLabelPlace l s = { s with dp := { s.dp with labelFree := free } } := by
  induction l generalizing s with
  | nil => exact ⟨s.dp.labelFree, rfl⟩
  | cons c rest ih =>
    obtain ⟨free, hfree⟩ := freeLabelPlace_eq c s
    obtain ⟨free', hfree'⟩ := ih (freeLabelPlace c s)
    exact ⟨free', hfree'.trans (by rw [hfree])⟩

/-- Withdrawn commands leave both wait lists, and nothing is told of them. -/
theorem withdraw_eq (p : Cmd → Bool) (s : State) :
    ∃ free, withdraw p s = { s with dp := { s.dp with
      waiting := s.dp.waiting.filter (fun c => !p c), labelWait := s.dp.labelWait.filter (fun c => !p c),
      labelFree := free } } := by
  obtain ⟨free, hfree⟩ := forEach_freeLabelPlace_eq (s.dp.waiting.filter p)
    (s.onDp (fun d => { d with waiting := d.waiting.filter (fun c => !p c),
                               labelWait := d.labelWait.filter (fun c => !p c) }))
  exact ⟨free, hfree⟩

/-- The record of a lane whose watch has broken. -/
def Lane.watchBroken (l : Lane) (withdrawn : Nat) : Lane :=
  { l with watch := l.watch.map (fun w => { w with intact := false }), commands := l.commands - withdrawn }

theorem breakWatch_eq (n : Nat) (s : State) :
    let left := (s.lane n).watchBroken (s.dp.waiting.filter (awaitedBy n)).length
    ∃ free, breakWatch n s = { s with
      dp := { s.dp with
        waiting := s.dp.waiting.filter (fun c => !ofLane n c), labelWait := s.dp.labelWait.filter (fun c => !ofLane n c),
        labelFree := free },
      sp := { s.sp with recoveryWait := s.sp.recoveryWait.filter (fun k => k ≠ n) },
      me := { s.me with lanes := tableWrite Lane.idle s.me.lanes n left },
      agenda := s.agenda ++ (if left.commands = 0 then [.commitCheck n] else []) } := by
  intro left
  obtain ⟨free, hfree⟩ := withdraw_eq (ofLane n) s
  refine ⟨free, ?_⟩
  have hleft (d : DrivePort) (p : StagingPool) : ({ s with
      dp := d, sp := p, me := { s.me with lanes := tableWrite Lane.idle s.me.lanes n left } } : State).lane n = left :=
    tableRead_tableWrite_same Lane.idle s.me.lanes n left
  have hbreak : breakWatch n s = (fun t : State => if (t.lane n).commands = 0 then t.post (.commitCheck n) else t)
      { s with
        dp := (withdraw (ofLane n) s).dp, sp := { s.sp with recoveryWait := s.sp.recoveryWait.filter (fun k => k ≠ n) },
        me := { s.me with lanes := tableWrite Lane.idle s.me.lanes n left } } := by
    unfold breakWatch
    rw [hfree]
    rfl
  rw [hbreak]
  dsimp only
  rw [hleft, hfree]
  by_cases h0 : left.commands = 0
  · rw [if_pos h0, if_pos h0]
    rfl
  · rw [if_neg h0, if_neg h0, List.append_nil]

/-- A mirrored grant reaches the lane that carries the slab: its watch breaks where it is INTACT and its row overlaps. -/
theorem meetGrant_breaks {s : State} {g first count n : Nat} {w : Watch} (hn : s.laneOf g = some n)
    (hw : (s.lane n).watch = some w) (hi : w.intact = true)
    (ho : overlapsRow (s.rowSet (s.lane n)).width (s.rowSet (s.lane n)).unit w.row
      (first - s.volumeSlab g * s.slabBlocks) (first - s.volumeSlab g * s.slabBlocks + count - 1) = true) :
    meetGrant g first count s = breakWatch n s := by
  simp only [meetGrant, hn, hw]
  exact if_pos ⟨hi, ho⟩

theorem meetGrant_passes {s : State} {g first count : Nat}
    (h : ∀ n w, s.laneOf g = some n → (s.lane n).watch = some w → w.intact = true →
      ¬overlapsRow (s.rowSet (s.lane n)).width (s.rowSet (s.lane n)).unit w.row
        (first - s.volumeSlab g * s.slabBlocks) (first - s.volumeSlab g * s.slabBlocks + count - 1) = true) :
    meetGrant g first count s = s := by
  unfold meetGrant
  split
  · rfl
  · next n hn =>
    dsimp only
    split
    · rfl
    · next w hw => exact if_neg fun hi => h n w hn hw hi.1 hi.2

theorem placing_claimed {s : State} {g : Nat} {target : Place} (first count : Nat) (hlive : (s.slab g).state = .live)
    (hclaim : s.claimedTarget g = some target) : s.placing g .write first count = .mirrored target false := by
  simp only [State.placing, hlive, hclaim]

theorem placeMap_mirrored {s : State} {a : MapAsk} {target : Place} {handed : Bool} {h : Nat} {rest : List Nat}
    (hf : s.gu.freeOrder = h :: rest)
    (hp : s.placing a.slab a.access a.first a.count = .mirrored target handed) :
    placeMap a s = if handed then meetGrant a.slab a.first a.count (s.granted a (some target) h rest)
      else s.granted a (some target) h rest := by
  simp only [placeMap, hp, grantPlaced, grantMap_eq hf]

/-- Where a slab lies in its volume, and the geometry of a lane's rows, are the same after a grant. -/
theorem granted_offset (s : State) (a : MapAsk) (target : Option Place) (h : Nat) (rest : List Nat) (g : Nat) :
    (s.granted a target h rest).volumeSlab g * (s.granted a target h rest).slabBlocks
      = s.volumeSlab g * s.slabBlocks := by
  obtain ⟨slots, hslots⟩ := forEach_raiseRef_eq (s.newHold a h target).places s
  rw [granted_eq, hslots]
  rfl

theorem granted_rowSet (s : State) (a : MapAsk) (target : Option Place) (h : Nat) (rest : List Nat) (l : Lane) :
    (s.granted a target h rest).rowSet l = s.rowSet l := by
  obtain ⟨slots, hslots⟩ := forEach_raiseRef_eq (s.newHold a h target).places s
  rw [granted_eq, hslots]
  rfl

theorem granted_me (s : State) (a : MapAsk) (target : Option Place) (h : Nat) (rest : List Nat) :
    (s.granted a target h rest).me = s.me := by
  rw [granted_eq]

theorem granted_lane (s : State) (a : MapAsk) (target : Option Place) (h : Nat) (rest : List Nat) (n : Nat) :
    (s.granted a target h rest).lane n = s.lane n := by
  rw [State.lane, granted_me]
  rfl

theorem granted_laneOf (s : State) (a : MapAsk) (target : Option Place) (h : Nat) (rest : List Nat) (g : Nat) :
    (s.granted a target h rest).laneOf g = s.laneOf g := by
  simp only [State.laneOf, granted_lane]

/-- The range of a grant against a watch, as `meetGrant` judges it. -/
def State.meetsRow (s : State) (g first count n row : Nat) : Prop :=
  overlapsRow (s.rowSet (s.lane n)).width (s.rowSet (s.lane n)).unit row
    (first - s.volumeSlab g * s.slabBlocks) (first - s.volumeSlab g * s.slabBlocks + count - 1) = true

theorem granted_meetsRow (s : State) (a : MapAsk) (target : Option Place) (h : Nat) (rest : List Nat)
    (g first count n row : Nat) :
    (s.granted a target h rest).meetsRow g first count n row ↔ s.meetsRow g first count n row := by
  rw [State.meetsRow, State.meetsRow, granted_offset, granted_lane, granted_rowSet]

/-- The watch that a grant meets is judged as before the grant. -/
theorem meetGrant_granted_breaks {s : State} (a : MapAsk) (target : Option Place) (h : Nat) (rest : List Nat)
    {g first count n : Nat} {w : Watch} (hn : s.laneOf g = some n) (hw : (s.lane n).watch = some w) (hi : w.intact = true)
    (ho : s.meetsRow g first count n w.row) :
    meetGrant g first count (s.granted a target h rest) = breakWatch n (s.granted a target h rest) :=
  meetGrant_breaks ((granted_laneOf ..).trans hn) ((congrArg _ (granted_lane ..)).trans hw) hi
    ((granted_meetsRow ..).2 ho)

theorem meetGrant_granted_passes {s : State} (a : MapAsk) (target : Option Place) (h : Nat) (rest : List Nat)
    {g first count : Nat}
    (hno : ∀ n w, s.laneOf g = some n → (s.lane n).watch = some w → w.intact = true → ¬s.meetsRow g first count n w.row) :
    meetGrant g first count (s.granted a target h rest) = s.granted a target h rest :=
  meetGrant_passes fun n w hn hw hi ho => hno n w ((granted_laneOf ..).symm.trans hn)
    ((congrArg _ (granted_lane ..)).symm.trans hw) hi ((granted_meetsRow ..).1 ho)

/-- Two places named by one grant: each of their counts rises by one, and no other. -/
theorem forEach_raiseRef_pair {q q' : Place} (s : State) (h : slotKey q' ≠ slotKey q) :
    (forEach State.raiseRef [q, q'] s).slot q = { s.slot q with refs := (s.slot q).refs + 1 }
      ∧ (forEach State.raiseRef [q, q'] s).slot q' = { s.slot q' with refs := (s.slot q').refs + 1 }
      ∧ ∀ r, slotKey r ≠ slotKey q → slotKey r ≠ slotKey q' → (forEach State.raiseRef [q, q'] s).slot r = s.slot r := by
  refine ⟨?_, ?_, fun r hr hr' => ?_⟩
  · exact (raiseRef_slot_other _ (Ne.symm h)).trans (raiseRef_slot_same s rfl)
  · refine (raiseRef_slot_same _ rfl).trans ?_
    rw [raiseRef_slot_other s h]
  · exact (raiseRef_slot_other _ hr').trans (raiseRef_slot_other s hr)

/-- Settles O22: the grant names the home and the target, and a slab in motion hands it to its lane. -/
theorem mapGrantedMirrored : Obligations.MapGrantedMirrored := by
  intro s tag p h rest target hserves hpasses hwrite v first count g home generation offset overlaps claimed moves breaks
    hplace hslots
  have haccess : accessOf (byteAt p 1) = some .write := by rw [hwrite]; rfl
  have hfree : s.gu.freeOrder = h :: rest := hpasses.2.2.2.2.2.2
  let a := s.askOf tag p .write
  have hserved : exec (.map tag) s = .next (finish s (placeMap a s)) :=
    (takeRequest_serves hserves).trans (by rw [serveMap_passes hpasses haccess])
  have hclaimed (hc : claimed) : placeMap a s = s.granted a (some target) h rest :=
    placeMap_mirrored (handed := false) hfree (placing_claimed _ _ hc.1 hc.2)
  have hmoves (hm : moves) : placeMap a s = meetGrant g first count (s.granted a (some target) h rest) := by
    have hlock : ¬s.overlapsLocked a.slab a.first a.count = true := fun ho => by
      obtain ⟨n, hn, hl, ho⟩ := (overlapsLocked_iff _ _ _ _).1 ho
      exact hm.2.2 n hn ⟨hl, ho⟩
    exact placeMap_mirrored (handed := true) hfree (placing_write_mirrored hm.1 hm.2.1 hlock)
  obtain ⟨hhome, htarget, hothers⟩ := forEach_raiseRef_pair s hslots
  obtain ⟨slots, hpm⟩ := granted_pm s a (some target) h rest
  refine ⟨s.granted a (some target) h rest, granted_hold_same .., fun h' hne => granted_hold_other _ _ _ _ hne, ?_⟩
  refine ⟨by rw [granted_eq], by rw [granted_eq], by rw [granted_eq]; rfl, (granted_slot ..).trans hhome,
    (granted_slot ..).trans htarget, fun q hq hq' => (granted_slot ..).trans (hothers q hq hq'), by rw [hpm], by rw [hpm],
    by rw [hpm], by rw [hpm], ?_⟩
  refine ⟨by rw [granted_eq]; rfl, by rw [granted_eq], by rw [granted_eq], by rw [granted_eq], by rw [granted_eq],
    by rw [granted_eq], by rw [granted_eq], fun hno => ?_, fun n w hb => ?_⟩
  · have hpasses : placeMap a s = s.granted a (some target) h rest := by
      rcases hplace with hc | hm
      · exact hclaimed hc
      · exact (hmoves hm).trans (meetGrant_granted_passes a (some target) h rest fun n w hn hw hi ho =>
          hno n w ⟨hm, hn, hw, hi, ho⟩)
    rw [hserved, hpasses, finish_granted hserves.1]
  · intro withdrawn left
    obtain ⟨hm, hn, hw, hi, ho⟩ := hb
    have hbreak : placeMap a s = breakWatch n (s.granted a (some target) h rest) :=
      (hmoves hm).trans (meetGrant_granted_breaks a (some target) h rest hn hw hi ho)
    have hwithdrawn : (s.dp.waiting.filter (awaitedBy n)).length = withdrawn :=
      congrArg _ (List.filter_congr fun c _ => by simp [awaitedBy, ofLane])
    have hleft : ((s.granted a (some target) h rest).lane n).watchBroken
        (((s.granted a (some target) h rest).dp.waiting.filter (awaitedBy n)).length)
          = { s.lane n with watch := some { w with intact := false }, commands := left } := by
      rw [granted_lane, granted_eq]
      simp only [Lane.watchBroken, hwithdrawn, hw, Option.map_some]
      rfl
    obtain ⟨free, hu⟩ := breakWatch_eq n (s.granted a (some target) h rest)
    rw [hleft] at hu
    refine ⟨breakWatch n (s.granted a (some target) h rest), by rw [hserved, hbreak], ?_⟩
    rw [hu, granted_eq]
    refine ⟨tableRead_tableWrite_same Lane.idle s.me.lanes n _,
      fun m hne => tableRead_tableWrite_other Lane.idle s.me.lanes _ hne, ?_, ?_, rfl, rfl, rfl, rfl, rfl, rfl, rfl, rfl⟩
    · rw [show s.agenda = [] from hserves.1]
      rfl
    · exact List.filter_congr fun c _ => by simp [ofLane]

end Sys2Proof.Machine
end

section
/-! PROOFS. What changes the Journal Controller alone, and the ends of holds (R56 to R62, R64, R103). -/

namespace Sys2Proof.Machine

/-! ## Changes of the Journal Controller, the Message Port and the agenda alone -/

/-- A state that differs from another in the journal, the Message Port and the exchanges alone. -/
def JournalOnly (s t : State) : Prop := ∃ m j a, t = { s with mp := m, jc := j, agenda := a }

namespace JournalOnly

theorem refl (s : State) : JournalOnly s s := ⟨s.mp, s.jc, s.agenda, rfl⟩

theorem trans {s t u : State} (h : JournalOnly s t) (h' : JournalOnly t u) : JournalOnly s u := by
  obtain ⟨_, _, _, rfl⟩ := h
  obtain ⟨m, j, a, rfl⟩ := h'
  exact ⟨m, j, a, rfl⟩

theorem onJc (f : Journal → Journal) (s : State) : JournalOnly s (s.onJc f) := ⟨s.mp, f s.jc, s.agenda, rfl⟩

theorem post (i : Internal) (s : State) : JournalOnly s (s.post i) := ⟨s.mp, s.jc, s.agenda ++ [i], rfl⟩

theorem offerNotice (n : Notice) (s : State) : JournalOnly s (s.offerNotice n) := by
  obtain ⟨m, hm⟩ := offerNotice_eq n s
  exact ⟨m, s.jc, s.agenda, hm⟩

theorem answer (tag : ReqTag) (r : Result) (b : ReplyBody) (s : State) : JournalOnly s (s.answer tag r b) := by
  obtain ⟨m, hm⟩ := answer_eq tag r b s
  exact ⟨m, s.jc, s.agenda, hm⟩

theorem condition (b : Nat) (c : BlockCond) (s : State) : JournalOnly s (s.condition b c) :=
  ⟨s.mp, (s.condition b c).jc, s.agenda, rfl⟩

theorem moveHead (h b : Nat) (s : State) : JournalOnly s (moveHead h b s) := by
  unfold Machine.moveHead
  split
  · exact (condition h .written s).trans ((condition b .head _).trans (onJc _ _))
  · exact (condition b .head s).trans (onJc _ _)

theorem compactionCheck (s : State) : JournalOnly s (compactionCheck s) := by
  unfold Machine.compactionCheck
  split
  · exact (onJc _ s).trans (offerNotice _ _)
  · exact refl s

theorem openNext (s : State) : JournalOnly s (openNext s) := by
  unfold Machine.openNext
  split
  · exact refl s
  · split
    · split
      · exact post _ s
      · split
        · exact (moveHead _ _ s).trans (compactionCheck _)
        · exact refl s
        all_goals exact post _ s
    · exact refl s

theorem nextImageRecord (s : State) : JournalOnly s (nextImageRecord s) := by
  unfold Machine.nextImageRecord
  extract_lets built
  have hbuilt : JournalOnly s built := by
    unfold built
    split
    · exact refl s
    · exact onJc _ s
  refine hbuilt.trans ?_
  split
  · exact refl _
  · split
    · exact onJc _ _
    · exact post _ _

theorem imageDue (s : State) : JournalOnly s (imageDue s) := by
  unfold Machine.imageDue
  split
  · exact nextImageRecord s
  · exact refl s

theorem eraseOldest (s : State) : JournalOnly s (eraseOldest s) := by
  unfold Machine.eraseOldest
  split
  · exact refl s
  · exact onJc _ s

theorem programRecord (r : Record) (s : State) : JournalOnly s (programRecord r s) := by
  unfold Machine.programRecord
  split
  · exact refl s
  · exact onJc _ s

theorem kickStore (s : State) : JournalOnly s (kickStore s) := by
  unfold Machine.kickStore
  split
  · refine ((openNext s).trans (imageDue _)).trans ?_
    dsimp only
    split
    · split
      · exact eraseOldest _
      · exact programRecord _ _
    · exact eraseOldest _
  · exact refl s

theorem numberRecord (owner : JOwner) (w : Work) (s : State) : JournalOnly s (numberRecord owner w s) :=
  (onJc _ s).trans (post _ _)

/-- Only a DAMAGE_CLEAR that a request waits for changes more than the journal. -/
theorem enterRecord {owner : JOwner} {w : Work} (hw : w.body.plain = true ∨ w.reply = none) (s : State) :
    JournalOnly s (enterRecord owner w s) := by
  obtain ⟨body, reply⟩ := w
  unfold Machine.enterRecord
  split
  · dsimp only
    split
    · rcases hw with hw | hw <;> cases hw
    · exact numberRecord _ _ s
  · exact (onJc _ s).trans (post _ _)

theorem queueWork {owner : JOwner} {w : Work} (hw : w.body.plain = true ∨ w.reply = none) (s : State) :
    JournalOnly s (queueWork owner w s) := by
  unfold Machine.queueWork
  split
  · split
    · exact (enterRecord hw s).trans (kickStore _)
    · exact onJc _ s
  · exact refl s

theorem queueRecord (owner : JOwner) (body : RecordBody) (s : State) : JournalOnly s (queueRecord owner body s) :=
  queueWork (Or.inr rfl) s

theorem me {s t : State} (h : JournalOnly s t) : t.me = s.me := by
  obtain ⟨_, _, _, rfl⟩ := h
  rfl

end JournalOnly

theorem forEach_append {α : Type} (f : α → State → State) (l l' : List α) (s : State) :
    forEach f (l ++ l') s = forEach f l' (forEach f l s) := by
  induction l generalizing s with
  | nil => rfl
  | cons x rest ih => exact ih (f x s)

/-! ## Reading a lane after a change -/

theorem lane_setLane_same (n : Nat) (l : Lane) (s : State) : (s.setLane n l).lane n = l :=
  tableRead_tableWrite_same Lane.idle s.me.lanes n l

theorem lane_setLane_other {n m : Nat} (l : Lane) (s : State) (h : m ≠ n) : (s.setLane n l).lane m = s.lane m :=
  tableRead_tableWrite_other Lane.idle s.me.lanes l h

theorem lane_onLane_same (n : Nat) (f : Lane → Lane) (s : State) : (s.onLane n f).lane n = f (s.lane n) :=
  lane_setLane_same n _ s

theorem lane_onLane_other {n m : Nat} (f : Lane → Lane) (s : State) (h : m ≠ n) : (s.onLane n f).lane m = s.lane m :=
  lane_setLane_other _ s h

/-- A lane that asks for pages leaves the other lanes as they are. -/
theorem askPages_lane_other {n m : Nat} (s : State) (h : m ≠ n) : (askPages n s).lane m = s.lane m := by
  unfold askPages
  dsimp only
  split
  · split
    · unfold reservePages
      split
      · exact lane_setLane_other _ _ h
      · rfl
    · rfl
  · rfl

theorem startAttempt_lane_other {n m : Nat} (s : State) (h : m ≠ n) : (startAttempt n s).lane m = s.lane m := by
  unfold startAttempt
  dsimp only
  split
  · rw [lane_onLane_other _ _ h, lane_onLane_other _ _ h]
  · rw [askPages_lane_other _ h, lane_onLane_other _ _ h, lane_onLane_other _ _ h]

theorem queueBegin_journalOnly (n : Nat) (s : State) : JournalOnly s (queueBegin n s) := by
  unfold queueBegin
  dsimp only
  split
  · exact JournalOnly.queueRecord _ _ s
  · exact JournalOnly.refl s

/-! ## The end of a write hold, as a lane hears it (R62, R64, R103) -/

theorem laneHoldEnded_foreign {g n : Nat} {s : State} (mirrored : Bool) (h : (s.lane n).job.map Job.slab ≠ some g) :
    laneHoldEnded g mirrored n s = s := by
  unfold laneHoldEnded
  dsimp only
  rw [if_neg h]

theorem laneHoldEnded_lane_other {n m : Nat} (g : Nat) (mirrored : Bool) (s : State) (h : m ≠ n) :
    (laneHoldEnded g mirrored n s).lane m = s.lane m := by
  unfold laneHoldEnded
  dsimp only
  split
  · split
    · split
      · rfl
      · exact startAttempt_lane_other s h
    · split
      · split
        · rw [lane_eq (queueBegin_journalOnly n _).me, lane_onLane_other _ _ h]
        · exact lane_onLane_other _ _ h
      · rfl
  · rfl

/-- Lanes that carry another slab, or none, do nothing. -/
theorem forEach_laneHoldEnded_foreign {g : Nat} (mirrored : Bool) {l : List Nat} {s : State}
    (h : ∀ m ∈ l, (s.lane m).job.map Job.slab ≠ some g) : forEach (laneHoldEnded g mirrored) l s = s := by
  induction l with
  | nil => rfl
  | cons m rest ih =>
    rw [forEach, laneHoldEnded_foreign mirrored (h m List.mem_cons_self)]
    exact ih fun k hk => h k (List.mem_cons_of_mem m hk)

/-- Where one lane carries the slab, the report is its own. -/
theorem holdEnded_sole {g n : Nat} (mirrored : Bool) {s : State} (hn : n < 4)
    (hother : ∀ m, m < 4 → m ≠ n → (s.lane m).job.map Job.slab ≠ some g) :
    holdEnded g mirrored s = laneHoldEnded g mirrored n s := by
  obtain ⟨before, after, hsplit⟩ := List.append_of_mem (List.mem_range.2 hn)
  have hnodup : (before ++ n :: after).Nodup := hsplit ▸ List.nodup_range
  have hmem : ∀ m ∈ before ++ n :: after, m < 4 := fun m hm => List.mem_range.1 (hsplit ▸ hm)
  have hbefore : ∀ m ∈ before, (s.lane m).job.map Job.slab ≠ some g := fun m hm =>
    hother m (hmem m (List.mem_append_left _ hm)) fun he =>
      (List.nodup_append.1 hnodup).2.2 m hm n List.mem_cons_self he
  have hafter : ∀ m ∈ after, ((laneHoldEnded g mirrored n s).lane m).job.map Job.slab ≠ some g := fun m hm => by
    have hne : m ≠ n := fun he => (List.nodup_cons.1 (List.nodup_append.1 hnodup).2.1).1 (he ▸ hm)
    rw [laneHoldEnded_lane_other _ _ _ hne]
    exact hother m (hmem m (List.mem_append_right _ (List.mem_cons_of_mem n hm))) hne
  rw [holdEnded, show List.range Config.laneCount = before ++ n :: after from hsplit, forEach_append, forEach,
    forEach_laneHoldEnded_foreign mirrored hbefore, forEach_laneHoldEnded_foreign mirrored hafter]

/-- What the report does to the one lane that carries the slab. -/
theorem laneHoldEnded_carrier {g n : Nat} {s : State} (mirrored : Bool) (h : (s.lane n).job.map Job.slab = some g) :
    ((s.lane n).state = .lockoutWait →
        laneHoldEnded g mirrored n s =
          if s.writeOverlaps g (s.lane n).row (s.rowSet (s.lane n)).width (s.rowSet (s.lane n)).unit then s
          else startAttempt n s)
      ∧ ((s.lane n).state ≠ .lockoutWait →
        laneHoldEnded g mirrored n s =
          if (s.lane n).state = .claiming ∧ mirrored = false ∧ 0 < (s.lane n).awaitedHolds then
            (fun t : State => if (s.lane n).awaitedHolds = 1 then queueBegin n t else t)
              (s.setLane n { s.lane n with awaitedHolds := (s.lane n).awaitedHolds - 1 })
          else s) := by
  constructor <;> intro hs <;> unfold laneHoldEnded <;> dsimp only <;> rw [if_pos h]
  · rw [if_pos hs]
  · rw [if_neg hs]
    rfl

/-! ## The exchanges that an UNHOLD posts (R35, R61) -/

theorem passMembers_eq (members : List Nat) (s : State) :
    passMembers members s = { s with agenda := s.agenda ++ members.map Internal.memberCause } := by
  induction members generalizing s with
  | nil => simp [passMembers, forEach]
  | cons id rest ih =>
    refine (ih (s.post (.memberCause id))).trans ?_
    simp [State.post]

/-- The exchange that asks about TARGET_WRITE, where the hold names a target. -/
def Hold.targetAsked (e : Hold) (members : List Nat) : List Internal :=
  e.target.toList.map (fun q => .targetWrite e.slab q members)

theorem askTargetWrite_eq (e : Hold) (members : List Nat) (s : State) :
    askTargetWrite e members s = { s with agenda := s.agenda ++ e.targetAsked members } := by
  cases ht : e.target <;> simp [askTargetWrite, Hold.targetAsked, ht, State.post]

/-- The exchange that reports the end of a WRITE hold. -/
def Hold.endReport (e : Hold) : List Internal :=
  if e.access = .write then [.holdEnded e.slab e.first e.count e.target.isSome] else []

theorem reportEnd_eq (e : Hold) (s : State) : reportEnd e s = { s with agenda := s.agenda ++ e.endReport } := by
  unfold reportEnd Hold.endReport
  by_cases h : e.access = .write
  · rw [if_pos h, if_pos h]
    rfl
  · rw [if_neg h, if_neg h, List.append_nil]

/-- Exchanges that change nothing are taken, and nothing else happens. -/
theorem settle_still {t : State} {l : List Internal} {n : Nat} (hn : l.length ≤ n)
    (hstill : ∀ i ∈ l, handle i { t with agenda := [] } = { t with agenda := [] }) :
    settle n { t with agenda := l } = { t with agenda := [] } := by
  induction l generalizing n with
  | nil => exact settle_quiet n rfl
  | cons i rest ih =>
    cases n with
    | zero => cases hn
    | succ n =>
      have hi := hstill i List.mem_cons_self
      refine (settle_cons (t := { t with agenda := i :: rest }) n rfl (congrArg State.agenda hi)).trans ?_
      refine (congrArg (fun u : State => settle n { u with agenda := rest }) hi).trans ?_
      exact ih (Nat.le_of_succ_le_succ hn) fun k hk => hstill k (List.mem_cons_of_mem i hk)

theorem finish_still {s t : State} {l : List Internal} (hl : l.length ≤ settleBound)
    (hstill : ∀ i ∈ l, handle i { t with agenda := [] } = { t with agenda := [] }) (hc : t.clock = s.clock)
    (hp : t.pending = s.pending) (hj : t.jobsIdle = s.jobsIdle) :
    finish s { t with agenda := l } = { t with agenda := [] } := by
  rw [finish, settle_still hl hstill, offerIdle, show State.jobsIdle { t with agenda := [] } = s.jobsIdle from hj,
    Bool.and_not_self, if_neg Bool.false_ne_true, closeStep, ← hc, ← hp]

/-- A state with no exchange left, once more without its exchanges. -/
theorem cleared_eq {t : State} (h : t.agenda = []) : { t with agenda := [] } = t := by
  cases t
  cases h
  rfl

@[simp] theorem answer_agenda (tag : ReqTag) (r : Result) (b : ReplyBody) (s : State) :
    (s.answer tag r b).agenda = s.agenda := by
  obtain ⟨m, hm⟩ := answer_eq tag r b s
  rw [hm]

@[simp] theorem answer_clock (tag : ReqTag) (r : Result) (b : ReplyBody) (s : State) :
    (s.answer tag r b).clock = s.clock := by
  obtain ⟨m, hm⟩ := answer_eq tag r b s
  rw [hm]

@[simp] theorem answer_pending (tag : ReqTag) (r : Result) (b : ReplyBody) (s : State) :
    (s.answer tag r b).pending = s.pending := by
  obtain ⟨m, hm⟩ := answer_eq tag r b s
  rw [hm]

@[simp] theorem answer_me (tag : ReqTag) (r : Result) (b : ReplyBody) (s : State) : (s.answer tag r b).me = s.me := by
  obtain ⟨m, hm⟩ := answer_eq tag r b s
  rw [hm]

/-- Whether every job and lane is at rest is read from the Move Engine alone (R94). -/
theorem jobsIdle_of_me {s t : State} (h : t.me = s.me) : t.jobsIdle = s.jobsIdle := by
  rw [State.jobsIdle, State.jobsIdle, h]
  simp only [lane_eq h]

/-! ## The end of a hold (R57, R59) -/

theorem lowerRef_onGu (f : GrantUnit → GrantUnit) (q : Place) (s : State) :
    (s.onGu f).lowerRef q = (s.lowerRef q).onGu f := by
  unfold State.lowerRef State.writeSlot
  dsimp only
  rw [show (s.onGu f).slot q = s.slot q from rfl]
  split
  · rfl
  · split <;> rfl

theorem forEach_lowerRef_onGu (f : GrantUnit → GrantUnit) (l : List Place) (s : State) :
    forEach State.lowerRef l (s.onGu f) = (forEach State.lowerRef l s).onGu f := by
  induction l generalizing s with
  | nil => rfl
  | cons q rest ih => rw [forEach, forEach, lowerRef_onGu, ih]

/-- A freed hold: the counts of its slots fall, its entry is FREE, and it is last in the free order. -/
theorem freeHold_onGu (h : Nat) (s : State) :
    freeHold h s = (forEach State.lowerRef (s.hold h).places s).onGu (fun g => { g with
      holds := tableWrite (Hold.free 0) g.holds h (Hold.free (s.hold h).generation),
      freeOrder := g.freeOrder ++ [h] }) := by
  change forEach State.lowerRef (s.hold h).places ((s.onGu _).onGu _) = _
  rw [forEach_lowerRef_onGu, forEach_lowerRef_onGu]
  rfl

/-- The counters of the Grant Unit after a hold has ended with an outcome (R69). -/
def GrantCounters.ended (done : Bool) (c : GrantCounters) : GrantCounters :=
  if done then { c with endsDone := min (c.endsDone + 1) 4294967295 }
  else { c with endsFailed := min (c.endsFailed + 1) 4294967295 }

/-- The state after a LIVE hold has ended, with the exchange that reports it. -/
def State.holdOver (s : State) (h : Nat) (tag : ReqTag) (done : Bool) : State :=
  { s with
    gu := { s.gu with
      holds := tableWrite (Hold.free 0) s.gu.holds h (Hold.free (s.hold h).generation),
      freeOrder := s.gu.freeOrder ++ [h], counters := s.gu.counters.ended done },
    pm := (forEach State.lowerRef (s.hold h).places s).pm,
    mp := (s.answer tag .ok .empty).mp,
    agenda := s.agenda ++ (s.hold h).endReport }

theorem holdOver_eq (s : State) (h : Nat) (tag : ReqTag) (done : Bool) :
    countEnd done .ok ((reportEnd (s.hold h) (freeHold h s)).answer tag .ok .empty) = s.holdOver h tag done := by
  obtain ⟨m, hm⟩ := forEach_lowerRef_pm (s.hold h).places s
  rw [State.holdOver, reportEnd_eq, freeHold_onGu, hm]
  refine (congrArg (countEnd done .ok) (answer_of_mp tag .ok .empty (s := s) (by rfl))).trans ?_
  cases done <;> rfl

/-! ## UNHOLD (R58, R59) -/

theorem unhold_formGood_iff (p : List Byte) :
    (unholdFields p).formGood p.length = true
      ↔ fieldAt p 0 2 < 512 ∧ byteAt p 4 < 2 ∧ byteAt p 5 ≤ 4 ∧ byteAt p 5 + 6 = p.length := by
  rw [UnholdFields.formGood, Bool.and_eq_true, Bool.and_eq_true, Bool.and_eq_true, decide_eq_true_iff, decide_eq_true_iff,
    decide_eq_true_iff, decide_eq_true_iff, and_assoc, and_assoc]
  exact and_congr Iff.rfl (and_congr Nat.lt_succ_iff.symm Iff.rfl)

theorem exec_unhold {s : State} {tag : ReqTag} {p : List Byte} (h : s.serves .unhold tag p)
    (hg : (unholdFields p).formGood p.length = true) :
    exec (.unhold tag) s = .next (finish s (endHold tag (unholdFields p) s)) := by
  refine (takeRequest_serves h).trans ?_
  rw [serveUnhold]
  rw [if_pos hg]

theorem exec_unhold_bad {s : State} {tag : ReqTag} {p : List Byte} (h : s.serves .unhold tag p)
    (hg : ¬(unholdFields p).formGood p.length = true) :
    exec (.unhold tag) s = .next (s.answer tag .badField .empty) := by
  refine (takeRequest_serves h).trans ?_
  rw [serveUnhold]
  rw [if_neg hg]
  exact congrArg _ (finish_answer h.1 tag .badField .empty)

theorem endHold_unknown {s : State} (tag : ReqTag) {f : UnholdFields}
    (h : (s.hold f.hold).state = .free ∨ (s.hold f.hold).generation ≠ f.generation) :
    endHold tag f s = { (s.answer tag .notFound .empty).onGu (fun g => { g with counters := { g.counters with
        notFoundReplies := min (g.counters.notFoundReplies + 1) 4294967295 } }) with
      agenda := s.agenda ++ f.members.map Internal.memberCause } := by
  rw [endHold]
  dsimp only
  rw [if_pos h, passMembers_eq, State.refuse, countGrant, answer_onGu, onGu_agenda]
  obtain ⟨m, hm⟩ := answer_eq tag .notFound .empty s
  rw [hm]
  rfl

theorem endHold_live {s : State} (tag : ReqTag) {f : UnholdFields} (h : (s.hold f.hold).state = .live)
    (hg : (s.hold f.hold).generation = f.generation) :
    endHold tag f s = { s.holdOver f.hold tag (decide (f.outcome = 0)) with
      agenda := s.agenda ++ (s.hold f.hold).endReport ++ f.members.map Internal.memberCause
        ++ (s.hold f.hold).targetAsked f.members } := by
  rw [endHold]
  dsimp only
  rw [if_neg (by simp [h, hg]), if_pos h, holdOver_eq, askTargetWrite_eq, passMembers_eq]
  rfl

theorem endHold_late {s : State} (tag : ReqTag) {f : UnholdFields} (h : (s.hold f.hold).state = .expired)
    (hg : (s.hold f.hold).generation = f.generation) :
    endHold tag f s = { (s.answer tag .tooLate .empty).onGu (fun g => { g with counters :=
        if f.outcome = 0 then { g.counters with tooLateReplies := min (g.counters.tooLateReplies + 1) 4294967295 }
        else { g.counters with tooLateReplies := min (g.counters.tooLateReplies + 1) 4294967295,
                               endsFailed := min (g.counters.endsFailed + 1) 4294967295 } }) with
      agenda := s.agenda ++ f.members.map Internal.memberCause ++ (s.hold f.hold).targetAsked f.members } := by
  rw [endHold]
  dsimp only
  rw [if_neg (by simp [h, hg]), if_neg (by simp [h]), askTargetWrite_eq, passMembers_eq, State.refuse, countGrant,
    answer_onGu]
  obtain ⟨m, hm⟩ := answer_eq tag .tooLate .empty s
  rw [hm]
  by_cases h0 : f.outcome = 0
  · simp only [h0, decide_true]
    rfl
  · simp only [h0, decide_false]
    rfl

/-! ## Exchanges that find nothing to do -/

theorem holdEnded_foreign {g : Nat} (mirrored : Bool) {s : State} (h : ∀ n, (s.lane n).job.map Job.slab ≠ some g) :
    holdEnded g mirrored s = s := forEach_laneHoldEnded_foreign mirrored fun m _ => h m

theorem targetWrite_none (g : Nat) (q : Place) (s : State) : targetWrite g q [] s = s := by
  rw [targetWrite, if_neg]
  simp

theorem handle_endReport {e : Hold} {s : State} (h : e.access = .read ∨ ∀ n, (s.lane n).job.map Job.slab ≠ some e.slab) :
    ∀ i ∈ e.endReport, handle i s = s := by
  intro i hi
  unfold Hold.endReport at hi
  split at hi
  · next hw =>
    obtain rfl := List.mem_singleton.1 hi
    rcases h with h | h
    · rw [h] at hw
      cases hw
    · exact holdEnded_foreign _ h
  · cases hi

theorem handle_targetAsked_none (e : Hold) (s : State) : ∀ i ∈ e.targetAsked [], handle i s = s := by
  intro i hi
  obtain ⟨q, -, rfl⟩ := List.mem_map.1 hi
  exact targetWrite_none e.slab q s

theorem length_endReport_le (e : Hold) : e.endReport.length ≤ 1 := by
  unfold Hold.endReport
  split <;> simp

theorem length_targetAsked_le (e : Hold) (ids : List Nat) : (e.targetAsked ids).length ≤ 1 := by
  unfold Hold.targetAsked
  cases e.target <;> simp

/-- A LIVE hold ended with no member listed, which no lane hears of. -/
theorem finish_holdOver_alone {s : State} (h : Nat) (tag : ReqTag) (done : Bool)
    (hread : (s.hold h).access = .read ∨ ∀ n, (s.lane n).job.map Job.slab ≠ some (s.hold h).slab) :
    finish s { s.holdOver h tag done with agenda := (s.hold h).endReport ++ (s.hold h).targetAsked [] }
      = { s.holdOver h tag done with agenda := [] } := by
  have hlen := length_endReport_le (s.hold h)
  have hlen' := length_targetAsked_le (s.hold h) []
  refine finish_still ?_ (fun i hi => ?_) rfl rfl rfl
  · rw [List.length_append]
    exact Nat.le_trans (Nat.add_le_add hlen hlen') (by decide)
  · rcases List.mem_append.1 hi with hi | hi
    · refine handle_endReport (e := s.hold h) ?_ i hi
      exact hread
    · exact handle_targetAsked_none (s.hold h) _ i hi

/-- The two outcomes of `State.holdOver`, read back. -/
theorem holdOver_places (s : State) (h : Nat) (tag : ReqTag) (done : Bool) :
    (s.holdOver h tag done).pm = match (s.hold h).target with
      | none => (s.lowerRef (s.hold h).home).pm
      | some q => (State.lowerRef q (s.lowerRef (s.hold h).home)).pm := by
  cases ht : (s.hold h).target <;> simp [State.holdOver, Hold.places, ht, forEach]

theorem targetWrite_touched_iff (g : Nat) (q : Place) (ids : List Nat) (u : State) :
    (((u.set q.set).positions.any (fun p => ids.contains p.member)) && u.namesTarget g q) = true
      ↔ (∃ x ∈ (u.set q.set).positions, x.member ∈ ids) ∧ ((u.slab g).target = some q ∨ u.claimedTarget g = some q) := by
  simp [State.namesTarget]

theorem holdOver_counters (s : State) (h : Nat) (tag : ReqTag) (outcome : Nat) :
    (s.holdOver h tag (decide (outcome = 0))).gu.counters
      = if outcome = 0 then { s.gu.counters with endsDone := min (s.gu.counters.endsDone + 1) 4294967295 }
        else { s.gu.counters with endsFailed := min (s.gu.counters.endsFailed + 1) 4294967295 } := by
  by_cases h0 : outcome = 0 <;> simp [State.holdOver, GrantCounters.ended, h0]

/-- Settles O24: the three answers of an UNHOLD with what they post, and what each exchange posted does. -/
theorem unholdAnswered : Obligations.UnholdAnswered := by
  intro s tag p hserves h generation e good counted members asked carries
  have hquiet : s.agenda = [] := hserves.1
  have hform : (unholdFields p).formGood p.length = true ↔ good := unhold_formGood_iff p
  have hunknown (hg : good) (he : e.state = .free ∨ e.generation ≠ generation) :
      exec (.unhold tag) s = .next (finish s { counted
        (fun c => { c with notFoundReplies := min (c.notFoundReplies + 1) 4294967295 })
        (s.answer tag .notFound .empty) with agenda := members.map Internal.memberCause }) := by
    rw [exec_unhold hserves (hform.2 hg), endHold_unknown tag he, hquiet]
    rfl
  have hlate (hg : good) (he : e.state = .expired) (hgen : e.generation = generation) :
      exec (.unhold tag) s = .next (finish s { counted
        (fun c => if byteAt p 4 = 0 then { c with tooLateReplies := min (c.tooLateReplies + 1) 4294967295 }
          else { c with tooLateReplies := min (c.tooLateReplies + 1) 4294967295,
                        endsFailed := min (c.endsFailed + 1) 4294967295 })
        (s.answer tag .tooLate .empty) with
          agenda := members.map Internal.memberCause ++ e.targetAsked members }) := by
    rw [exec_unhold hserves (hform.2 hg), endHold_late tag he hgen, hquiet]
    rfl
  have hlive (hg : good) (he : e.state = .live) (hgen : e.generation = generation) :
      exec (.unhold tag) s = .next (finish s { s.holdOver h tag (decide (byteAt p 4 = 0)) with
        agenda := e.endReport ++ members.map Internal.memberCause ++ e.targetAsked members }) := by
    rw [exec_unhold hserves (hform.2 hg), endHold_live tag he hgen, hquiet]
    rfl
  have hmembers (hg : good) (h0 : byteAt p 5 = 0) : members = [] := by
    have hlen : p.length = 6 := by
      rw [← hg.2.2.2, h0]
    simp [members, List.drop_eq_nil_iff, hlen]
  refine ⟨fun hg => ⟨hunknown hg, fun he hgen => ?_, fun he hgen => ?_⟩, fun u n g first count mirrored hc => ?_,
    fun u g q ids => ?_, fun u id => ?_, fun hbad => exec_unhold_bad hserves (mt hform.1 hbad), fun hg h0 => ?_⟩
  · rw [hlate hg he hgen]
    simp only [asked, counted, onGu_agenda, answer_agenda, hquiet, List.nil_append]
    cases ht : e.target <;> simp [Hold.targetAsked, ht]
  · refine ⟨s.holdOver h tag (decide (byteAt p 4 = 0)), ?_, ?_, ?_, ?_, rfl, holdOver_counters .., holdOver_places ..,
      rfl, rfl, rfl, rfl, rfl⟩
    · rw [hlive hg he hgen]
      simp only [asked, State.holdOver, hquiet, List.nil_append, List.append_assoc]
      cases ht : e.target <;> simp [Hold.targetAsked, ht]
      all_goals rfl
    · simp only [State.holdOver, hquiet, List.nil_append]
      rfl
    · rw [← hgen]
      exact tableRead_tableWrite_same (Hold.free 0) s.gu.holds h (Hold.free e.generation)
    · exact fun h' hne => tableRead_tableWrite_other (Hold.free 0) s.gu.holds (Hold.free e.generation) hne
  · obtain ⟨hn, hjob, hother⟩ := hc
    intro l told
    have htold : told = laneHoldEnded g mirrored n u := holdEnded_sole mirrored hn hother
    obtain ⟨hwait, hnot⟩ := laneHoldEnded_carrier mirrored hjob
    rw [htold]
    refine ⟨fun hs => ⟨fun ho => ?_, fun ho => ?_⟩, fun hs hm => ⟨fun h2 => ?_, fun h1 => ?_, fun h0 => ?_⟩,
      fun hs hm => ?_, fun hs hs' => ?_⟩
    · rw [hwait hs, if_pos ho]
    · rw [hwait hs, if_neg (by rw [ho]; exact Bool.false_ne_true)]
    · have hpos : 0 < l.awaitedHolds := by omega
      have hmore : ¬l.awaitedHolds = 1 := by omega
      rw [hnot (by rw [hs]; nofun), if_pos ⟨hs, hm, hpos⟩]
      dsimp only
      rw [if_neg hmore]
    · have hpos : 0 < l.awaitedHolds := by omega
      rw [hnot (by rw [hs]; nofun), if_pos ⟨hs, hm, hpos⟩]
      dsimp only
      rw [if_pos h1, h1]
    · rw [hnot (by rw [hs]; nofun), if_neg fun hc => absurd hc.2.2 (by rw [h0]; exact Nat.lt_irrefl 0)]
    · rw [hnot (by rw [hs]; nofun), if_neg fun hc => absurd hc.2.1 (by rw [hm]; nofun)]
    · rw [hnot hs, if_neg fun hc => hs' hc.1]
  · intro told touched
    have htouched := targetWrite_touched_iff g q ids u
    refine ⟨fun hno => if_neg (mt htouched.1 hno), fun hyes n hn => ?_, fun hyes hn => ?_⟩
    · refine (if_pos (htouched.2 hyes)).trans ?_
      rw [hn]
    · refine (if_pos (htouched.2 hyes)).trans ?_
      rw [hn]
      rfl
  · exact ⟨fun hup => if_pos hup, fun hav hac => if_neg (not_or.2 ⟨hav, hac⟩)⟩
  · have hnone := hmembers hg h0
    refine ⟨fun he => ?_, fun he hgen => ?_, fun he hgen hread => ?_⟩
    · rw [hunknown hg he, hnone]
      refine congrArg _ ((finish_quiet rfl ?_ ?_ ?_).trans (cleared_eq (by simp [counted, hquiet])))
      · simp [counted]
      · simp [counted]
      · exact jobsIdle_of_me (by simp [counted])
    · rw [hlate hg he hgen, hnone]
      refine congrArg _ ((finish_still (Nat.le_trans (length_targetAsked_le e []) (by decide))
        (fun i => handle_targetAsked_none e _ i) ?_ ?_ ?_).trans (cleared_eq (by simp [counted, hquiet])))
      · simp [counted]
      · simp [counted]
      · exact jobsIdle_of_me (by simp [counted])
    · refine ⟨{ s.holdOver h tag (decide (byteAt p 4 = 0)) with agenda := [] }, ?_, ?_, ?_, rfl, holdOver_counters s h tag (byteAt p 4),
        holdOver_places s h tag (decide (byteAt p 4 = 0)), rfl, rfl, rfl, rfl⟩
      · rw [hlive hg he hgen, hnone]
        exact congrArg _ ((congrArg (finish s) (by rw [List.map_nil, List.append_nil])).trans
          (finish_holdOver_alone h tag (decide (byteAt p 4 = 0)) hread))
      · rw [← hgen]
        exact tableRead_tableWrite_same (Hold.free 0) s.gu.holds h (Hold.free e.generation)
      · exact fun h' hne => tableRead_tableWrite_other (Hold.free 0) s.gu.holds (Hold.free e.generation) hne

/-! ## HOLD_EXPIRY and the other deadlines (R56, R57, R67) -/

/-- The state after a LIVE hold has expired, before its end is reported. -/
def State.expired (s : State) (h : Nat) : State :=
  State.offerNotice (.holdExpired h (s.hold h).generation (s.hold h).volume (s.hold h).first (s.hold h).count
      (s.hold h).slab (s.hold h).access)
    { s with gu := { s.gu with
        holds := tableWrite (Hold.free 0) s.gu.holds h
          { s.hold h with state := .expired, deadline := (s.hold h).deadline + (s.hold h).lifetime * 1000 },
        counters := { s.gu.counters with expiries := min (s.gu.counters.expiries + 1) 4294967295 } } }

theorem expired_eq (s : State) (h : Nat) : ∃ g m, s.expired h = { s with gu := g, mp := m } := by
  obtain ⟨m, hm⟩ := offerNotice_eq (.holdExpired h (s.hold h).generation (s.hold h).volume (s.hold h).first
    (s.hold h).count (s.hold h).slab (s.hold h).access)
    { s with gu := { s.gu with
        holds := tableWrite (Hold.free 0) s.gu.holds h
          { s.hold h with state := .expired, deadline := (s.hold h).deadline + (s.hold h).lifetime * 1000 },
        counters := { s.gu.counters with expiries := min (s.gu.counters.expiries + 1) 4294967295 } } }
  exact ⟨_, m, hm⟩

theorem exec_holdExpiry_due {s : State} {h : Nat} (hs : s.quiet) (he : (s.hold h).state = .live)
    (hd : (s.hold h).deadline ≤ s.clock.now) :
    exec (.holdExpiry h) s = .next (finish s { s.expired h with agenda := (s.hold h).endReport }) := by
  refine (if_pos ⟨he, hd⟩).trans (congrArg (fun t => Host.Outcome.next (finish s t)) ?_)
  refine (reportEnd_eq (s.hold h) (s.expired h)).trans ?_
  obtain ⟨g, m, hg⟩ := expired_eq s h
  rw [hg, show s.agenda = [] from hs]
  rfl

theorem finish_expired_alone {s : State} {h : Nat} (hs : s.quiet)
    (hread : (s.hold h).access = .read ∨ ∀ n, (s.lane n).job.map Job.slab ≠ some (s.hold h).slab) :
    finish s { s.expired h with agenda := (s.hold h).endReport } = s.expired h := by
  obtain ⟨g, m, hg⟩ := expired_eq s h
  rw [hg]
  refine (finish_still (t := { s with gu := g, mp := m }) (Nat.le_trans (length_endReport_le _) (by decide))
    (fun i hi => ?_) rfl rfl rfl).trans (cleared_eq hs)
  refine handle_endReport (e := s.hold h) ?_ i hi
  exact hread

/-- Settles O25: an expiry reports the end, which finds nothing to do where no lane carries the slab; and the rest are too early. -/
theorem holdExpires : Obligations.HoldExpires := by
  intro s h hs e expired
  refine ⟨fun he hd => ?_, fun he hd hread => ?_, fun hno => if_neg ?_, fun hno => if_neg ?_, fun tag d hf hd => ?_,
    fun tag hno => ?_⟩
  · exact exec_holdExpiry_due hs he hd
  · rw [exec_holdExpiry_due hs he hd, finish_expired_alone hs hread]
    rfl
  · exact fun hd => hno.elim (fun h => h hd.1) (fun h => Nat.not_lt.2 hd.2 h)
  · exact fun hd => hno.elim (fun h => h hd.1) (fun h => Nat.not_lt.2 hd.2 h)
  · change execDeferralDeadline tag s = .next s
    simp only [execDeferralDeadline, hf]
    exact if_neg (Nat.not_le.2 hd)
  · change execDeferralDeadline tag s = .next s
    have hnone : s.gu.deferred.find? (fun d => d.tag = tag) = none :=
      List.find?_eq_none.2 fun d hd => by simpa using hno d hd
    simp only [execDeferralDeadline, hnone]

end Sys2Proof.Machine
end

section
/-! PROOFS. The slot table: what a slot written changes, and the laws that tie the counts of the slots to the Hold Table (R11) and the
free counts of the sets to the slots (R8, R13). -/

namespace Sys2Proof.Machine

/-! ## A slot written, read back (R9, R13) -/

theorem writeSlot_slots (p : Place) (v : Slot) (s : State) :
    (s.writeSlot p v).pm.slots = tableWrite Slot.free s.pm.slots (slotKey p) v := by
  unfold State.writeSlot
  dsimp only
  split
  · rfl
  · split <;> rfl

theorem writeSlot_slot_same {p q : Place} (v : Slot) (s : State) (h : slotKey q = slotKey p) :
    (s.writeSlot p v).slot q = v := by
  rw [State.slot, writeSlot_slots, h, tableRead_tableWrite_same]

theorem writeSlot_slot_other {p q : Place} (v : Slot) (s : State) (h : slotKey q ≠ slotKey p) :
    (s.writeSlot p v).slot q = s.slot q := by
  rw [State.slot, writeSlot_slots, tableRead_tableWrite_other _ _ _ h]
  rfl

theorem writeSlot_gu (p : Place) (v : Slot) (s : State) : (s.writeSlot p v).gu = s.gu := by
  obtain ⟨m, hm⟩ := writeSlot_pm p v s
  rw [hm]

/-- A slot that neither enters nor leaves FREE leaves the sets as they are. -/
theorem writeSlot_set_kept {p : Place} {v : Slot} {s : State} (h : (s.slot p).state = .free ↔ v.state = .free) (k : Nat) :
    (s.writeSlot p v).set k = s.set k := by
  rw [writeSlot_same h]
  rfl

theorem writeSlot_set_freed {p : Place} {v : Slot} {s : State} (ho : (s.slot p).state ≠ .free) (hv : v.state = .free) :
    (s.writeSlot p v).set p.set = { s.set p.set with freeCount := (s.set p.set).freeCount + 1 } := by
  unfold State.writeSlot
  dsimp only
  rw [if_neg (fun h => ho h.1), if_pos ⟨ho, hv⟩]
  exact tableRead_tableWrite_same SetEntry.unused s.pm.sets p.set _

theorem writeSlot_set_taken {p : Place} {v : Slot} {s : State} (ho : (s.slot p).state = .free) (hv : v.state ≠ .free) :
    (s.writeSlot p v).set p.set = { s.set p.set with freeCount := (s.set p.set).freeCount - 1 } := by
  unfold State.writeSlot
  dsimp only
  rw [if_pos ⟨ho, hv⟩]
  exact tableRead_tableWrite_same SetEntry.unused s.pm.sets p.set _

theorem writeSlot_set_other {p : Place} (v : Slot) (s : State) {k : Nat} (h : k ≠ p.set) :
    (s.writeSlot p v).set k = s.set k := by
  unfold State.writeSlot
  dsimp only
  split
  · exact tableRead_tableWrite_other SetEntry.unused s.pm.sets _ h
  · split
    · exact tableRead_tableWrite_other SetEntry.unused s.pm.sets _ h
    · rfl

/-! ## The evaluation of R12 -/

theorem drained_of {v : Slot} (h : v.state = .draining ∧ v.refs = 0 ∧ v.lane = none) : v.drained = Slot.free := if_pos h

theorem drained_kept {v : Slot} (h : ¬(v.state = .draining ∧ v.refs = 0 ∧ v.lane = none)) : v.drained = v := if_neg h

/-- R12 drops a record whose count is 0 already, so counts stay. -/
theorem drained_refs (v : Slot) : v.drained.refs = v.refs := by
  by_cases h : v.state = .draining ∧ v.refs = 0 ∧ v.lane = none
  · rw [drained_of h, h.2.1]
    rfl
  · rw [drained_kept h]

/-- A slot in use that R12 frees, and one that it keeps. -/
theorem writeSlot_drained {q : Place} {v : Slot} {s : State} (hs : (s.slot q).state ≠ .free) (hv : v.state ≠ .free) :
    (v.state = .draining ∧ v.refs = 0 ∧ v.lane = none →
        (s.writeSlot q v.drained).slot q = Slot.free
          ∧ (s.writeSlot q v.drained).set q.set = { s.set q.set with freeCount := (s.set q.set).freeCount + 1 })
      ∧ (¬(v.state = .draining ∧ v.refs = 0 ∧ v.lane = none) →
        (s.writeSlot q v.drained).slot q = v ∧ (s.writeSlot q v.drained).set q.set = s.set q.set) := by
  refine ⟨fun h => ?_, fun h => ?_⟩
  · rw [drained_of h]
    exact ⟨writeSlot_slot_same _ s rfl, writeSlot_set_freed hs rfl⟩
  · rw [drained_kept h]
    exact ⟨writeSlot_slot_same _ s rfl, writeSlot_set_kept (iff_of_false hs hv) _⟩

/-- The other slots and sets. -/
theorem writeSlot_others (q : Place) (v : Slot) (s : State) :
    (∀ q', slotKey q' ≠ slotKey q → (s.writeSlot q v).slot q' = s.slot q')
      ∧ ∀ k, k ≠ q.set → (s.writeSlot q v).set k = s.set k :=
  ⟨fun _ => writeSlot_slot_other v s, fun _ => writeSlot_set_other v s⟩

/-! ## Sums over a table -/

/-- The sum of a number for each entry of a table. -/
def tableSum {α : Type} (f : α → Nat) (t : List (Nat × α)) : Nat := (t.map (fun e => f e.2)).sum

theorem tableSum_cons {α : Type} (f : α → Nat) (k : Nat) (v : α) (t : List (Nat × α)) :
    tableSum f ((k, v) :: t) = f v + tableSum f t := by
  rw [tableSum, List.map_cons, List.sum_cons]
  rfl

theorem tableSum_tableInsert {α : Type} (f : α → Nat) (t : List (Nat × α)) (k : Nat) (v : α) :
    tableSum f (tableInsert t k v) = tableSum f t + f v := by
  induction t with
  | nil => simp [tableInsert, tableSum]
  | cons e rest ih =>
    obtain ⟨j, w⟩ := e
    rw [tableInsert]
    split
    · simp only [tableSum_cons]
      omega
    · simp only [tableSum_cons, ih]
      omega

theorem tableSum_tableErase {α : Type} [DecidableEq α] {f : α → Nat} {d : α} (hd : f d = 0) {t : List (Nat × α)} {low : Nat}
    (hw : tableWfFrom d low t = true) (k : Nat) : tableSum f (tableErase t k) + f (tableRead d t k) = tableSum f t := by
  induction t generalizing low with
  | nil => simp [tableErase, tableRead, tableSum, hd]
  | cons e rest ih =>
    obtain ⟨j, v⟩ := e
    simp only [tableWfFrom, Bool.and_eq_true, decide_eq_true_eq] at hw
    obtain ⟨-, hrest⟩ := hw
    by_cases hj : j = k
    · have hgone : ∀ w, (k, w) ∉ rest := fun w hm => by
        have := le_key_of_mem hrest hm
        omega
      rw [tableErase, if_pos hj, tableRead, if_pos hj, tableErase_of_not_mem hgone, tableSum_cons]
      omega
    · have := ih hrest
      rw [tableErase, if_neg hj, tableRead, if_neg hj, tableSum_cons, tableSum_cons]
      omega

/-- An entry written replaces what the key had before. -/
theorem tableSum_tableWrite {α : Type} [DecidableEq α] {f : α → Nat} {d : α} (hd : f d = 0) {t : List (Nat × α)}
    (hw : tableWf d t = true) (k : Nat) (v : α) :
    tableSum f (tableWrite d t k v) + f (tableRead d t k) = tableSum f t + f v := by
  have herase := tableSum_tableErase hd hw k
  unfold tableWrite
  split
  · next hv =>
    rw [hv, hd]
    exact herase
  · rw [tableSum_tableInsert]
    omega

/-! ## How often a slot is named (R11) -/

/-- How often a list of places names a slot. -/
def timesNamed (ps : List Place) (q : Place) : Nat := (ps.filter (fun p => slotKey p = slotKey q)).length

theorem timesNamed_cons (p : Place) (ps : List Place) (q : Place) :
    timesNamed (p :: ps) q = (if slotKey p = slotKey q then 1 else 0) + timesNamed ps q := by
  unfold timesNamed
  by_cases h : slotKey p = slotKey q
  · rw [List.filter_cons_of_pos (by simpa using h), if_pos h, List.length_cons, Nat.add_comm]
  · rw [List.filter_cons_of_neg (by simpa using h), if_neg h, Nat.zero_add]

/-- How often a hold names a slot: not at all where it is FREE. -/
def Hold.names (q : Place) (e : Hold) : Nat := if e.state ≠ .free then timesNamed e.places q else 0

theorem Hold.names_free (q : Place) {e : Hold} (h : e.state = .free) : e.names q = 0 := if_neg (Classical.not_not.2 h)

theorem Hold.names_used (q : Place) {e : Hold} (h : e.state ≠ .free) : e.names q = timesNamed e.places q := if_pos h

theorem namings_eq (s : State) (q : Place) : s.namings q = tableSum (Hold.names q) s.gu.holds := by
  unfold State.namings
  induction s.gu.holds with
  | nil => rfl
  | cons entry rest ih =>
    obtain ⟨k, e⟩ := entry
    rw [tableSum_cons, ← ih]
    by_cases h : e.state = .free
    · rw [List.filter_cons_of_neg (by simpa using h), Hold.names_free q h, Nat.zero_add]
    · rw [List.filter_cons_of_pos (by simpa using h), Hold.names_used q h, List.map_cons, List.sum_cons]
      rfl

/-- A hold written: its namings come in the place of those before. -/
theorem namings_hold_written {s t : State} {h : Nat} {e : Hold} (hw : tableWf (Hold.free 0) s.gu.holds = true)
    (ht : t.gu.holds = tableWrite (Hold.free 0) s.gu.holds h e) (q : Place) :
    t.namings q + (s.hold h).names q = s.namings q + e.names q := by
  rw [namings_eq, namings_eq, ht]
  exact tableSum_tableWrite (Hold.names_free q rfl) hw h e

theorem raiseRef_refs (p q : Place) (s : State) :
    ((s.raiseRef p).slot q).refs = (if slotKey p = slotKey q then 1 else 0) + (s.slot q).refs := by
  by_cases h : slotKey p = slotKey q
  · rw [if_pos h, raiseRef_slot_same s h.symm, Nat.add_comm, State.slot, State.slot, h]
  · rw [if_neg h, raiseRef_slot_other s (Ne.symm h), Nat.zero_add]

theorem lowerRef_refs (p q : Place) (s : State) :
    ((s.lowerRef p).slot q).refs = (s.slot q).refs - (if slotKey p = slotKey q then 1 else 0) := by
  unfold State.lowerRef
  by_cases h : slotKey p = slotKey q
  · rw [if_pos h, writeSlot_slot_same _ s h.symm, drained_refs, State.slot, State.slot, h]
  · rw [if_neg h, writeSlot_slot_other _ s (Ne.symm h), Nat.sub_zero]

theorem forEach_raiseRef_refs (ps : List Place) (q : Place) (s : State) :
    ((forEach State.raiseRef ps s).slot q).refs = timesNamed ps q + (s.slot q).refs := by
  induction ps generalizing s with
  | nil => exact (Nat.zero_add _).symm
  | cons p rest ih =>
    rw [forEach, ih, raiseRef_refs, timesNamed_cons]
    omega

theorem forEach_lowerRef_refs (ps : List Place) (q : Place) (s : State) :
    ((forEach State.lowerRef ps s).slot q).refs = (s.slot q).refs - timesNamed ps q := by
  induction ps generalizing s with
  | nil => exact (Nat.sub_zero _).symm
  | cons p rest ih =>
    rw [forEach, ih, lowerRef_refs, timesNamed_cons]
    omega

/-! ## The counts stay those that the holds give (R11) -/

theorem granted_refsMatch {s : State} (hw : tableWf (Hold.free 0) s.gu.holds = true) (hm : s.refsMatch) (a : MapAsk)
    (target : Option Place) {h : Nat} {rest : List Nat} (hf : s.gu.freeOrder = h :: rest) (he : (s.hold h).state = .free) :
    (grantMap a target s).refsMatch := by
  intro q
  rw [grantMap_eq hf, granted_slot, forEach_raiseRef_refs, hm q]
  have hnames := namings_hold_written (t := s.granted a target h rest) hw (by rw [granted_eq]) q
  rw [Hold.names_free q he, Hold.names_used q (by simp [State.newHold])] at hnames
  omega

@[simp] theorem offerNotice_gu (n : Notice) (s : State) : (s.offerNotice n).gu = s.gu := by
  obtain ⟨m, hm⟩ := offerNotice_eq n s
  rw [hm]

theorem expireHold_refsMatch {s : State} (hw : tableWf (Hold.free 0) s.gu.holds = true) (hm : s.refsMatch) {h : Nat}
    (he : (s.hold h).state = .live) : (expireHold h (s.hold h) s).refsMatch := by
  intro q
  have hexpired : expireHold h (s.hold h) s = { s.expired h with agenda := (s.expired h).agenda ++ (s.hold h).endReport } :=
    reportEnd_eq (s.hold h) (s.expired h)
  have hslot : (expireHold h (s.hold h) s).slot q = s.slot q := by
    obtain ⟨g, m, hg⟩ := expired_eq s h
    rw [hexpired, hg]
    rfl
  have hholds : (expireHold h (s.hold h) s).gu.holds = tableWrite (Hold.free 0) s.gu.holds h
      { s.hold h with state := .expired, deadline := (s.hold h).deadline + (s.hold h).lifetime * 1000 } := by
    rw [hexpired]
    exact congrArg GrantUnit.holds (offerNotice_gu ..)
  have hnames := namings_hold_written hw hholds q
  rw [Hold.names_used q (by rw [he]; nofun), Hold.names_used q (by nofun)] at hnames
  rw [hslot, hm q]
  exact (Nat.add_right_cancel hnames).symm

theorem freeHold_refsMatch {s : State} (hw : tableWf (Hold.free 0) s.gu.holds = true) (hm : s.refsMatch) {h : Nat}
    (he : (s.hold h).state ≠ .free) : (freeHold h s).refsMatch := by
  intro q
  obtain ⟨m, hlower⟩ := forEach_lowerRef_pm (s.hold h).places s
  have hslot : (freeHold h s).slot q = (forEach State.lowerRef (s.hold h).places s).slot q := by
    rw [freeHold_onGu]
    rfl
  have hnames := namings_hold_written (t := freeHold h s) hw (by rw [freeHold_onGu, hlower]; rfl) q
  rw [Hold.names_used q he, Hold.names_free q rfl] at hnames
  rw [hslot, forEach_lowerRef_refs, hm q]
  omega

/-- A slot written with its count kept. -/
theorem writeSlot_refsMatch {s : State} (hm : s.refsMatch) {q : Place} {v : Slot} (h : v.refs = (s.slot q).refs) :
    (s.writeSlot q v).refsMatch := by
  intro p
  have hnames : (s.writeSlot q v).namings p = s.namings p := by rw [namings_eq, namings_eq, writeSlot_gu]
  rw [hnames, ← hm p]
  by_cases hp : slotKey p = slotKey q
  · rw [writeSlot_slot_same v s hp, h, State.slot, State.slot, hp]
  · rw [writeSlot_slot_other v s hp]

/-! ## The free counts stay the numbers of FREE slots (R8, R13) -/

/-- A list without repetition, filtered by two tests that agree everywhere but at one of its members. -/
theorem length_filter_changed {l : List Nat} {p p' : Nat → Bool} {k : Nat} (hl : l.Nodup) (hk : k ∈ l)
    (h : ∀ i ∈ l, i ≠ k → p' i = p i) :
    (l.filter p').length + (if p k then 1 else 0) = (l.filter p).length + (if p' k then 1 else 0) := by
  have hlen (p : Nat → Bool) : (l.filter p).length = ((l.erase k).filter p).length + (if p k then 1 else 0) := by
    rw [((List.perm_cons_erase hk).filter p).length_eq, List.filter_cons]
    by_cases hp : p k <;> simp [hp]
  have hsame : (l.erase k).filter p' = (l.erase k).filter p :=
    List.filter_congr fun i hi => h i (List.mem_of_mem_erase hi) (hl.mem_erase_iff.1 hi).1
  rw [hlen p, hlen p', hsame]
  omega

/-- How many slots of a set are FREE. -/
def State.freeSlots (s : State) (t : Nat) : Nat :=
  ((List.range (s.set t).slots).filter (fun k => (s.slot ⟨t, k⟩).state = .free)).length

theorem writeSlot_set_slots (q : Place) (v : Slot) (s : State) (t : Nat) :
    ((s.writeSlot q v).set t).slots = (s.set t).slots := by
  by_cases ht : t = q.set
  · subst ht
    by_cases ho : (s.slot q).state = .free <;> by_cases hv : v.state = .free
    · rw [writeSlot_set_kept (iff_of_true ho hv)]
    · rw [writeSlot_set_taken ho hv]
    · rw [writeSlot_set_freed ho hv]
    · rw [writeSlot_set_kept (iff_of_false ho hv)]
  · rw [writeSlot_set_other v s ht]

theorem slotKey_ne {t k : Nat} {q : Place} (hk : k < 1024) (hq : q.slot < 1024) (h : t ≠ q.set ∨ k ≠ q.slot) :
    slotKey ⟨t, k⟩ ≠ slotKey q := by
  unfold slotKey
  dsimp only
  omega

/-- The FREE slots of the set of a slot written: one more, one fewer, or as many. -/
theorem writeSlot_freeSlots_same {s : State} {q : Place} (v : Slot) (hq : q.slot < (s.set q.set).slots)
    (hmax : (s.set q.set).slots ≤ 1024) :
    (s.writeSlot q v).freeSlots q.set + (if (s.slot q).state = .free then 1 else 0)
      = s.freeSlots q.set + (if v.state = .free then 1 else 0) := by
  have hchange := length_filter_changed (l := List.range (s.set q.set).slots)
    (p := fun k => (s.slot ⟨q.set, k⟩).state = .free) (p' := fun k => ((s.writeSlot q v).slot ⟨q.set, k⟩).state = .free)
    List.nodup_range (List.mem_range.2 hq) fun k hk hne => by
      have hlt := List.mem_range.1 hk
      rw [writeSlot_slot_other v s (slotKey_ne (by omega) (by omega) (Or.inr hne))]
  rw [State.freeSlots, writeSlot_set_slots, State.freeSlots]
  simpa [writeSlot_slot_same v s (show slotKey ⟨q.set, q.slot⟩ = slotKey q from rfl)] using hchange

theorem writeSlot_freeSlots_other {s : State} {q : Place} (v : Slot) {t : Nat} (hq : q.slot < 1024) (ht : t ≠ q.set)
    (hmax : (s.set t).slots ≤ 1024) : (s.writeSlot q v).freeSlots t = s.freeSlots t := by
  unfold State.freeSlots
  rw [writeSlot_set_slots]
  refine congrArg _ (List.filter_congr fun k hk => ?_)
  have hlt := List.mem_range.1 hk
  rw [writeSlot_slot_other v s (slotKey_ne (by omega) hq (Or.inl ht))]

theorem writeSlot_freeMatches {s : State} {q : Place} (hm : s.freeMatches) (hq : q.slot < (s.set q.set).slots)
    (hmax : ∀ k, (s.set k).slots ≤ 1024) (v : Slot) : (s.writeSlot q v).freeMatches := by
  intro t
  change ((s.writeSlot q v).set t).freeCount = (s.writeSlot q v).freeSlots t
  have hbefore : (s.set t).freeCount = s.freeSlots t := hm t
  by_cases ht : t = q.set
  · subst ht
    have hcount := writeSlot_freeSlots_same v hq (hmax q.set)
    by_cases ho : (s.slot q).state = .free <;> by_cases hv : v.state = .free
    · rw [writeSlot_set_kept (iff_of_true ho hv), hbefore]
      simpa [ho, hv] using hcount.symm
    · rw [writeSlot_set_taken ho hv]
      simp only [ho, hv, if_true, if_false] at hcount
      dsimp only
      omega
    · rw [writeSlot_set_freed ho hv]
      simp only [ho, hv, if_true, if_false] at hcount
      dsimp only
      omega
    · rw [writeSlot_set_kept (iff_of_false ho hv), hbefore]
      simpa [ho, hv] using hcount.symm
  · rw [writeSlot_set_other v s ht, hbefore, writeSlot_freeSlots_other v (Nat.lt_of_lt_of_le hq (hmax _)) ht (hmax t)]

/-- Settles O28: each of the three looks is a record written with R12 evaluated, and the tables follow the record. -/
theorem drainingSlotsFreed : Obligations.DrainingSlotsFreed := by
  intro s q v freed kept others drains
  refine ⟨fun hd => ?_, fun hd => ?_, writeSlot_others q _ s, fun hs => ?_, fun hs => ?_, fun hs => ?_,
    writeSlot_others q _ s, fun hw hm => ?_, fun hm hq hmax w => writeSlot_freeMatches hm hq hmax w⟩
  · obtain ⟨hst, hrefs, hlane⟩ := hd
    exact (writeSlot_drained (v := { v with refs := v.refs - 1 }) (by rw [hst]; nofun) (by rw [hst]; nofun)).1
      ⟨hst, by change v.refs - 1 = 0; omega, hlane⟩
  · by_cases hst : v.state = .free
    · have hkeep : ({ v with refs := v.refs - 1 } : Slot).drained = { v with refs := v.refs - 1 } :=
        drained_kept fun h => by
          have := h.1
          rw [hst] at this
          cases this
      refine ⟨?_, ?_⟩
      · exact (writeSlot_slot_same _ s rfl).trans hkeep
      · refine writeSlot_set_kept (iff_of_true hst ?_) _
        rw [hkeep]
        exact hst
    · refine (writeSlot_drained (v := { v with refs := v.refs - 1 }) hst hst).2 fun h => hd ⟨h.1, ?_, h.2.2⟩
      have : v.refs - 1 = 0 := h.2.1
      omega
  · have hused : v.state ≠ .free := by rcases hs with hs | hs <;> rw [hs] <;> nofun
    have hdrained := writeSlot_drained (v := { v with state := .draining }) hused (by nofun)
    exact ⟨fun h => hdrained.1 ⟨rfl, h.1, h.2⟩, fun h => hdrained.2 fun hd => h hd.2, writeSlot_others q _ s⟩
  · obtain ⟨hst, hrefs⟩ := hs
    exact (writeSlot_drained (v := { v with lane := none }) (by rw [hst]; nofun) (by rw [hst]; nofun)).1
      ⟨hst, hrefs, rfl⟩
  · have hkeep : ({ v with lane := none } : Slot).drained = { v with lane := none } :=
      drained_kept fun h => hs ⟨h.1, h.2.1⟩
    refine ⟨(writeSlot_slot_same _ s rfl).trans hkeep, writeSlot_set_kept ?_ _⟩
    rw [hkeep]
  · refine ⟨fun a target h rest hf he => granted_refsMatch hw hm a target hf he, fun h he => expireHold_refsMatch hw hm he,
      fun h he => freeHold_refsMatch hw hm he, writeSlot_refsMatch hm (drained_refs _), writeSlot_refsMatch hm (drained_refs _),
      fun h0 => ⟨writeSlot_refsMatch hm h0.symm, fun state g => writeSlot_refsMatch hm h0.symm⟩⟩

end Sys2Proof.Machine
end

section
/-! PROOFS. Commands cancelled, and what the entry into FROZEN undoes at the Placement Map (R27, R28). -/

namespace Sys2Proof.Machine

/-! ## Ring entries with commands -/

theorem mem_of_tableRead {α : Type} {d : α} {t : List (Nat × α)} {k : Nat} {v : α} (h : tableRead d t k = v) (hv : v ≠ d) :
    (k, v) ∈ t := by
  induction t with
  | nil => exact absurd h.symm hv
  | cons e rest ih =>
    obtain ⟨j, w⟩ := e
    rw [tableRead] at h
    by_cases hj : j = k
    · rw [if_pos hj] at h
      rw [hj, h]
      exact List.mem_cons_self
    · rw [if_neg hj] at h
      exact List.mem_cons_of_mem _ (ih h)

/-- The entries listed are those whose command passes the test. -/
theorem mem_entriesWhere_iff {s : State} {p : Cmd → Bool} {e : Nat} (hw : tableWf (RingEntry.free 0) s.dp.ring = true) :
    e ∈ s.entriesWhere p ↔ ∃ c, (s.ring e).cmd = some c ∧ p c = true := by
  refine ⟨mem_entriesWhere hw, fun ⟨c, hc, hp⟩ => ?_⟩
  have hmem : (e, s.ring e) ∈ s.dp.ring := mem_of_tableRead rfl fun h => by
    rw [show s.ring e = RingEntry.free 0 from h] at hc
    cases hc
  exact List.mem_map.2 ⟨_, List.mem_filter.2 ⟨hmem, by simp [hc, hp]⟩, rfl⟩

/-! ## Cancels (R133) -/

/-- The Drive Port after the entries of a list were cancelled: those are free, the others and the wait lists stand. -/
structure Cancelled (es : List Nat) (s : State) (d : DrivePort) : Prop where
  ringWf : tableWf (RingEntry.free 0) d.ring = true
  waiting : d.waiting = s.dp.waiting
  labelWait : d.labelWait = s.dp.labelWait
  freed : ∀ e ∈ es, (tableRead (RingEntry.free 0) d.ring e).cmd = none
  kept : ∀ e, e ∉ es → tableRead (RingEntry.free 0) d.ring e = s.ring e

theorem cancelEntry_cancelled {e : Nat} {c : Cmd} {s : State} (hw : tableWf (RingEntry.free 0) s.dp.ring = true)
    (h : (s.ring e).cmd = some c) : ∃ d, cancelEntry e s = { s with dp := d } ∧ Cancelled [e] s d := by
  obtain ⟨free, hfree⟩ := freeEntry_eq e c s
  have hc : cancelEntry e s = (freeEntry e c s).send (.cancel e (s.ring e).generation) := by
    simp only [cancelEntry, h]
  rw [hfree] at hc
  refine ⟨_, hc, tableWf_tableWrite _ _ hw, rfl, rfl, fun e' he' => ?_, fun e' he' => ?_⟩
  · rw [List.mem_singleton.1 he']
    exact congrArg RingEntry.cmd
      (tableRead_tableWrite_same (RingEntry.free 0) s.dp.ring e (RingEntry.free (s.ring e).generation))
  · exact tableRead_tableWrite_other _ _ _ fun h => he' (List.mem_singleton.2 h)

theorem forEach_cancelEntry_cancelled {es : List Nat} {s : State} (hw : tableWf (RingEntry.free 0) s.dp.ring = true)
    (hn : es.Nodup) (hc : ∀ e ∈ es, (s.ring e).cmd.isSome = true) :
    ∃ d, forEach cancelEntry es s = { s with dp := d } ∧ Cancelled es s d := by
  induction es generalizing s with
  | nil => exact ⟨s.dp, rfl, hw, rfl, rfl, fun e he => absurd he List.not_mem_nil, fun _ _ => rfl⟩
  | cons e rest ih =>
    obtain ⟨hne, hrest⟩ := List.nodup_cons.1 hn
    obtain ⟨c, hcmd⟩ := Option.isSome_iff_exists.1 (hc e List.mem_cons_self)
    obtain ⟨d, hd, hwf, hwait, hlabel, hfreed, hkept⟩ := cancelEntry_cancelled hw hcmd
    have hring : ∀ e' ∈ rest, State.ring { s with dp := d } e' = s.ring e' := fun e' he' =>
      hkept e' fun h => hne (List.mem_singleton.1 h ▸ he')
    obtain ⟨d', hd', hwf', hwait', hlabel', hfreed', hkept'⟩ := ih (s := { s with dp := d }) hwf hrest fun e' he' => by
      rw [hring e' he']
      exact hc e' (List.mem_cons_of_mem _ he')
    refine ⟨d', by rw [forEach, hd, hd'], hwf', hwait'.trans hwait, hlabel'.trans hlabel, fun e' he' => ?_, fun e' he' => ?_⟩
    · rcases List.mem_cons.1 he' with rfl | he'
      · rw [hkept' e' hne]
        exact hfreed e' List.mem_cons_self
      · exact hfreed' e' he'
    · obtain ⟨hhead, htail⟩ := not_or.1 (mt List.mem_cons.2 he')
      exact (hkept' e' htail).trans (hkept e' fun h => hhead (List.mem_singleton.1 h))

/-- With no command waiting there is nothing to serve. -/
theorem serveCommands_none {s : State} (hwait : s.dp.waiting = []) (hlabel : s.dp.labelWait = []) : serveCommands s = s := by
  unfold serveCommands
  split
  · have hring : serveRing s.dp.waiting.length s = s := by rw [hwait]; rfl
    dsimp only
    rw [hring, hlabel]
    rfl
  · rfl

theorem DrivePort.wait_none {d : DrivePort} (hwait : d.waiting = []) (hlabel : d.labelWait = []) :
    { d with waiting := [], labelWait := [] } = d := by
  cases d
  cases hwait
  cases hlabel
  rfl

theorem withdraw_none {p : Cmd → Bool} {s : State} (hwait : s.dp.waiting = []) (hlabel : s.dp.labelWait = []) :
    withdraw p s = s := by
  have hsame : s.onDp (fun d => { d with waiting := d.waiting.filter (fun c => !p c),
                                         labelWait := d.labelWait.filter (fun c => !p c) }) = s := by
    rw [State.onDp, hwait, hlabel, List.filter_nil, DrivePort.wait_none hwait hlabel]
  rw [withdraw, hwait, List.filter_nil, hsame]
  rfl

/-- With no command waiting, the commands of an owner are cancelled, and no more. -/
theorem cancelCommands_idle {s : State} (p : Cmd → Bool) (hw : tableWf (RingEntry.free 0) s.dp.ring = true)
    (hwait : s.dp.waiting = []) (hlabel : s.dp.labelWait = []) :
    ∃ d, cancelCommands p s = { s with dp := d } ∧ Cancelled (s.entriesWhere p) s d := by
  have hcmds : ∀ e ∈ s.entriesWhere p, (s.ring e).cmd.isSome = true := fun e he => by
    obtain ⟨c, hc, -⟩ := mem_entriesWhere hw he
    rw [hc]
    rfl
  obtain ⟨d, hd, hcancelled⟩ := forEach_cancelEntry_cancelled hw (entriesWhere_nodup p hw) hcmds
  refine ⟨d, ?_, hcancelled⟩
  rw [cancelCommands, withdraw_none hwait hlabel, hd]
  exact serveCommands_none (hcancelled.waiting.trans hwait) (hcancelled.labelWait.trans hlabel)

/-- After the commands of an owner were cancelled, it has none. -/
theorem Cancelled.entriesWhere_nil {s t : State} {p : Cmd → Bool} (hw : tableWf (RingEntry.free 0) s.dp.ring = true)
    (h : Cancelled (s.entriesWhere p) s t.dp) : t.entriesWhere p = [] := by
  refine List.eq_nil_iff_forall_not_mem.2 fun e he => ?_
  obtain ⟨c, hc, hp⟩ := mem_entriesWhere h.ringWf he
  by_cases hes : e ∈ s.entriesWhere p
  · rw [show (t.ring e).cmd = none from h.freed e hes] at hc
    cases hc
  · rw [show t.ring e = s.ring e from h.kept e hes] at hc
    exact hes ((mem_entriesWhere_iff hw).2 ⟨c, hc, hp⟩)

/-! ## Slots freed, one after another (R47) -/

/-- Slots written change slots and sets alone. -/
theorem writeSlot_slots_sets (p : Place) (v : Slot) (s : State) :
    ∃ slots sets, s.writeSlot p v = { s with pm := { s.pm with slots := slots, sets := sets } } := by
  unfold State.writeSlot
  dsimp only
  split
  · exact ⟨_, _, rfl⟩
  · split
    · exact ⟨_, _, rfl⟩
    · exact ⟨_, s.pm.sets, rfl⟩

/-- Slots given up by a list of placements. -/
def freeHomes (ps : List Placement) (s : State) : State := forEach (fun (p : Placement) s => s.freeSlot p.place) ps s

theorem freeHomes_eq (ps : List Placement) (s : State) :
    ∃ slots sets, freeHomes ps s = { s with pm := { s.pm with slots := slots, sets := sets } } := by
  induction ps generalizing s with
  | nil => exact ⟨s.pm.slots, s.pm.sets, rfl⟩
  | cons p rest ih =>
    obtain ⟨slots, sets, h⟩ := writeSlot_slots_sets p.place Slot.free s
    obtain ⟨slots', sets', h'⟩ := ih (s.freeSlot p.place)
    refine ⟨slots', sets', h'.trans ?_⟩
    rw [State.freeSlot, h]

theorem freeHomes_slot_other {ps : List Placement} {q : Place} (s : State)
    (h : ∀ p ∈ ps, slotKey p.place ≠ slotKey q) : (freeHomes ps s).slot q = s.slot q := by
  induction ps generalizing s with
  | nil => rfl
  | cons p rest ih =>
    refine (ih (s.freeSlot p.place) fun r hr => h r (List.mem_cons_of_mem _ hr)).trans ?_
    exact writeSlot_slot_other _ s (Ne.symm (h p List.mem_cons_self))

theorem freeHomes_slot_kept_free {ps : List Placement} {q : Place} {s : State} (h : s.slot q = Slot.free) :
    (freeHomes ps s).slot q = Slot.free := by
  induction ps generalizing s with
  | nil => exact h
  | cons p rest ih =>
    refine ih (s := s.freeSlot p.place) ?_
    by_cases hk : slotKey q = slotKey p.place
    · exact writeSlot_slot_same _ s hk
    · exact (writeSlot_slot_other _ s hk).trans h

theorem freeHomes_slot_named {ps : List Placement} {p : Placement} (s : State) (h : p ∈ ps) :
    (freeHomes ps s).slot p.place = Slot.free := by
  induction ps generalizing s with
  | nil => cases h
  | cons r rest ih =>
    rcases List.mem_cons.1 h with rfl | h
    · exact freeHomes_slot_kept_free (s := s.freeSlot p.place) (writeSlot_slot_same _ s rfl)
    · exact ih (s.freeSlot r.place) h

theorem freeHomes_freeMatches {ps : List Placement} {s : State} (hm : s.freeMatches)
    (hlt : ∀ p ∈ ps, p.place.slot < (s.set p.place.set).slots) (hmax : ∀ k, (s.set k).slots ≤ 1024) :
    (freeHomes ps s).freeMatches := by
  induction ps generalizing s with
  | nil => exact hm
  | cons p rest ih =>
    have hslots (k : Nat) : ((s.freeSlot p.place).set k).slots = (s.set k).slots := writeSlot_set_slots p.place Slot.free s k
    refine ih (s := s.freeSlot p.place) (writeSlot_freeMatches hm (hlt p List.mem_cons_self) hmax _) (fun r hr => ?_)
      fun k => ?_
    · rw [hslots]
      exact hlt r (List.mem_cons_of_mem _ hr)
    · rw [hslots]
      exact hmax k

/-! ## Configuration in FROZEN (R27, R28) -/

/-- The configuration requests, and SET_PARAM of SLAB_SIZE, in FROZEN. -/
theorem exec_configuration_frozen {s : State} {c : Instr} {k : ReqKind} {tag : ReqTag} {p : List Byte}
    (hc : c.request = some (k, tag))
    (hk : k ∈ [ReqKind.joinMember, .releaseMember, .failMember, .defineSet, .retireSet, .createVolume, .grow]
      ∨ (k = .setParam ∧ byteAt p 0 = 0))
    (hs : s.serves k tag p) (hf : s.part = .frozen) : exec c s = .next (s.answer tag .journalDown .empty) := by
  have hslab (h0 : byteAt p 0 = 0) : serveSetParam tag p s = s.answer tag .journalDown .empty := by
    rw [serveSetParam, h0]
    exact if_pos hf
  cases c <;> cases hc <;> simp at hk
  case setParam => exact takeRequest_answers hs (hslab hk)
  all_goals exact takeRequest_answers hs (if_pos hf)

theorem pmFrozen_none {u : State} (h : u.pm.busy = none) : pmFrozen u = u := by
  simp only [pmFrozen, h]

theorem pmFrozen_busy {u : State} {w : PmWork} (h : u.pm.busy = some w) :
    pmFrozen u = (undoWork w { u with pm := { u.pm with busy := none } }).answer w.tag .journalDown .empty := by
  simp only [pmFrozen, h]
  rfl

/-- A changed member: the notice where its state changes. -/
theorem changeMember_same {id : Nat} {m : Member} {s : State} (h : (s.member id).state = m.state) :
    changeMember id m s = s.setMember id m := if_pos h

theorem changeMember_moves {id : Nat} {m : Member} {s : State} (h : (s.member id).state ≠ m.state) :
    changeMember id m s = (s.setMember id m).offerNotice (.memberState id (s.member id).state m.state) := if_neg h

/-- A notice looks at the Message Port alone. -/
theorem offerNotice_of_mp {s t : State} (n : Notice) (h : t.mp = s.mp) :
    t.offerNotice n = { t with mp := (s.offerNotice n).mp } := by
  by_cases hmask : s.mp.mask.getLsbD n.bit = true
  · have hmask' : t.mp.mask.getLsbD n.bit = true := by rwa [h]
    by_cases hroom : noticeCount s.mp.outbound < 32
    · rw [offerNotice_queued hmask hroom, offerNotice_queued hmask' (by rwa [h]), h]
    · rw [offerNotice_lost hmask (Nat.not_lt.1 hroom), offerNotice_lost hmask' (by rw [h]; exact Nat.not_lt.1 hroom), h]
  · rw [Bool.not_eq_true] at hmask
    rw [offerNotice_disabled hmask, offerNotice_disabled (by rwa [h]), ← h]

/-- The entry that a member in JOINING has as the journal freezes (R33). -/
def State.unjoinedEntry (s : State) (id : Nat) : Member :=
  if (s.bay id).occupied = true ∧ (s.bay id).ready = true then { s.member id with state := .present } else Member.absent

theorem joinFrozen_eq {id : Nat} {u : State} (hj : (u.member id).state = .joining)
    (hwait : u.dp.waiting = []) (hlabel : u.dp.labelWait = []) (hw : tableWf (RingEntry.free 0) u.dp.ring = true) :
    ∃ d, Cancelled (u.entriesWhere (fun c => decide (c.owner = .admission))) u d
      ∧ joinFrozen id u = { u with
          dp := d, pm := { u.pm with members := tableWrite Member.absent u.pm.members id (u.unjoinedEntry id) },
          mp := (u.offerNotice (.memberState id .joining (u.unjoinedEntry id).state)).mp } := by
  obtain ⟨d, hd, hcancelled⟩ := cancelCommands_idle (fun c => decide (c.owner = .admission)) hw hwait hlabel
  refine ⟨d, hcancelled, ?_⟩
  have hentry : joinFrozen id u = changeMember id (u.unjoinedEntry id) { u with dp := d } := by
    unfold joinFrozen State.unjoinedEntry
    dsimp only
    rw [hd]
    by_cases hp : (u.bay id).occupied = true ∧ (u.bay id).ready = true
    · rw [if_pos hp]
      exact if_pos (Bool.and_eq_true_iff.2 hp)
    · rw [if_neg hp]
      exact if_neg (mt Bool.and_eq_true_iff.1 hp)
  have hne : (u.member id).state ≠ (u.unjoinedEntry id).state := by
    rw [hj, State.unjoinedEntry]
    split <;> nofun
  rw [hentry, changeMember_moves (s := { u with dp := d }) hne, show State.member { u with dp := d } id = u.member id from rfl,
    hj]
  exact offerNotice_of_mp _ rfl

/-- Settles O29: in FROZEN the requests are refused; entering it undoes the waiting one, work by work. -/
theorem configurationFrozen : Obligations.ConfigurationFrozen := by
  refine ⟨fun s c k tag p hc hk hs hf => exec_configuration_frozen hc hk hs hf, fun u h => pmFrozen_none h,
    fun u tag => ?_⟩
  intro told undone rest
  refine ⟨fun id hb => ?_, fun k hb => pmFrozen_busy hb, fun k hb => pmFrozen_busy hb, fun v hb => pmFrozen_busy hb,
    fun id was hb => ?_, fun w hw hb => ?_, fun id seq verified durable hb hj hwait hlabel hring => ?_⟩
  · rcases hb with hb | hb | hb <;> exact pmFrozen_busy hb
  · intro back
    refine ⟨fun hsame => (pmFrozen_busy hb).trans ?_, fun hmoves => (pmFrozen_busy hb).trans ?_⟩
    · exact congrArg (State.answer tag .journalDown .empty) (changeMember_same (s := { u with pm := { u.pm with busy := none } }) hsame)
    · exact congrArg (State.answer tag .journalDown .empty) (changeMember_moves (s := { u with pm := { u.pm with busy := none } }) hmoves)
  · have htold : told = (abandonGrowth w { u with pm := { u.pm with busy := none } }).answer tag .journalDown .empty :=
      hw ▸ pmFrozen_busy hb
    obtain ⟨slots, sets, hhomes⟩ := freeHomes_eq w.homes { u with pm := { u.pm with busy := none } }
    have habandon : abandonGrowth w { u with pm := { u.pm with busy := none } } = { u with pm := { u.pm with
        busy := none, slots := slots, sets := sets,
        volumes := tableWrite Volume.unused u.pm.volumes w.volume { u.volume w.volume with pool := w.oldPool } } } := by
      change (fun t : State => t.setVolume w.volume { t.volume w.volume with pool := w.oldPool })
        (freeHomes w.homes { u with pm := { u.pm with busy := none } }) = _
      rw [hhomes]
      rfl
    have hslot (q : Place) : told.slot q = (freeHomes w.homes { u with pm := { u.pm with busy := none } }).slot q := by
      rw [htold, habandon, answer_of_mp (s := u) tag .journalDown .empty (by rfl), hhomes]
      rfl
    have hset (k : Nat) : told.set k = (freeHomes w.homes { u with pm := { u.pm with busy := none } }).set k := by
      rw [htold, habandon, answer_of_mp (s := u) tag .journalDown .empty (by rfl), hhomes]
      rfl
    have hall : told = { u with
        pm := { u.pm with busy := none, slots := slots, sets := sets,
                          volumes := tableWrite Volume.unused u.pm.volumes w.volume { u.volume w.volume with pool := w.oldPool } },
        mp := (u.answer tag .journalDown .empty).mp } := by
      rw [htold, habandon]
      exact answer_of_mp (s := u) tag .journalDown .empty (by rfl)
    refine ⟨fun p hp => (hslot _).trans (freeHomes_slot_named _ hp), fun q hq => (hslot q).trans (freeHomes_slot_other _ hq),
      by rw [hall], by rw [hall], by rw [hall], by rw [hall], by rw [hall], ?_, fun hm hlt hmax => ?_⟩
    · rw [hall]
      exact ⟨rfl, rfl, rfl, rfl, rfl, rfl, rfl⟩
    · have hfree := freeHomes_freeMatches (s := { u with pm := { u.pm with busy := none } }) hm hlt hmax
      intro t
      simp only [hset, hslot]
      exact hfree t
  · intro entry
    obtain ⟨d, hcancelled, hjoin⟩ := joinFrozen_eq (u := { u with pm := { u.pm with busy := none } }) hj hwait hlabel hring
    have hall : told = { u with
        dp := d, pm := { u.pm with busy := none, members := tableWrite Member.absent u.pm.members id entry },
        mp := (State.answer tag .journalDown .empty (u.offerNotice (.memberState id .joining entry.state))).mp } := by
      refine (pmFrozen_busy hb).trans ?_
      change (joinFrozen id _).answer tag .journalDown .empty = _
      rw [hjoin]
      have hmp : (State.offerNotice (.memberState id .joining entry.state) { u with pm := { u.pm with busy := none } }).mp
          = (u.offerNotice (.memberState id .joining entry.state)).mp := by
        rw [offerNotice_of_mp (s := u) _ (by rfl)]
      exact answer_of_mp tag .journalDown .empty hmp
    rw [hall]
    refine ⟨tableRead_tableWrite_same Member.absent u.pm.members id entry,
      fun k hk => tableRead_tableWrite_other Member.absent u.pm.members entry hk,
      Cancelled.entriesWhere_nil (s := { u with pm := { u.pm with busy := none } }) hring hcancelled,
      fun e he => hcancelled.kept e fun hmem => ?_, rfl, rfl, rfl, rfl, rfl, rfl, rfl, rfl, rfl, rfl, rfl⟩
    obtain ⟨c, hc, hp⟩ := mem_entriesWhere hring hmem
    exact he c hc (of_decide_eq_true hp)

end Sys2Proof.Machine
end

section
/-! PROOFS. Requests that queue a record: SET_PARAM (R19, R55, R174), and the members of the Placement Map (R31 to R38). -/

namespace Sys2Proof.Machine

/-! ## A record queued at the end of a command (R150, R151) -/

/-- The owners that do nothing when their record has its number, and the Placement Map without a waiting admission. -/
theorem ownerQueued_still {r : Record} {s : State}
    (h : r.owner = .gu ∨ r.owner = .dp ∨ r.owner = .sm ∨ r.owner = .me
      ∨ r.owner = .pm ∧ ∀ tag id verified durable, s.pm.busy ≠ some (.joining tag id none verified durable)) :
    ownerQueued r s = s := by
  unfold ownerQueued
  rcases h with h | h | h | h | ⟨h, hbusy⟩
  case inr.inr.inr.inr =>
    rw [h]
    dsimp only
    unfold pmQueued
    split
    · next heq _ => exact absurd heq (hbusy _ _ _ _)
    · rfl
  all_goals rw [h]

/-- A command that queues a record for an owner that then does nothing ends with the record queued. -/
theorem next_queueWork {s t : State} {owner : JOwner} {w : Work} (ho : t.journalOpen) (hp : w.body.plain = true)
    (hown : ∀ u : State, u.pm = t.pm → ownerQueued ⟨t.jc.nextSeq, w.body, owner, w.reply⟩ u = u)
    (ha : t.agenda = []) (hc : t.clock = s.clock) (hpend : t.pending = s.pending) (hme : t.me = s.me) :
    (Host.Outcome.next (finish s (queueWork owner w t)) : Answer) = .next (t.withRecord owner w.body w.reply) := by
  rw [queueWork_open ho hp]
  refine next_post (u := t.withRecord owner w.body w.reply) ha ?_ ha hc hpend (jobsIdle_of_me hme)
  exact hown _ rfl

/-! ## SET_PARAM (R19, R55, R80, R81, R101, R132, R139, R174) -/

theorem setOwnParam_outside {q : Param} {v : Nat} {s : State} (tag : ReqTag) (hr : paramInRange q v = false) :
    setOwnParam tag q v s = s.answer tag .badField .empty := by
  rw [setOwnParam, hr]
  rfl

theorem setOwnParam_frozen {q : Param} {v : Nat} {s : State} (tag : ReqTag) (hr : paramInRange q v = true)
    (hf : s.part = .frozen) : setOwnParam tag q v s = s.answer tag .journalDown .empty := by
  rw [setOwnParam, hr, if_neg (by decide), if_pos hf, State.refuse]

theorem setOwnParam_accepts {q : Param} {v : Nat} {s : State} (tag : ReqTag) (hr : paramInRange q v = true)
    (hf : s.part ≠ .frozen) :
    setOwnParam tag q v s = queueWork q.journalOwner ⟨.param q v, some tag⟩ (s.markTaken tag) := by
  rw [setOwnParam, hr, if_neg (by decide), if_neg hf]

/-- A parameter of another owner than the Placement Map. -/
def Param.own : Param → Prop
  | .slabSize => False
  | .arrayId => False
  | _ => True

/-- The rule for a parameter of another owner than the Placement Map. -/
theorem exec_setOwnParam {s : State} {tag : ReqTag} {p : List Byte} {q : Param} {owner : JOwner} {inRange : Prop}
    (hs : s.serves .setParam tag p) (hq : Param.ofCode (byteAt p 0) = some q) (hown : q.own)
    (howner : q.journalOwner = owner) (hrange : paramInRange q (fieldAt p 4 4) = true ↔ inRange) :
    (¬inRange → exec (.setParam tag) s = .next (s.answer tag .badField .empty))
      ∧ (inRange → s.part = .frozen → exec (.setParam tag) s = .next (s.answer tag .journalDown .empty))
      ∧ (inRange → s.part = .ready → s.journalOpen →
          exec (.setParam tag) s = .next ((s.markTaken tag).withRecord owner (.param q (fieldAt p 4 4)) (some tag))) := by
  have hserve : serveSetParam tag p s = setOwnParam tag q (fieldAt p 4 4) s := by
    have howner' : q.owner ≠ .pm := by cases q <;> simp [Param.own, Param.owner] at hown ⊢
    unfold serveSetParam
    rw [hq]
    exact if_neg howner'
  subst howner
  refine ⟨fun hr => ?_, fun hr hf => ?_, fun hr hready ho => ?_⟩
  · exact takeRequest_answers hs (hserve.trans (setOwnParam_outside tag (Bool.eq_false_iff.2 (mt hrange.1 hr))))
  · exact takeRequest_answers hs (hserve.trans (setOwnParam_frozen tag (hrange.2 hr) hf))
  · refine (takeRequest_serves hs).trans ?_
    rw [hserve, setOwnParam_accepts tag (hrange.2 hr) (by rw [hready]; nofun)]
    refine next_queueWork (t := s.markTaken tag) ho rfl (fun u _ => ownerQueued_still ?_) hs.1 rfl rfl rfl
    cases q <;> simp [Param.own, Param.journalOwner] at hown ⊢

/-- SET_PARAM at the Placement Map. -/
theorem exec_setPmParam {s : State} {tag : ReqTag} {p : List Byte} {q : Param}
    (hs : s.serves .setParam tag p) (hq : Param.ofCode (byteAt p 0) = some q) (howner : q.owner = .pm) :
    exec (.setParam tag) s = .next (finish s (setPmParam tag q (fieldAt p 4 4) s)) := by
  refine (takeRequest_serves hs).trans ?_
  unfold serveSetParam
  rw [hq]
  dsimp only
  rw [if_pos howner]

theorem slabSize_inRange (v : Nat) : paramInRange .slabSize v = true ↔ v = 1 ∨ v = 4 ∨ v = 16 := by
  simp [paramInRange, or_assoc]

/-- Settles O30: seven parameters by one rule, SLAB_SIZE by its own, and the names that are none. -/
theorem parameterSet : Obligations.ParameterSet := by
  intro s tag p hs v rule
  have hrefuse {r : Result} {q : Param} (hq : Param.ofCode (byteAt p 0) = some q) (howner : q.owner = .pm)
      (h : setPmParam tag q v s = s.refuse tag r) : exec (.setParam tag) s = .next (s.answer tag r .empty) := by
    rw [exec_setPmParam hs hq howner, h, finish_refuse hs.1, State.refuse]
  have hready (h : s.part = .ready) : s.part ≠ .frozen := by rw [h]; nofun
  refine ⟨fun h => ?_, fun h => ?_, fun h => ?_, fun h => ?_, fun h => ?_, fun h => ?_, fun h => ?_, fun h => ?_,
    fun h hr => ?_, fun h => ?_⟩
  · exact exec_setOwnParam hs (by rw [h]; rfl) trivial rfl (by simp [paramInRange, v])
  · exact exec_setOwnParam hs (by rw [h]; rfl) trivial rfl (by simp [paramInRange, v])
  · exact exec_setOwnParam hs (by rw [h]; rfl) trivial rfl (by simp [paramInRange, v])
  · exact exec_setOwnParam hs (by rw [h]; rfl) trivial rfl (by simp [paramInRange, v, or_assoc])
  · exact exec_setOwnParam hs (by rw [h]; rfl) trivial rfl (by simp [paramInRange, v, or_assoc])
  · exact exec_setOwnParam hs (by rw [h]; rfl) trivial rfl (by simp [paramInRange, v])
  · exact exec_setOwnParam hs (by rw [h]; rfl) trivial rfl (by simp [paramInRange, v])
  · have hq : Param.ofCode (byteAt p 0) = some .slabSize := by rw [h]; rfl
    have hout (hr : ¬(v = 1 ∨ v = 4 ∨ v = 16)) : paramInRange .slabSize v = false :=
      Bool.eq_false_iff.2 (mt (slabSize_inRange v).1 hr)
    refine ⟨fun hf => hrefuse hq rfl (if_pos hf), fun hr h1 h4 h16 => hrefuse hq rfl ?_, fun hr hin hused => hrefuse hq rfl ?_,
      fun hr hin hunused ho => ?_⟩
    · rw [setPmParam, if_neg (hready hr), hout (by simp [h1, h4, h16])]
      rfl
    · obtain ⟨e, he, hstate⟩ := hused
      rw [setPmParam, if_neg (hready hr), (slabSize_inRange v).2 hin, if_neg (by decide),
        if_pos (List.any_eq_true.2 ⟨e, he, decide_eq_true hstate⟩)]
    · have hnone : ¬(s.pm.sets.any (fun e => e.2.state ≠ .unused)) = true := by
        rw [List.any_eq_true]
        rintro ⟨e, he, hstate⟩
        exact of_decide_eq_true hstate (hunused e he)
      rw [exec_setPmParam hs hq rfl, setPmParam, if_neg (hready hr), (slabSize_inRange v).2 hin, if_neg (by decide),
        if_neg hnone]
      refine next_queueWork (t := setBusy (some (.slabSize tag)) (s.markTaken tag)) ho rfl (fun u hu => ownerQueued_still ?_)
        hs.1 rfl rfl rfl
      exact Or.inr (Or.inr (Or.inr (Or.inr ⟨rfl, fun _ _ _ _ => by rw [hu]; nofun⟩)))
  · refine hrefuse (q := .arrayId) (by rw [h]; rfl) rfl ?_
    rw [setPmParam, if_neg (hready hr)]
    rfl
  · have hunknown : Param.ofCode (byteAt p 0) = none := by
      unfold Param.ofCode
      split
      case h_10 => rfl
      all_goals omega
    refine takeRequest_answers hs ?_
    unfold serveSetParam
    rw [hunknown]
    rfl

/-! ## ADMIT (R31) -/

theorem serveAdmit_ready {s : State} {tag : ReqTag} {p : List Byte} (hr : s.part = .ready) :
    serveAdmit tag p s =
      if (s.member (byteAt p 0)).state ≠ .present ∨ (s.member (byteAt p 0)).formatOk = false then s.refuse tag .wrongState
      else if (s.member (byteAt p 0)).capacity ≤ 2048 then s.refuse tag .noSpace
      else beginJoin tag (byteAt p 0) s := if_neg (by rw [hr]; nofun)

/-- The state in which an admission's record is queued: the member is JOINING, and the notice is offered. -/
def State.admitting (s : State) (tag : ReqTag) (id : Nat) : State :=
  { s with
    mp := ((s.markTaken tag).offerNotice (.memberState id .present .joining)).mp,
    pm := { s.pm with
      members := tableWrite Member.absent s.pm.members id { s.member id with state := .joining },
      busy := some (.joining tag id none false false) } }

theorem admitting_member (s : State) (tag : ReqTag) (id : Nat) :
    (s.admitting tag id).member id = { s.member id with state := .joining } :=
  tableRead_tableWrite_same Member.absent s.pm.members id { s.member id with state := .joining }

theorem beginJoin_eq {s : State} {id : Nat} (tag : ReqTag) (hp : (s.member id).state = .present) :
    beginJoin tag id s = pmWork tag (.member id (.admission (s.member id).capacity (s.member id).formatOk))
      (s.admitting tag id) := by
  have hchange : changeMember id { s.member id with state := .joining }
      (setBusy (some (.joining tag id none false false)) (s.markTaken tag)) = s.admitting tag id := by
    refine (changeMember_moves ?_).trans ?_
    · change (s.member id).state ≠ .joining
      rw [hp]
      nofun
    · rw [show (State.member (setBusy (some (.joining tag id none false false)) (s.markTaken tag)) id).state
        = .present from hp]
      exact offerNotice_of_mp (s := s.markTaken tag) _ (by rfl)
  change pmWork tag (State.joinRecord (changeMember id { s.member id with state := .joining }
    (setBusy (some (.joining tag id none false false)) (s.markTaken tag))) id)
    (changeMember id { s.member id with state := .joining }
      (setBusy (some (.joining tag id none false false)) (s.markTaken tag))) = _
  rw [hchange, State.joinRecord, admitting_member]

/-- A command that has its pages is issued where the flush is answered, its drive is there and an entry is free. -/
theorem accept_issues {c : Cmd} {s : State} {e : Nat} {entries : List Nat} (hflush : s.dp.flush = .answered)
    (hreach : s.unreachable c.member = false) (hentry : s.dp.freeOrder = e :: entries) : accept c s = issue e c s := by
  unfold accept
  rw [if_pos hflush, hreach, if_neg Bool.false_ne_true]
  simp only [hentry]

/-- A label command with a place and an entry free for it is issued at once. -/
theorem handOver_label_issues {c : Cmd} {s : State} {place e : Nat} {places entries : List Nat}
    (ho : c.owner = .admission) (hplace : s.dp.labelFree = place :: places) (hentry : s.dp.freeOrder = e :: entries)
    (hflush : s.dp.flush = .answered) (hreach : s.unreachable c.member = false) :
    handOver c s = issue e { c with pages := .label (some place) }
      { s with dp := { s.dp with
        labelFree := places, labels := tableWrite Block.zero s.dp.labels place (c.labelBlock.getD Block.zero) } } := by
  have htake : handOver c s = takeLabelPlace place places c s := by simp only [handOver, ho, hplace]
  rw [htake]
  exact accept_issues (s := s.onDp _) hflush hreach hentry

/-- The label command of an admission. -/
def admissionLabel (s : State) (id : Nat) : Block := taggedBlock (labelData s.pm.arrayId id s.jc.nextSeq) ⟨.label, id, 0⟩

/-- The state in which an admission waits for its label and its record. -/
def State.admitted (s : State) (tag : ReqTag) (id place e : Nat) (places : List Nat) : State :=
  let u := (s.admitting tag id).withRecord .pm
    (.member id (.admission (s.member id).capacity (s.member id).formatOk)) (some tag)
  issue e { owner := .admission, use := .label, member := id, op := .write, dbn := 0, count := 1,
            pages := .label (some place), context := none, labelBlock := some (admissionLabel s id) }
    { u with
      pm := { u.pm with busy := some (.joining tag id (some s.jc.nextSeq) false false) },
      dp := { u.dp with
        labelFree := places, labels := tableWrite Block.zero u.dp.labels place (admissionLabel s id) } }

theorem joinNumbered_issues {s : State} {tag : ReqTag} {id place e : Nat} {places entries : List Nat}
    (hflush : s.dp.flush = .answered) (hbay : (s.bay id).present = true) (hplace : s.dp.labelFree = place :: places)
    (hentry : s.dp.freeOrder = e :: entries) :
    joinNumbered tag id s.jc.nextSeq false ((s.admitting tag id).withRecord .pm
      (.member id (.admission (s.member id).capacity (s.member id).formatOk)) (some tag))
      = s.admitted tag id place e places := by
  let u := setBusy (some (.joining tag id (some s.jc.nextSeq) false false)) ((s.admitting tag id).withRecord .pm
    (.member id (.admission (s.member id).capacity (s.member id).formatOk)) (some tag))
  have hreach : u.unreachable id = false := by
    have hmember : (u.member id).state = .joining := congrArg Member.state (admitting_member s tag id)
    rw [State.unreachable, hmember, Bool.or_eq_false_iff]
    exact ⟨by decide, by rw [Bool.not_eq_false']; exact hbay⟩
  exact handOver_label_issues (c := joinCmd id .write (some (admissionLabel s id))) (s := u) rfl hplace hentry hflush hreach

/-- Settles O31: the two refusals, and the admission whose label is issued at the moment its record has its number. -/
theorem admissionBegins : Obligations.AdmissionBegins := by
  intro s tag p hs hr id m q label
  have hrefuse {r : Result} (h : serveAdmit tag p s = s.refuse tag r) :
      exec (.admitMember tag) s = .next (s.answer tag r .empty) := takeRequest_answers hs h
  refine ⟨fun hno => hrefuse ?_, fun hpresent hformat hcap => hrefuse ?_,
    fun hpresent hformat hcap ho hflush hbay place places e entries hplace hentry => ?_⟩
  · rw [serveAdmit_ready hr, if_pos hno]
  · rw [serveAdmit_ready hr, if_neg (by simp [m, id] at hpresent hformat; simp [hpresent, hformat]), if_pos hcap]
  · have hserve : exec (.admitMember tag) s = .next (finish s (pmWork tag
        (.member id (.admission m.capacity m.formatOk)) (s.admitting tag id))) := by
      refine (takeRequest_serves hs).trans ?_
      rw [serveAdmit_ready hr, if_neg (by simp [m, id] at hpresent hformat; simp [hpresent, hformat]),
        if_neg (Nat.not_le.2 hcap), beginJoin_eq tag hpresent]
    have hnumbered : handle (.recordQueued ⟨q, .member id (.admission m.capacity m.formatOk), .pm, some tag⟩)
        ((s.admitting tag id).withRecord .pm (.member id (.admission m.capacity m.formatOk)) (some tag))
          = s.admitted tag id place e places := by
      refine Eq.trans ?_ (joinNumbered_issues (tag := tag) (id := id) hflush hbay hplace hentry)
      exact if_pos rfl
    have hexec : exec (.admitMember tag) s = .next (s.admitted tag id place e places) := by
      rw [hserve, pmWork, queueWork_open (s := s.admitting tag id) ho rfl]
      exact next_post (by exact hs.1) hnumbered hs.1 rfl rfl (jobsIdle_of_me rfl)
    refine ⟨s.admitted tag id place e places, hexec, admitting_member s tag id, fun k hk => ?_, rfl, ?_, rfl, ?_, rfl, ?_, rfl,
      rfl, rfl, rfl, rfl, rfl, rfl, rfl, rfl⟩
    · exact tableRead_tableWrite_other Member.absent s.pm.members { s.member id with state := .joining } hk
    · rw [show true = m.formatOk from hformat.symm]
      rfl
    · exact tableRead_tableWrite_same (RingEntry.free 0) s.dp.ring e _
    · exact tableRead_tableWrite_same Block.zero s.dp.labels place label

/-! ## RELEASE_MEMBER (R38) -/

theorem serveReleaseMember_ready {s : State} {tag : ReqTag} {p : List Byte} (hr : s.part = .ready) :
    serveReleaseMember tag p s =
      if (s.member (byteAt p 0)).state = .available
          ∨ ((s.member (byteAt p 0)).state = .failed ∧ (s.member (byteAt p 0)).bands = []) then
        beginRelease tag (byteAt p 0) s
      else s.refuse tag .wrongState := if_neg (by rw [hr]; nofun)

/-- A released member's entry, field by field. -/
theorem releasedEntry_eq (s : State) (id : Nat) :
    s.releasedEntry id =
      if (s.bay id).occupied = true ∧ (s.bay id).ready = true then
        ⟨.present, (s.bay id).capacity, (s.bay id).formatOk, [], none⟩
      else ⟨.absent, 0, false, [], none⟩ := by
  unfold State.releasedEntry
  by_cases h : (s.bay id).occupied = true ∧ (s.bay id).ready = true
  · rw [if_pos h]
    exact if_pos (Bool.and_eq_true_iff.2 h)
  · rw [if_neg h]
    exact if_neg (mt Bool.and_eq_true_iff.1 h)

theorem releasedEntry_state (s : State) (id : Nat) :
    (s.releasedEntry id).state = .present ∨ (s.releasedEntry id).state = .absent := by
  rw [releasedEntry_eq]
  split
  · exact Or.inl rfl
  · exact Or.inr rfl

/-- The state in which a release's record is queued. -/
def State.releasing (s : State) (tag : ReqTag) (id : Nat) : State :=
  State.offerNotice (.memberState id (s.member id).state (s.releasedEntry id).state)
    { s with
      mp := (s.markTaken tag).mp,
      pm := { s.pm with members := tableWrite Member.absent s.pm.members id (s.releasedEntry id),
                        busy := some (.releasing tag id (s.member id)) },
      dp := { s.dp with errorRuns := tableWrite 0 s.dp.errorRuns id 0 } }

theorem beginRelease_eq {s : State} {id : Nat} (tag : ReqTag)
    (h : (s.member id).state = .available ∨ (s.member id).state = .failed) :
    beginRelease tag id s = pmWork tag (.member id .unadmitted) (s.releasing tag id) := by
  have hmoves : (s.member id).state ≠ (s.releasedEntry id).state := by
    rcases h with h | h <;> rcases releasedEntry_state s id with he | he <;> rw [h, he] <;> nofun
  exact congrArg (pmWork tag (.member id .unadmitted)) (changeMember_moves
    (s := (setBusy (some (.releasing tag id (s.member id))) (s.markTaken tag)).setErrorRun id 0) hmoves)

/-- Settles O32: the refusal, and the release with its notice and its record. -/
theorem memberReleased : Obligations.MemberReleased := by
  intro s tag p hs hr id m entry released
  refine ⟨fun hno => takeRequest_answers hs ?_, fun hyes ho => ?_⟩
  · rw [serveReleaseMember_ready hr, if_neg hno, State.refuse]
  · have hstate : (s.member id).state = .available ∨ (s.member id).state = .failed := hyes.imp_right And.left
    refine (takeRequest_serves hs).trans ?_
    rw [serveReleaseMember_ready hr, if_pos hyes, beginRelease_eq tag hstate, show entry = s.releasedEntry id from
      (releasedEntry_eq s id).symm]
    obtain ⟨mp, hmp⟩ := offerNotice_eq (.memberState id (s.member id).state (s.releasedEntry id).state)
      { s with
        mp := (s.markTaken tag).mp,
        pm := { s.pm with members := tableWrite Member.absent s.pm.members id (s.releasedEntry id),
                          busy := some (.releasing tag id (s.member id)) },
        dp := { s.dp with errorRuns := tableWrite 0 s.dp.errorRuns id 0 } }
    rw [pmWork, State.releasing, hmp]
    refine next_queueWork ?_ rfl (fun u hu => ownerQueued_still ?_) hs.1 rfl rfl rfl
    · exact ho
    · exact Or.inr (Or.inr (Or.inr (Or.inr ⟨rfl, fun _ _ _ _ => by rw [hu]; nofun⟩)))

end Sys2Proof.Machine
end

section
/-! PROOFS. The Drive Port as the lanes see it: what serving, cancelling and ending commands leaves unchanged, and which commands are
left in the ring and on the wait lists (R129, R133, R134). -/

namespace Sys2Proof.Machine

/-! ## Changes of the Drive Port, the Message Port and the agenda alone -/

/-- A state that differs from another in the Drive Port, the Message Port and the exchanges alone. -/
def DriveOnly (s t : State) : Prop := ∃ d m a, t = { s with dp := d, mp := m, agenda := a }

namespace DriveOnly

theorem refl (s : State) : DriveOnly s s := ⟨s.dp, s.mp, s.agenda, rfl⟩

theorem trans {s t u : State} (h : DriveOnly s t) (h' : DriveOnly t u) : DriveOnly s u := by
  obtain ⟨_, _, _, rfl⟩ := h
  obtain ⟨d, m, a, rfl⟩ := h'
  exact ⟨d, m, a, rfl⟩

theorem onDp (f : DrivePort → DrivePort) (s : State) : DriveOnly s (s.onDp f) := ⟨f s.dp, s.mp, s.agenda, rfl⟩

theorem post (i : Internal) (s : State) : DriveOnly s (s.post i) := ⟨s.dp, s.mp, s.agenda ++ [i], rfl⟩

theorem offerFault (o : FaultOffer) (s : State) : DriveOnly s (s.offerFault o) := by
  obtain ⟨m, hm⟩ := offerFault_eq o s
  exact ⟨s.dp, m, s.agenda, hm⟩

theorem forEach {α : Type} {f : α → State → State} (hf : ∀ x s, DriveOnly s (f x s)) (l : List α) (s : State) :
    DriveOnly s (Machine.forEach f l s) := by
  induction l generalizing s with
  | nil => exact refl s
  | cons x rest ih => exact (hf x s).trans (ih (f x s))

theorem freeLabelPlace (c : Cmd) (s : State) : DriveOnly s (freeLabelPlace c s) := by
  obtain ⟨free, hfree⟩ := freeLabelPlace_eq c s
  exact ⟨_, s.mp, s.agenda, hfree⟩

theorem offerCompletionFault (c : Cmd) (status : CmdStatus) (firstFailed : Nat) (s : State) :
    DriveOnly s (offerCompletionFault c status firstFailed s) := by
  unfold Machine.offerCompletionFault
  split
  · exact refl s
  · exact offerFault _ s

theorem completeUnissued (c : Cmd) (s : State) : DriveOnly s (completeUnissued c s) :=
  ((freeLabelPlace c s).trans (post (.completed ⟨c, .noDevice, 0, false, none⟩) _)).trans
    (offerCompletionFault c .noDevice 0 _)

theorem issue (e : Nat) (c : Cmd) (s : State) : DriveOnly s (issue e c s) :=
  ⟨(Machine.issue e c s).dp, s.mp, s.agenda, rfl⟩

theorem accept (c : Cmd) (s : State) : DriveOnly s (accept c s) := by
  unfold Machine.accept
  split
  · split
    · exact completeUnissued c s
    · split
      · exact issue _ c s
      · exact onDp _ s
  · exact onDp _ s

theorem takeLabelPlace (p : Nat) (rest : List Nat) (c : Cmd) (s : State) : DriveOnly s (takeLabelPlace p rest c s) :=
  (onDp _ s).trans (accept _ _)

theorem handOver (c : Cmd) (s : State) : DriveOnly s (handOver c s) := by
  unfold Machine.handOver
  split
  · exact accept c s
  · split
    · exact takeLabelPlace _ _ c s
    · exact onDp _ s

theorem serveRing (n : Nat) (s : State) : DriveOnly s (serveRing n s) := by
  induction n generalizing s with
  | zero => exact refl s
  | succ n ih =>
    rw [Machine.serveRing]
    split
    · extract_lets u
      have hu : DriveOnly s u := onDp _ s
      refine (hu.trans ?_).trans (ih _)
      split
      · exact completeUnissued _ _
      · exact issue _ _ _
    · exact refl s

theorem serveLabels (n : Nat) (s : State) : DriveOnly s (serveLabels n s) := by
  induction n generalizing s with
  | zero => exact refl s
  | succ n ih =>
    rw [Machine.serveLabels]
    split
    · exact (onDp _ s).trans ((takeLabelPlace _ _ _ _).trans (ih _))
    · exact refl s

theorem serveCommands (s : State) : DriveOnly s (serveCommands s) := by
  unfold Machine.serveCommands
  split
  · exact (serveRing _ s).trans (serveLabels _ _)
  · exact refl s

theorem freeEntry (e : Nat) (c : Cmd) (s : State) : DriveOnly s (freeEntry e c s) := by
  obtain ⟨free, hfree⟩ := freeEntry_eq e c s
  exact ⟨_, s.mp, s.agenda, hfree⟩

theorem cancelEntry (e : Nat) (s : State) : DriveOnly s (cancelEntry e s) := by
  unfold Machine.cancelEntry
  split
  · exact refl s
  · exact (freeEntry _ _ s).trans (onDp _ _)

theorem withdraw (p : Cmd → Bool) (s : State) : DriveOnly s (withdraw p s) := by
  obtain ⟨free, hfree⟩ := withdraw_eq p s
  exact ⟨_, s.mp, s.agenda, hfree⟩

theorem cancelCommands (p : Cmd → Bool) (s : State) : DriveOnly s (cancelCommands p s) :=
  ((withdraw p s).trans (forEach cancelEntry _ _)).trans (serveCommands _)

end DriveOnly

/-! ## Commands that pass no test -/

/-- A test that looks at a command whatever its pages are. -/
def PagesBlind (p : Cmd → Bool) : Prop := ∀ c pages, p { c with pages := pages } = p c

/-- No command on a wait list passes the test. -/
def State.waitsSpare (p : Cmd → Bool) (s : State) : Prop :=
  (∀ c ∈ s.dp.waiting, p c = false) ∧ ∀ c ∈ s.dp.labelWait, p c = false

/-- No command in the ring passes the test. -/
def State.ringSpares (p : Cmd → Bool) (s : State) : Prop :=
  tableWf (RingEntry.free 0) s.dp.ring = true ∧ ∀ e c, (s.ring e).cmd = some c → p c = false

/-- What serving commands keeps of the two. -/
def Spares (p : Cmd → Bool) (s t : State) : Prop :=
  (s.waitsSpare p → t.waitsSpare p) ∧ (s.waitsSpare p → s.ringSpares p → t.ringSpares p)

theorem Spares.refl (p : Cmd → Bool) (s : State) : Spares p s s := ⟨id, fun _ => id⟩

theorem Spares.trans {p : Cmd → Bool} {s t u : State} (h : Spares p s t) (h' : Spares p t u) : Spares p s u :=
  ⟨fun hw => h'.1 (h.1 hw), fun hw hr => h'.2 (h.1 hw) (h.2 hw hr)⟩

theorem completeUnissued_dp (c : Cmd) (s : State) :
    ∃ free, (completeUnissued c s).dp = { s.dp with labelFree := free } := by
  obtain ⟨free, hfree⟩ := freeLabelPlace_eq c s
  refine ⟨free, ?_⟩
  obtain ⟨m, hm⟩ := offerFault_eq
    { kind := .driveNoDevice, member := some c.member, dbn := some c.dbn, lane := c.owner.lane?,
      slab := c.context.map Prod.fst, row := c.context.map Prod.snd, storeBlock := none }
    ((freeLabelPlace c s).post (.completed ⟨c, .noDevice, 0, false, none⟩))
  refine (congrArg State.dp hm).trans ?_
  rw [hfree]
  rfl

theorem completeUnissued_spares (p : Cmd → Bool) (c : Cmd) (s : State) : Spares p s (completeUnissued c s) := by
  obtain ⟨free, hfree⟩ := completeUnissued_dp c s
  refine ⟨fun ⟨hw, hl⟩ => ⟨?_, ?_⟩, fun _ ⟨hwf, hr⟩ => ⟨?_, ?_⟩⟩
  · rwa [hfree]
  · rwa [hfree]
  · rwa [hfree]
  · intro e c' h
    refine hr e c' ?_
    rw [← h, State.ring, State.ring, hfree]

theorem issue_spares {p : Cmd → Bool} {c : Cmd} (hc : p c = false) (e : Nat) (s : State) : Spares p s (issue e c s) := by
  refine ⟨id, fun _ ⟨hwf, hr⟩ => ⟨tableWf_tableWrite _ _ hwf, fun e' c' h => ?_⟩⟩
  by_cases he : e' = e
  · have hring : (issue e c s).ring e' = ⟨((s.ring e).generation + 1) % 256, some c,
        s.now + Config.seconds s.dp.driveTmo, 0, false⟩ := by
      rw [he]
      exact tableRead_tableWrite_same _ _ _ _
    rw [hring] at h
    cases h
    exact hc
  · exact hr e' c' ((congrArg RingEntry.cmd (tableRead_tableWrite_other _ _ _ he)).symm.trans h)

theorem dropWaiting_spares {p : Cmd → Bool} {c : Cmd} {rest : List Cmd} {s : State} (h : s.dp.waiting = c :: rest) :
    Spares p s (s.onDp (fun d => { d with waiting := rest })) :=
  ⟨fun ⟨hw, hl⟩ => ⟨fun x hx => hw x (by rw [h]; exact List.mem_cons_of_mem c hx), hl⟩, fun _ => id⟩

theorem dropLabelWait_spares {p : Cmd → Bool} {c : Cmd} {rest : List Cmd} {s : State} (h : s.dp.labelWait = c :: rest) :
    Spares p s (s.onDp (fun d => { d with labelWait := rest })) :=
  ⟨fun ⟨hw, hl⟩ => ⟨hw, fun x hx => hl x (by rw [h]; exact List.mem_cons_of_mem c hx)⟩, fun _ => id⟩

theorem serveRing_spares (p : Cmd → Bool) (n : Nat) (s : State) : Spares p s (serveRing n s) := by
  induction n generalizing s with
  | zero => exact Spares.refl p s
  | succ n ih =>
    rw [serveRing]
    split
    · next e _ c rest _ hwait =>
      extract_lets u
      have hu : Spares p s u := dropWaiting_spares hwait
      by_cases hc : p c = false
      · refine (hu.trans ?_).trans (ih _)
        split
        · exact completeUnissued_spares p c u
        · exact issue_spares hc e u
      · have habsurd : ¬s.waitsSpare p := fun h => hc (h.1 c (by rw [hwait]; exact List.mem_cons_self))
        exact ⟨fun h => absurd h habsurd, fun h => absurd h habsurd⟩
    · exact Spares.refl p s

theorem accept_spares {p : Cmd → Bool} {c : Cmd} (hc : p c = false) (s : State) : Spares p s (accept c s) := by
  have hwait : Spares p s (s.onDp (fun d => { d with waiting := d.waiting ++ [c] })) :=
    ⟨fun ⟨hw, hl⟩ => ⟨fun x hx => (List.mem_append.1 hx).elim (hw x) fun h => List.mem_singleton.1 h ▸ hc, hl⟩, fun _ => id⟩
  unfold accept
  split
  · split
    · exact completeUnissued_spares p c s
    · split
      · exact issue_spares hc _ s
      · exact hwait
  · exact hwait

theorem takeLabelPlace_spares {p : Cmd → Bool} {c : Cmd} (hp : PagesBlind p) (hc : p c = false) (place : Nat)
    (rest : List Nat) (s : State) : Spares p s (takeLabelPlace place rest c s) := by
  have hlay : Spares p s (s.onDp (fun d =>
      { d with labelFree := rest,
               labels := tableWrite Block.zero d.labels place (c.labelBlock.getD Block.zero) })) := ⟨id, fun _ => id⟩
  exact hlay.trans (accept_spares ((hp c _).trans hc) _)

theorem serveLabels_spares {p : Cmd → Bool} (hp : PagesBlind p) (n : Nat) (s : State) : Spares p s (serveLabels n s) := by
  induction n generalizing s with
  | zero => exact Spares.refl p s
  | succ n ih =>
    rw [serveLabels]
    split
    · next place rest c more _ hwait =>
      by_cases hc : p c = false
      · exact ((dropLabelWait_spares hwait).trans (takeLabelPlace_spares hp hc place rest _)).trans (ih _)
      · have habsurd : ¬s.waitsSpare p := fun h => hc (h.2 c (by rw [hwait]; exact List.mem_cons_self))
        exact ⟨fun h => absurd h habsurd, fun h => absurd h habsurd⟩
    · exact Spares.refl p s

/-- Commands that are served were waiting, so none appears that waited for nothing. -/
theorem serveCommands_spares {p : Cmd → Bool} (hp : PagesBlind p) (s : State) : Spares p s (serveCommands s) := by
  unfold serveCommands
  split
  · exact (serveRing_spares p _ s).trans (serveLabels_spares hp _ _)
  · exact Spares.refl p s

/-! ## After the commands of an owner were cancelled (R133) -/

theorem cancelEntry_waits (e : Nat) (s : State) :
    (cancelEntry e s).dp.waiting = s.dp.waiting ∧ (cancelEntry e s).dp.labelWait = s.dp.labelWait := by
  unfold cancelEntry
  split
  · exact ⟨rfl, rfl⟩
  · next c _ =>
    obtain ⟨free, hfree⟩ := freeEntry_eq e c s
    rw [hfree]
    exact ⟨rfl, rfl⟩

theorem cancelEntry_mp (e : Nat) (s : State) : (cancelEntry e s).mp = s.mp := by
  unfold cancelEntry
  split
  · rfl
  · next c _ =>
    obtain ⟨free, hfree⟩ := freeEntry_eq e c s
    rw [hfree]
    rfl

theorem forEach_cancelEntry_waits (es : List Nat) (s : State) :
    (forEach cancelEntry es s).dp.waiting = s.dp.waiting ∧ (forEach cancelEntry es s).dp.labelWait = s.dp.labelWait
      ∧ (forEach cancelEntry es s).mp = s.mp := by
  induction es generalizing s with
  | nil => exact ⟨rfl, rfl, rfl⟩
  | cons e rest ih =>
    obtain ⟨hw, hl, hm⟩ := ih (cancelEntry e s)
    exact ⟨hw.trans (cancelEntry_waits e s).1, hl.trans (cancelEntry_waits e s).2, hm.trans (cancelEntry_mp e s)⟩

/-- With no command waiting, a cancel tells the host nothing. -/
theorem cancelCommands_mp {p : Cmd → Bool} {s : State} (hwait : s.dp.waiting = []) (hlabel : s.dp.labelWait = []) :
    (cancelCommands p s).mp = s.mp := by
  obtain ⟨hw, hl, hm⟩ := forEach_cancelEntry_waits (s.entriesWhere p) s
  rw [cancelCommands, withdraw_none hwait hlabel]
  rw [serveCommands_none (hw.trans hwait) (hl.trans hlabel), hm]

/-- None of the cancelled commands is left on a wait list. -/
theorem cancelCommands_waitsSpare {p : Cmd → Bool} (hp : PagesBlind p) (s : State) : (cancelCommands p s).waitsSpare p := by
  obtain ⟨free, hfree⟩ := withdraw_eq p s
  have hspare : (withdraw p s).waitsSpare p := by
    rw [hfree]
    exact ⟨fun c hc => by simpa using (List.mem_filter.1 hc).2, fun c hc => by simpa using (List.mem_filter.1 hc).2⟩
  obtain ⟨hw, hl, -⟩ := forEach_cancelEntry_waits ((withdraw p s).entriesWhere p) (withdraw p s)
  refine (serveCommands_spares hp _).1 ⟨fun c hc => hspare.1 c ?_, fun c hc => hspare.2 c ?_⟩
  · rwa [← hw]
  · rwa [← hl]

/-- None of the cancelled commands is left in the ring. -/
theorem cancelCommands_ringSpares {p : Cmd → Bool} (hp : PagesBlind p) {s : State}
    (hwf : tableWf (RingEntry.free 0) s.dp.ring = true) : (cancelCommands p s).ringSpares p := by
  obtain ⟨free, hfree⟩ := withdraw_eq p s
  have hspare : (withdraw p s).waitsSpare p := by
    rw [hfree]
    exact ⟨fun c hc => by simpa using (List.mem_filter.1 hc).2, fun c hc => by simpa using (List.mem_filter.1 hc).2⟩
  have hwf' : tableWf (RingEntry.free 0) (withdraw p s).dp.ring = true := by rwa [hfree]
  obtain ⟨d, hd, hcancelled⟩ := forEach_cancelEntry_cancelled hwf' (entriesWhere_nodup p hwf') fun e he => by
    obtain ⟨c, hc, -⟩ := mem_entriesWhere hwf' he
    rw [hc]
    rfl
  rw [cancelCommands, hd]
  refine (serveCommands_spares hp _).2 ⟨fun c hc => hspare.1 c ?_, fun c hc => hspare.2 c ?_⟩
    ⟨hcancelled.ringWf, fun e c hc => ?_⟩
  · rwa [← hcancelled.waiting]
  · rwa [← hcancelled.labelWait]
  · by_cases he : e ∈ (withdraw p s).entriesWhere p
    · exact absurd ((hcancelled.freed e he).symm.trans hc) nofun
    · refine Classical.byContradiction fun hp' => ?_
      refine he ((mem_entriesWhere_iff hwf').2 ⟨c, ?_, by simpa using hp'⟩)
      rw [← hc]
      exact congrArg RingEntry.cmd (hcancelled.kept e he).symm

theorem entriesWhere_nil_of_spares {p : Cmd → Bool} {s : State} (h : s.ringSpares p) : s.entriesWhere p = [] := by
  refine List.eq_nil_iff_forall_not_mem.2 fun e he => ?_
  obtain ⟨c, hc, hp⟩ := mem_entriesWhere h.1 he
  rw [h.2 e c hc] at hp
  cases hp

theorem ofLane_pagesBlind (n : Nat) : PagesBlind (ofLane n) := fun _ _ => rfl

end Sys2Proof.Machine
end

section
/-! PROOFS. A lane that gives up its row: its commands, its pages, its token and its place for the recovery set (R85, R88, R93, R109 to
R111). -/

namespace Sys2Proof.Machine

/-! ## The page wait list (R109) -/

theorem servePages_none {s : State} (h : s.sp.waiting = []) (k : Nat) : servePages k s = s := by
  cases k with
  | zero => rfl
  | succ k => simp only [servePages, h]

/-- What serving the page wait list changes: free pages, the list, the lanes that stand on it, and an exchange for each. -/
structure PagesServed (s t : State) : Prop where
  form : ∃ free waiting lanes a, t = { s with
    sp := { s.sp with free := free, waiting := waiting }, me := { s.me with lanes := lanes }, agenda := s.agenda ++ a }
      ∧ ∀ i ∈ a, ∃ n, i = .pagesGranted n
  waits : ∀ e ∈ t.sp.waiting, e ∈ s.sp.waiting
  lane : ∀ n, (∀ e ∈ s.sp.waiting, e.1 ≠ n) → t.lane n = s.lane n

theorem PagesServed.refl (s : State) : PagesServed s s :=
  ⟨⟨s.sp.free, s.sp.waiting, s.me.lanes, [], by rw [List.append_nil], fun _ h => absurd h List.not_mem_nil⟩, fun _ => id, fun _ _ => rfl⟩

theorem PagesServed.trans {s t u : State} (h : PagesServed s t) (h' : PagesServed t u) : PagesServed s u := by
  obtain ⟨⟨free, waiting, lanes, a, ht, ha⟩, hw, hl⟩ := h
  obtain ⟨⟨free', waiting', lanes', a', hu, ha'⟩, hw', hl'⟩ := h'
  refine ⟨⟨free', waiting', lanes', a ++ a', ?_, fun i hi => (List.mem_append.1 hi).elim (ha i) (ha' i)⟩,
    fun e he => hw e (hw' e he), fun n hn => (hl' n fun e he => hn e (hw e he)).trans (hl n hn)⟩
  rw [hu, ht, List.append_assoc]

theorem reservePages_served {n count : Nat} {rest : List (Nat × Nat)} {s : State} (h : s.sp.waiting = (n, count) :: rest) :
    PagesServed s (reservePages n count (s.onSp (fun p => { p with waiting := rest }))) := by
  have hrest : ∀ e ∈ rest, e ∈ s.sp.waiting := fun e he => by
    rw [h]
    exact List.mem_cons_of_mem _ he
  unfold reservePages
  split
  · refine ⟨⟨s.sp.free.drop count, rest, _, [.pagesGranted n], rfl, fun i hi => ⟨n, List.mem_singleton.1 hi⟩⟩, hrest,
      fun m hm => ?_⟩
    have hne : m ≠ n := fun he => hm (n, count) (by rw [h]; exact List.mem_cons_self) he.symm
    exact lane_setLane_other _ _ hne
  · exact ⟨⟨s.sp.free, rest, s.me.lanes, [], by rw [List.append_nil]; rfl, fun _ h => absurd h List.not_mem_nil⟩, hrest, fun _ _ => rfl⟩

theorem servePages_served (k : Nat) (s : State) : PagesServed s (servePages k s) := by
  induction k generalizing s with
  | zero => exact PagesServed.refl s
  | succ k ih =>
    rw [servePages]
    split
    · exact PagesServed.refl s
    · next n count rest hw =>
      split
      · exact (reservePages_served hw).trans (ih _)
      · exact PagesServed.refl s

/-! ## Pages given back (R110) -/

/-- A lane's record that is not on the page wait list is replaced, and the pages of the old one are free. -/
theorem releaseAs_lane {n : Nat} {l : Lane} {s : State} (h : ∀ e ∈ s.sp.waiting, e.1 ≠ n) : (releaseAs n l s).lane n = l :=
  ((servePages_served Config.laneCount ((s.onSp (fun p =>
    { p with free := (s.lane n).pages.foldr insertRising p.free })).setLane n l)).lane n h).trans (lane_setLane_same n l _)

theorem releaseAs_waits {n : Nat} {l : Lane} {s : State} :
    ∀ e ∈ (releaseAs n l s).sp.waiting, e ∈ s.sp.waiting := (servePages_served _ _).waits

theorem releaseAs_form (n : Nat) (l : Lane) (s : State) :
    ∃ free waiting lanes a, releaseAs n l s = { s with
      sp := { s.sp with free := free, waiting := waiting }, me := { s.me with lanes := lanes }, agenda := s.agenda ++ a }
        ∧ ∀ i ∈ a, ∃ n, i = .pagesGranted n :=
  (servePages_served Config.laneCount ((s.onSp (fun p =>
    { p with free := (s.lane n).pages.foldr insertRising p.free })).setLane n l)).form

theorem releaseAs_alone {n : Nat} {l : Lane} {s : State} (h : s.sp.waiting = []) :
    releaseAs n l s = (s.onSp (fun p => { p with free := (s.lane n).pages.foldr insertRising p.free })).setLane n l :=
  servePages_none (s := (s.onSp (fun p => { p with free := (s.lane n).pages.foldr insertRising p.free })).setLane n l) h _

/-- A lane off the page wait list. -/
theorem leavePageList_served (n : Nat) (s : State) :
    PagesServed (s.onSp (fun p => { p with waiting := p.waiting.filter (fun e => e.1 ≠ n) })) (leavePageList n s) :=
  servePages_served _ _

theorem leavePageList_waits (n : Nat) (s : State) : ∀ e ∈ (leavePageList n s).sp.waiting, e.1 ≠ n := fun e he =>
  of_decide_eq_true (List.mem_filter.1 ((leavePageList_served n s).waits e he)).2

theorem leavePageList_lane (n : Nat) (s : State) : (leavePageList n s).lane n = s.lane n :=
  (leavePageList_served n s).lane n fun _ he => of_decide_eq_true (List.mem_filter.1 he).2

/-! ## The row given up -/

/-- Pages, the recovery set and the token given up, in the order of `abandonRow`. -/
def rowLeft (n : Nat) (s : State) : State :=
  leaveTokens n (leaveRecovery n (releaseRecovery n (releasePages n (leavePageList n s))))

/-- The exchanges that a given-up row may post. -/
def Internal.grants : Internal → Prop
  | .pagesGranted _ => True
  | .recoveryGranted _ => True
  | _ => False

/-- Who holds the recovery set after a lane has left it, and who still waits for it (R111). -/
def StagingPool.recoveryLeft (p q : StagingPool) (n : Nat) : Prop :=
  (p.holder ≠ some n → q.holder = p.holder ∧ q.recoveryWait = p.recoveryWait.filter (fun k => k ≠ n))
    ∧ (p.holder = some n → p.recoveryWait = [] → q.holder = none ∧ q.recoveryWait = [])
    ∧ ∀ m rest, p.holder = some n → p.recoveryWait = m :: rest →
        q.holder = some m ∧ q.recoveryWait = rest.filter (fun k => k ≠ n)

/-- The recovery set given up: its holder and its wait list, and an exchange where it passes on. -/
theorem releaseRecovery_form (n : Nat) (s : State) :
    ∃ holder wait a, releaseRecovery n s = { s with
      sp := { s.sp with holder := holder, recoveryWait := wait }, agenda := s.agenda ++ a }
      ∧ (∀ i ∈ a, ∃ m, i = .recoveryGranted m)
      ∧ (s.sp.holder ≠ some n → holder = s.sp.holder ∧ wait = s.sp.recoveryWait)
      ∧ (s.sp.holder = some n → s.sp.recoveryWait = [] → holder = none ∧ wait = [])
      ∧ ∀ m rest, s.sp.holder = some n → s.sp.recoveryWait = m :: rest →
          holder = some m ∧ wait = rest ∧ .recoveryGranted m ∈ a := by
  unfold releaseRecovery
  by_cases hn : s.sp.holder = some n
  · rw [if_pos hn]
    cases hwait : s.sp.recoveryWait with
    | nil =>
      exact ⟨none, s.sp.recoveryWait, [], by rw [List.append_nil]; rfl, fun _ h => absurd h List.not_mem_nil,
        fun h => absurd hn h, fun _ _ => ⟨rfl, hwait⟩, fun m rest _ h => by cases h⟩
    | cons m rest =>
      refine ⟨some m, rest, [.recoveryGranted m], rfl, fun i hi => ⟨m, List.mem_singleton.1 hi⟩, fun h => absurd hn h,
        fun _ h => (by cases h), fun m' rest' _ h => ?_⟩
      cases h
      exact ⟨rfl, rfl, List.mem_singleton.2 rfl⟩
  · rw [if_neg hn]
    exact ⟨s.sp.holder, s.sp.recoveryWait, [], by rw [List.append_nil], fun _ h => absurd h List.not_mem_nil, fun _ => ⟨rfl, rfl⟩, fun h => absurd h hn,
      fun m rest h => absurd h hn⟩

/-- What a row given up leaves. -/
structure RowLeft (n : Nat) (s t : State) : Prop where
  form : ∃ p lanes order a, t = { s with
    sp := p, me := { s.me with lanes := lanes, tokenOrder := order }, agenda := s.agenda ++ a } ∧ ∀ i ∈ a, i.grants
  lane : t.lane n = { s.lane n with pages := [] }
  tokens : n ∉ t.me.tokenOrder
  waits : ∀ e ∈ t.sp.waiting, e.1 ≠ n
  recovery : s.sp.recoveryLeft t.sp n
  passed : ∀ m rest, s.sp.holder = some n → s.sp.recoveryWait = m :: rest → .recoveryGranted m ∈ t.agenda
  noRecovery : n ∉ t.sp.recoveryWait
  free : s.sp.waiting = [] → t.sp.free = (s.lane n).pages.foldr insertRising s.sp.free

theorem rowLeft_left (n : Nat) (s : State) : RowLeft n s (rowLeft n s) := by
  obtain ⟨⟨free, waiting, lanes, a, hlist, ha⟩, hlistWaits, hlistLane⟩ := leavePageList_served n s
  have hlane : (leavePageList n s).lane n = s.lane n := leavePageList_lane n s
  have hwaits := leavePageList_waits n s
  obtain ⟨free', waiting', lanes', a', hpages, ha'⟩ :=
    releaseAs_form n { (leavePageList n s).lane n with pages := [] } (leavePageList n s)
  have hpages' : releasePages n (leavePageList n s) = _ := hpages
  have hpagesLane : (releasePages n (leavePageList n s)).lane n = { s.lane n with pages := [] } := by
    rw [← hlane]
    exact releaseAs_lane hwaits
  have hpagesWaits : ∀ e ∈ (releasePages n (leavePageList n s)).sp.waiting, e.1 ≠ n := fun e he =>
    hwaits e (releaseAs_waits e he)
  obtain ⟨holder, wait, b, hrecovery, hb, hkeeps, hends, hpasses⟩ := releaseRecovery_form n (releasePages n (leavePageList n s))
  have hholder : (releasePages n (leavePageList n s)).sp.holder = s.sp.holder := by
    rw [hpages', hlist]
    rfl
  have hwait : (releasePages n (leavePageList n s)).sp.recoveryWait = s.sp.recoveryWait := by
    rw [hpages', hlist]
    rfl
  rw [hholder, hwait] at hkeeps hends hpasses
  refine ⟨?_, ?_, ?_, ?_, ⟨fun h => ?_, fun h h' => ?_, fun m rest h h' => ?_⟩, fun m rest h h' => ?_, ?_, fun h => ?_⟩
  · refine ⟨(rowLeft n s).sp, lanes', s.me.tokenOrder.filter (fun k => k ≠ n), a ++ a' ++ b, ?_, fun i hi => ?_⟩
    · rw [rowLeft, hrecovery, hpages', hlist]
      simp only [leaveTokens, leaveRecovery, State.onMe, State.onSp, List.append_assoc]
    · rcases List.mem_append.1 hi with hi | hi
      · rcases List.mem_append.1 hi with hi | hi
        · obtain ⟨m, rfl⟩ := ha i hi
          exact trivial
        · obtain ⟨m, rfl⟩ := ha' i hi
          exact trivial
      · obtain ⟨m, rfl⟩ := hb i hi
        exact trivial
  · rw [← hpagesLane, rowLeft, hrecovery]
    rfl
  · exact fun hm => of_decide_eq_true (List.mem_filter.1 hm).2 rfl
  · rw [rowLeft, hrecovery]
    exact hpagesWaits
  · obtain ⟨rfl, rfl⟩ := hkeeps h
    rw [rowLeft, hrecovery]
    exact ⟨rfl, rfl⟩
  · obtain ⟨rfl, rfl⟩ := hends h h'
    rw [rowLeft, hrecovery]
    exact ⟨rfl, rfl⟩
  · obtain ⟨rfl, rfl, -⟩ := hpasses m rest h h'
    rw [rowLeft, hrecovery]
    exact ⟨rfl, rfl⟩
  · obtain ⟨-, -, hmem⟩ := hpasses m rest h h'
    rw [rowLeft, hrecovery]
    exact List.mem_append_right _ hmem
  · exact fun hm => of_decide_eq_true (List.mem_filter.1 hm).2 rfl
  · have hnone : leavePageList n s = s.onSp (fun p => { p with waiting := p.waiting.filter (fun e => e.1 ≠ n) }) :=
      servePages_none (by rw [onSp_sp, h]; rfl) _
    rw [rowLeft, hrecovery, releasePages, releaseAs_alone (by rw [hnone, onSp_sp, h]; rfl), hlane, hnone]
    rfl

/-! ## `abandonRow` (R85, R88) -/

/-- The lane whose row is given up, before its pages are. -/
def Lane.rowCleared (l : Lane) : Lane :=
  { l with commands := 0, watch := none, lockout := false, backoffEnd := none, work := RowWork.none }

theorem abandonRow_eq (n : Nat) (s : State) :
    abandonRow n s = rowLeft n ((cancelCommands (ofLane n) s).onLane n Lane.rowCleared) := rfl

/-- What a lane that gives up its row leaves of the whole part. -/
structure RowAbandoned (n : Nat) (s t : State) : Prop where
  form : ∃ d m p lanes order a, t = { s with
    dp := d, mp := m, sp := p, me := { s.me with lanes := lanes, tokenOrder := order }, agenda := a }
  lane : t.lane n = { (s.lane n).rowCleared with pages := [] }
  ring : tableWf (RingEntry.free 0) s.dp.ring = true → t.entriesWhere (ofLane n) = []
  waiting : ∀ c ∈ t.dp.waiting, c.owner ≠ .lane n
  tokens : n ∉ t.me.tokenOrder
  noRecovery : n ∉ t.sp.recoveryWait
  recovery : s.sp.recoveryLeft t.sp n
  passed : ∀ m rest, s.sp.holder = some n → s.sp.recoveryWait = m :: rest → .recoveryGranted m ∈ t.agenda
  waits : ∀ e ∈ t.sp.waiting, e.1 ≠ n
  free : s.sp.waiting = [] → t.sp.free = (s.lane n).pages.foldr insertRising s.sp.free
  told : s.dp.waiting = [] → s.dp.labelWait = [] → t.mp = s.mp

theorem abandonRow_abandoned (n : Nat) (s : State) : RowAbandoned n s (abandonRow n s) := by
  obtain ⟨d, m, a, hcancel⟩ := DriveOnly.cancelCommands (ofLane n) s
  have hspare := cancelCommands_waitsSpare (ofLane_pagesBlind n) s
  have hleft := rowLeft_left n ((cancelCommands (ofLane n) s).onLane n Lane.rowCleared)
  obtain ⟨p, lanes, order, b, hform, -⟩ := hleft.form
  have hlane : ((cancelCommands (ofLane n) s).onLane n Lane.rowCleared).lane n = (s.lane n).rowCleared := by
    rw [lane_onLane_same, hcancel]
    rfl
  have hsp : ((cancelCommands (ofLane n) s).onLane n Lane.rowCleared).sp = s.sp := by
    rw [hcancel]
    rfl
  have hdp : (abandonRow n s).dp = (cancelCommands (ofLane n) s).dp := by
    rw [abandonRow_eq, hform]
    rfl
  rw [abandonRow_eq] at hdp ⊢
  refine ⟨?_, hleft.lane.trans (by rw [hlane]), fun hwf => ?_, fun c hc => ?_, hleft.tokens, hleft.noRecovery, ?_, ?_,
    hleft.waits, fun h => ?_, fun hw hl => ?_⟩
  · rw [hform, hcancel]
    exact ⟨_, _, _, _, _, _, rfl⟩
  · rw [State.entriesWhere, hdp]
    exact entriesWhere_nil_of_spares (cancelCommands_ringSpares (ofLane_pagesBlind n) hwf)
  · rw [hdp] at hc
    exact of_decide_eq_false (hspare.1 c hc)
  · rw [← hsp]
    exact hleft.recovery
  · rw [← hsp]
    exact hleft.passed
  · rw [hleft.free (by rw [hsp, h]), hlane, hsp]
    rfl
  · rw [hform]
    exact cancelCommands_mp hw hl

end Sys2Proof.Machine
end

section
/-! PROOFS. The failure of a member (R36, R37): the sets that count it, the notices, the commands that end, and what each lane does at
a set's change of state (R87, R88, R117). -/

namespace Sys2Proof.Machine

/-! ## The sets that count a failure (R7, R36) -/

/-- The state that a set enters as one more of its positions is FAILED. -/
def State.enteredState (s : State) (k : Nat) : SetState := if (s.set k).failedCount = 0 then .degraded else .failed

theorem setStateOf_succ (f : Nat) : setStateOf (f + 1) = if f = 0 then .degraded else .failed := by
  cases f <;> rfl

theorem countFailed_eq (k : Nat) (s : State) :
    countFailed k s = s.setSet k
      { s.set k with failedCount := (s.set k).failedCount + 1, state := s.enteredState k } := by
  rw [countFailed, setStateOf_succ]
  rfl

/-- One more FAILED position for the set of each band. -/
def countBands (bands : List Band) (s : State) : State := forEach (fun (b : Band) s => countFailed b.set s) bands s

theorem countBands_form (bands : List Band) (s : State) :
    ∃ sets, countBands bands s = { s with pm := { s.pm with sets := sets } } := by
  induction bands generalizing s with
  | nil => exact ⟨s.pm.sets, rfl⟩
  | cons b rest ih =>
    obtain ⟨sets, h⟩ := ih (countFailed b.set s)
    exact ⟨sets, h⟩

theorem countBands_set_other {bands : List Band} {s : State} {k : Nat} (h : ∀ b ∈ bands, b.set ≠ k) :
    (countBands bands s).set k = s.set k := by
  induction bands generalizing s with
  | nil => rfl
  | cons b rest ih =>
    refine (ih (s := countFailed b.set s) fun c hc => h c (List.mem_cons_of_mem b hc)).trans ?_
    exact tableRead_tableWrite_other _ _ _ (Ne.symm (h b List.mem_cons_self))

theorem countBands_set_named {bands : List Band} {s : State} (hn : (bands.map Band.set).Nodup) {b : Band} (hb : b ∈ bands) :
    (countBands bands s).set b.set
      = { s.set b.set with failedCount := (s.set b.set).failedCount + 1, state := s.enteredState b.set } := by
  induction bands generalizing s with
  | nil => cases hb
  | cons c rest ih =>
    rw [List.map_cons, List.nodup_cons] at hn
    obtain ⟨hfresh, hrest⟩ := hn
    rcases List.mem_cons.1 hb with rfl | hb
    · refine (countBands_set_other (s := countFailed b.set s) fun d hd he =>
        hfresh (List.mem_map.2 ⟨d, hd, he⟩)).trans ?_
      rw [countFailed_eq]
      exact tableRead_tableWrite_same SetEntry.unused s.pm.sets b.set _
    · have hne : b.set ≠ c.set := fun he => hfresh (he ▸ List.mem_map_of_mem hb)
      have hset : (countFailed c.set s).set b.set = s.set b.set := tableRead_tableWrite_other _ _ _ hne
      refine (ih (s := countFailed c.set s) hrest hb).trans ?_
      rw [State.enteredState, hset]
      rfl

/-! ## The notices of a failure (R36) -/

/-- Notices offered one after another. -/
def offerAll (l : List Notice) (s : State) : State := l.foldl (fun t x => t.offerNotice x) s

theorem offerAll_of_mp {s t : State} (h : t.mp = s.mp) (l : List Notice) :
    offerAll l t = { t with mp := (offerAll l s).mp } := by
  induction l generalizing s t with
  | nil => rw [offerAll, offerAll, List.foldl_nil, List.foldl_nil, ← h]
  | cons x rest ih =>
    have hx := offerNotice_of_mp x h
    refine (ih (s := s.offerNotice x) (t := t.offerNotice x) (by rw [hx])).trans ?_
    rw [hx]
    rfl

theorem offerNotice_set (n : Notice) (s : State) (k : Nat) : (s.offerNotice n).set k = s.set k := by
  obtain ⟨m, hm⟩ := offerNotice_eq n s
  rw [hm]
  rfl

theorem forEach_offerSetState (old : State) (l : List Nat) (s : State) :
    forEach (offerSetState old) l s
      = offerAll (l.map (fun k => .setState k (old.set k).state (s.set k).state (s.set k).failedCount)) s := by
  induction l generalizing s with
  | nil => rfl
  | cons k rest ih =>
    refine (ih (offerSetState old k s)).trans ?_
    simp only [offerSetState, offerNotice_set]
    rfl

theorem forEach_postSetChange (l : List Nat) (s : State) :
    forEach postSetChange l s
      = { s with agenda := s.agenda ++ l.map (fun k => .setChanged k (s.set k).state) } := by
  induction l generalizing s with
  | nil => rw [List.map_nil, List.append_nil]; rfl
  | cons k rest ih =>
    refine (ih (postSetChange k s)).trans ?_
    simp [postSetChange, State.post, State.set]

/-! ## The failure itself (R36) -/

/-- The sets whose state a failure changes, in the order of the band list. -/
def State.failChanged (u : State) (id : Nat) : List Nat :=
  ((u.member id).bands.map Band.set).filter (fun k => (u.set k).state ≠ u.enteredState k)

/-- The notices of a failure, in order. -/
def State.failNotices (u : State) (id : Nat) : List Notice :=
  .memberState id (u.member id).state .failed
    :: (u.failChanged id).map (fun k => .setState k (u.set k).state (u.enteredState k) ((u.set k).failedCount + 1))

/-- The state in which a failed member's commands end. -/
def State.memberDown (u : State) (id : Nat) : State :=
  { u with
    pm := { u.pm with
      members := tableWrite Member.absent u.pm.members id { u.member id with state := .failed },
      sets := (countBands (u.member id).bands u).pm.sets },
    mp := (offerAll (u.failNotices id) u).mp,
    agenda := u.agenda ++ (u.failChanged id).map (fun k => .setChanged k (u.enteredState k)) }

theorem changedSets_eq (u : State) (id : Nat) : u.changedSets (u.member id).bands = u.failChanged id := by
  unfold State.changedSets State.failChanged
  simp only [setStateOf_succ]
  rfl

theorem countFailed_setMember (id : Nat) (m : Member) (bands : List Band) (u : State) :
    countBands bands (u.setMember id m) = (countBands bands u).setMember id m := by
  induction bands generalizing u with
  | nil => rfl
  | cons b rest ih => exact ih (countFailed b.set u)

theorem failMember_eq {u : State} {id : Nat} (reply : Option ReqTag) (hn : ((u.member id).bands.map Band.set).Nodup) :
    failMember id reply u
      = recordFailure id reply (endCommands (fun c => decide (c.member = id)) (u.memberDown id)) := by
  let counted := (countBands (u.member id).bands u).setMember id { u.member id with state := .failed }
  obtain ⟨sets, hsets⟩ := countBands_form (u.member id).bands u
  have hset : ∀ k ∈ u.failChanged id,
      counted.set k = { u.set k with failedCount := (u.set k).failedCount + 1, state := u.enteredState k } := fun k hk => by
    obtain ⟨b, hb, rfl⟩ := List.mem_map.1 (List.mem_filter.1 hk).1
    exact countBands_set_named hn hb
  have hposts : (u.failChanged id).map (fun k => Internal.setChanged k (counted.set k).state)
      = (u.failChanged id).map (fun k => .setChanged k (u.enteredState k)) :=
    List.map_congr_left fun k hk => by rw [hset k hk]
  have hnotices : (u.failChanged id).map
        (fun k => Notice.setState k (u.set k).state (counted.set k).state (counted.set k).failedCount)
      = (u.failChanged id).map (fun k => .setState k (u.set k).state (u.enteredState k) ((u.set k).failedCount + 1)) :=
    List.map_congr_left fun k hk => by rw [hset k hk]
  have hdown : forEach (offerSetState u) (u.changedSets (u.member id).bands)
      (State.offerNotice (.memberState id (u.member id).state .failed)
        (forEach postSetChange (u.changedSets (u.member id).bands)
          (countBands (u.member id).bands (u.setMember id { u.member id with state := .failed }))))
        = u.memberDown id := by
    rw [countFailed_setMember, changedSets_eq, forEach_postSetChange, forEach_offerSetState]
    simp only [offerNotice_set]
    change offerAll (.memberState id (u.member id).state .failed
      :: (u.failChanged id).map (fun k => .setState k (u.set k).state (counted.set k).state (counted.set k).failedCount))
      { counted with agenda := counted.agenda ++ (u.failChanged id).map (fun k => .setChanged k (counted.set k).state) } = _
    rw [hposts, hnotices]
    refine (offerAll_of_mp (s := u) ?_ _).trans ?_
    · simp only [counted, hsets]
      rfl
    · simp only [counted, State.memberDown, hsets]
      rfl
  rw [← hdown]
  rfl

/-! ## The record of a failure, and the commands that it ends (R36, R134) -/

theorem recordFailure_starting {id : Nat} {reply : Option ReqTag} {s : State} (h : s.part = .starting) :
    recordFailure id reply s = { s with pm := { s.pm with held := s.pm.held ++ [id] } } := if_pos h

theorem recordFailure_later {id : Nat} {reply : Option ReqTag} {s : State} (h : s.part ≠ .starting) :
    recordFailure id reply s = queueWork .pm ⟨.member id .failed, reply⟩ s := if_neg h

theorem forEach_eq_foldl {α : Type} (f : α → State → State) (l : List α) (s : State) :
    forEach f l s = l.foldl (fun t x => f x t) s := by
  induction l generalizing s with
  | nil => rfl
  | cons x rest ih => exact ih (f x s)

/-- The fault of a command that ended for want of its drive (R136). -/
def goneFault (c : Cmd) : FaultOffer :=
  { kind := .driveNoDevice, member := some c.member, dbn := some c.dbn, lane := c.owner.lane?,
    slab := c.context.map Prod.fst, row := c.context.map Prod.snd, storeBlock := none }

theorem labelRead_of_labels {s t : State} (c : Cmd) (hl : t.dp.labels = s.dp.labels) (hm : t.sp.memory = s.sp.memory) :
    t.labelRead c = s.labelRead c := by
  have hpage : t.pageOf c 0 = s.pageOf c 0 := by
    simp only [State.pageOf, State.labelPlaceBlock, State.staged, hl, hm]
  unfold State.labelRead
  rw [hpage]

/-- An entry ended: the cancel goes out, the entry and its pages are free, its owner is told, the fault is offered. -/
theorem endEntry_eq {e : Nat} {c : Cmd} {s : State} (h : (s.ring e).cmd = some c) :
    endEntry e s = State.offerFault (goneFault c)
      ((freeEntry e c (s.send (.cancel e (s.ring e).generation))).post
        (.completed ⟨c, .noDevice, 0, (s.ring e).mismatch, s.labelRead c⟩)) := by
  have hring : (s.send (.cancel e (s.ring e).generation)).ring e = s.ring e := rfl
  unfold endEntry completeEntry
  rw [hring, h]
  rfl

theorem freeLabelPlace_free (c : Cmd) (s : State) :
    freeLabelPlace c s = { s with dp := { s.dp with labelFree := match c.pages with
      | .label (some p) => s.dp.labelFree ++ [p]
      | _ => s.dp.labelFree } } := by
  unfold freeLabelPlace
  cases c.pages with
  | staging positions => rfl
  | label place => cases place <;> rfl

/-- A lane's command for a FAILED member completes at once, without an entry. -/
theorem handOver_failed {n : Nat} {positions : List Nat} {c : Cmd} {s : State} (ho : c.owner = .lane n)
    (hp : c.pages = .staging positions) (hflush : s.dp.flush = .answered) (hfailed : (s.member c.member).state = .failed) :
    handOver c s = State.offerFault (goneFault c)
      { s with agenda := s.agenda ++ [.completed ⟨c, .noDevice, 0, false, none⟩] } := by
  have hunreach : s.unreachable c.member = true := by rw [State.unreachable, hfailed]; rfl
  have haccept : handOver c s = accept c s := by simp only [handOver, ho]
  have hfree : freeLabelPlace c s = s := by simp only [freeLabelPlace, hp]
  rw [haccept, accept, if_pos hflush, if_pos hunreach, completeUnissued, hfree]
  rfl

/-! ## FAIL_MEMBER with nothing under way (R37) -/

/-- Exchanges that change nothing are taken as far as the bound reaches. -/
theorem settle_still_drop {t : State} {l : List Internal} (n : Nat)
    (hstill : ∀ i ∈ l, handle i { t with agenda := [] } = { t with agenda := [] }) :
    settle n { t with agenda := l } = { t with agenda := l.drop n } := by
  induction l generalizing n with
  | nil => rw [List.drop_nil]; exact settle_quiet n rfl
  | cons i rest ih =>
    cases n with
    | zero => rfl
    | succ n =>
      have hi := hstill i List.mem_cons_self
      refine (settle_cons (t := { t with agenda := i :: rest }) n rfl (congrArg State.agenda hi)).trans ?_
      refine (congrArg (fun u : State => settle n { u with agenda := rest }) hi).trans ?_
      exact ih n fun k hk => hstill k (List.mem_cons_of_mem i hk)

theorem finish_still_drop {s t : State} {l : List Internal}
    (hstill : ∀ i ∈ l, handle i { t with agenda := [] } = { t with agenda := [] }) (hc : t.clock = s.clock)
    (hp : t.pending = s.pending) (hme : t.me = s.me) :
    finish s { t with agenda := l } = { t with agenda := l.drop settleBound } := by
  have hj : State.jobsIdle { t with agenda := l.drop settleBound } = s.jobsIdle := jobsIdle_of_me hme
  rw [finish, settle_still_drop settleBound hstill, offerIdle, hj, Bool.and_not_self, if_neg Bool.false_ne_true,
    closeStep, ← hc, ← hp]

theorem laneSetChanged_idle {k n : Nat} {now : SetState} {s : State} (h : (s.lane n).job = none) :
    laneSetChanged k now n s = s := by
  simp only [laneSetChanged, h]

theorem setChanged_lanes (k : Nat) (now : SetState) (s : State) :
    setChanged k now s =
      laneSetChanged k now 3 (laneSetChanged k now 2 (laneSetChanged k now 1 (laneSetChanged k now 0 s))) := rfl

theorem setChanged_idle {k : Nat} {now : SetState} {s : State} (h : ∀ n, (s.lane n).job = none) : setChanged k now s = s := by
  rw [setChanged_lanes, laneSetChanged_idle (h 0), laneSetChanged_idle (h 1), laneSetChanged_idle (h 2),
    laneSetChanged_idle (h 3)]

theorem serveFailMember_ready {s : State} {tag : ReqTag} {p : List Byte} (hr : s.part = .ready) :
    serveFailMember tag p s =
      if (s.member (byteAt p 0)).state = .available ∨ (s.member (byteAt p 0)).state = .active then
        failMember (byteAt p 0) (some tag) (setBusy (some (.failing tag (byteAt p 0))) (s.markTaken tag))
      else s.refuse tag .wrongState := if_neg (by rw [hr]; nofun)

/-- A failed member with no command in the Drive Port. -/
theorem failMember_quiet {u : State} {id : Nat} {reply : Option ReqTag} (hn : ((u.member id).bands.map Band.set).Nodup)
    (he : u.entriesWhere (fun c => decide (c.member = id)) = []) (hw : u.dp.waiting = []) (hl : u.dp.labelWait = [])
    (hp : u.part ≠ .starting) (ho : u.journalOpen) :
    failMember id reply u = ((u.memberDown id).withRecord .pm (.member id .failed) reply).post
      (.recordQueued ⟨u.jc.nextSeq, .member id .failed, .pm, reply⟩) := by
  have hend : endCommands (fun c => decide (c.member = id)) (u.memberDown id) = u.memberDown id := by
    have hentries : (u.memberDown id).entriesWhere (fun c => decide (c.member = id)) = [] := he
    rw [endCommands, hentries]
    exact serveCommands_none (s := u.memberDown id) hw hl
  rw [failMember_eq reply hn, hend, recordFailure_later (s := u.memberDown id) hp]
  exact queueWork_open (s := u.memberDown id) ho rfl

/-- The state in which a failed member's request waits for its record. -/
def State.failed (s : State) (tag : ReqTag) (id : Nat) : State :=
  ((setBusy (some (.failing tag id)) (s.markTaken tag)).memberDown id).withRecord .pm (.member id .failed) (some tag)

theorem exec_failMember_quiet {s : State} {tag : ReqTag} {p : List Byte} (hs : s.serves .failMember tag p)
    (hr : s.part = .ready)
    (hup : (s.member (byteAt p 0)).state = .available ∨ (s.member (byteAt p 0)).state = .active) (ho : s.journalOpen)
    (hn : ((s.member (byteAt p 0)).bands.map Band.set).Nodup) (hj : ∀ n, (s.lane n).job = none)
    (he : s.entriesWhere (fun c => decide (c.member = byteAt p 0)) = []) (hw : s.dp.waiting = []) (hl : s.dp.labelWait = []) :
    ∃ a, exec (.failMember tag) s = .next { s.failed tag (byteAt p 0) with agenda := a } := by
  let u := setBusy (some (.failing tag (byteAt p 0))) (s.markTaken tag)
  have hfail : serveFailMember tag p s = ((u.memberDown (byteAt p 0)).withRecord .pm (.member (byteAt p 0) .failed)
      (some tag)).post (.recordQueued ⟨s.jc.nextSeq, .member (byteAt p 0) .failed, .pm, some tag⟩) := by
    rw [serveFailMember_ready hr, if_pos hup]
    exact failMember_quiet (u := u) hn he hw hl (by rw [show u.part = .ready from hr]; nofun) ho
  let r : Record := ⟨s.jc.nextSeq, .member (byteAt p 0) .failed, .pm, some tag⟩
  refine ⟨((s.failed tag (byteAt p 0)).agenda ++ [Internal.recordQueued r]).drop settleBound, ?_⟩
  refine (takeRequest_serves hs).trans (congrArg Host.Outcome.next ?_)
  rw [hfail]
  refine finish_still_drop (t := s.failed tag (byteAt p 0)) (fun i hi => ?_) rfl rfl rfl
  have hidle : ∀ n, (State.lane { s.failed tag (byteAt p 0) with agenda := [] } n).job = none := hj
  have hagenda : (s.failed tag (byteAt p 0)).agenda
      = s.agenda ++ (u.failChanged (byteAt p 0)).map (fun k => .setChanged k (u.enteredState k)) := rfl
  rw [show s.agenda = [] from hs.1, List.nil_append] at hagenda
  rcases List.mem_append.1 (show i ∈ (s.failed tag (byteAt p 0)).agenda ++ [Internal.recordQueued r] from hi) with hi | hi
  · rw [hagenda] at hi
    obtain ⟨k, -, rfl⟩ := List.mem_map.1 hi
    exact setChanged_idle hidle
  · obtain rfl := List.mem_singleton.1 hi
    change ownerQueued r { s.failed tag (byteAt p 0) with agenda := [] } = { s.failed tag (byteAt p 0) with agenda := [] }
    refine ownerQueued_still (Or.inr (Or.inr (Or.inr (Or.inr ⟨rfl, fun tag' id verified durable h => ?_⟩))))
    have hbusy : (State.pm { s.failed tag (byteAt p 0) with agenda := [] }).busy = some (.failing tag (byteAt p 0)) := rfl
    rw [hbusy] at h
    cases h

/-! ## A FILL job that goes back to the list (R88) -/

theorem dropWorks_form (n : Nat) (p : Work → Bool) (s : State) :
    ∃ room, dropWorks n p s = { s with jc := { s.jc with roomWait := room } }
      ∧ ∀ e ∈ room, ∃ e' ∈ s.jc.roomWait, e.1 = e'.1 ∧ (∀ w ∈ e.2, w ∈ e'.2)
        ∧ (e.1 = .lane n → ∀ w ∈ e.2, p w = false) ∧ e.2 ≠ [] := by
  refine ⟨_, rfl, fun e he => ?_⟩
  obtain ⟨hmap, hne⟩ := List.mem_filter.1 he
  obtain ⟨e', he', rfl⟩ := List.mem_map.1 hmap
  have hne' : ¬(if e'.1 = .lane n then (e'.1, e'.2.filter (fun w => !p w)) else e').2 = [] := by simpa using hne
  refine ⟨e', he', ?_⟩
  by_cases hn : e'.1 = .lane n
  · rw [if_pos hn] at hne' ⊢
    exact ⟨rfl, fun w hw => (List.mem_filter.1 hw).1, fun _ w hw => by simpa using (List.mem_filter.1 hw).2, hne'⟩
  · rw [if_neg hn] at hne' ⊢
    exact ⟨rfl, fun _ => id, fun h => absurd h hn, hne'⟩

/-- With every work of a lane dropped, the lane waits for no room. -/
theorem dropWorks_all (n : Nat) (s : State) : ∀ e ∈ (dropWorks n (fun _ => true) s).jc.roomWait, e.1 ≠ .lane n := by
  obtain ⟨room, hroom, hkept⟩ := dropWorks_form n (fun _ => true) s
  rw [hroom]
  intro e he hn
  obtain ⟨e', -, -, -, hdropped, hne⟩ := hkept e he
  obtain ⟨w, hw⟩ := List.exists_mem_of_ne_nil _ hne
  cases hdropped hn w hw

/-- A lane without pages returns to IDLE, and its lane holds are cleared. -/
theorem laneToIdle_emptied {n : Nat} {s : State} (places : List Place) (h : (s.lane n).pages = []) :
    laneToIdle n places s = forEach State.releaseSlot places (s.setLane n Lane.idle) := by
  rw [laneToIdle, if_pos h]

/-- A lane hold cleared on a slot that is in use as a home. -/
theorem releaseSlot_home {q : Place} {s : State} (h : (s.slot q).state = .home) :
    s.releaseSlot q = s.onPm (fun m =>
      { m with slots := tableWrite Slot.free m.slots (slotKey q) { s.slot q with lane := none } }) := by
  have hkeep : ({ s.slot q with lane := none } : Slot).drained = { s.slot q with lane := none } :=
    drained_kept fun hd => by
      have hd' : (s.slot q).state = .draining := hd.1
      rw [h] at hd'
      cases hd'
  rw [State.releaseSlot, hkeep]
  exact writeSlot_same Iff.rfl

theorem returnFill_eq {n : Nat} {j : Job} {u : State} (hj : (u.lane n).job = some j) (ht : (u.lane n).target = none) :
    returnFill n u = (State.releaseSlot (u.slab j.slab).home
      ((dropWorks n (fun _ => true) (abandonRow n u)).setLane n Lane.idle)).onMe (fun m => { m with jobs := j :: m.jobs }) := by
  have hslab : (u.lane n).slab = j.slab := by simp [Lane.slab, hj]
  have hplaces : u.heldPlaces (u.lane n) = [(u.slab j.slab).home] := by
    simp only [State.heldPlaces, State.homePlace, ht, hslab]
  have hempty : ((dropWorks n (fun _ => true) (abandonRow n u)).lane n).pages = [] := by
    have hlane : (dropWorks n (fun _ => true) (abandonRow n u)).lane n = (abandonRow n u).lane n := rfl
    rw [hlane, (abandonRow_abandoned n u).lane]
  unfold returnFill
  simp only [hj]
  rw [hplaces, laneToIdle_emptied _ hempty]
  rfl

/-! ## A FILL row that skips units (R117) -/

theorem onLane_onLane (n : Nat) (f g : Lane → Lane) (s : State) :
    (s.onLane n f).onLane n g = s.onLane n (fun l => g (f l)) := by
  have hlane : (s.onLane n f).lane n = f (s.lane n) := lane_onLane_same n f s
  change (s.setLane n (f (s.lane n))).setLane n (g ((s.onLane n f).lane n)) = s.setLane n (g (f (s.lane n)))
  rw [hlane, State.setLane, State.setLane, State.onMe, State.onMe, tableWrite_tableWrite]
  rfl

/-- The waiting commands that a lane waits for no longer. -/
def State.skips (u : State) (n : Nat) (c : Cmd) : Bool :=
  decide (c.owner = .lane n ∧ c.use ≠ .skipped ∧ (u.member c.member).state = .failed)

theorem waitsForFailed_eq (u : State) (n : Nat) (c : Cmd) : u.waitsForFailed n c = u.skips n c := by
  simp only [State.waitsForFailed, awaitedBy, ofLane, State.skips]
  rw [Bool.eq_iff_iff]
  simp [and_assoc]

/-- The state in which a FILL row has left out the units of FAILED members. -/
def State.rowSkipped (u : State) (n : Nat) : State :=
  let l := u.lane n
  { u.setLane n { l with
      commands := l.commands - (u.dp.waiting.filter (u.skips n)).length,
      work := { l.work with
        unsettled := l.work.unsettled.filter (fun p => (u.member (u.positionMember l p)).state ≠ .failed) } } with
    dp := { u.dp with waiting := u.dp.waiting.map (fun c => if u.skips n c then { c with use := .skipped } else c) } }

theorem skipFailed_eq {n : Nat} {u : State} (hw : (u.lane n).writes = true) :
    skipFailed n u = rowProgress n (u.rowSkipped n) := by
  unfold skipFailed leaveSkipped
  dsimp only
  rw [if_pos hw]
  rw [show u.waitsForFailed n = u.skips n from funext (waitsForFailed_eq u n)]
  refine congrArg (rowProgress n) ?_
  have hfilter : (u.lane n).work.unsettled.filter
        (fun p => !decide ((u.member (u.positionMember (u.lane n) p)).state = .failed))
      = (u.lane n).work.unsettled.filter (fun p => (u.member (u.positionMember (u.lane n) p)).state ≠ .failed) :=
    List.filter_congr fun p _ => (decide_not ..).symm
  rw [hfilter, onLane_onLane]
  rfl

theorem rowSkipped_lane (u : State) (n : Nat) : (u.rowSkipped n).lane n = { u.lane n with
    commands := (u.lane n).commands - (u.dp.waiting.filter (u.skips n)).length,
    work := { (u.lane n).work with
      unsettled := (u.lane n).work.unsettled.filter
        (fun p => (u.member (u.positionMember (u.lane n) p)).state ≠ .failed) } } :=
  lane_setLane_same n _ u

theorem rowProgress_skipped {n : Nat} {u : State} (hw : (u.lane n).writes = true) (hb : (u.lane n).broken = false) :
    rowProgress n (u.rowSkipped n) =
      if (u.lane n).work.again then
        (if (u.lane n).commands - (u.dp.waiting.filter (u.skips n)).length = 0 then (u.rowSkipped n).post (.rowAgain n)
        else u.rowSkipped n)
      else if (u.lane n).work.unsettled.filter (fun p => (u.member (u.positionMember (u.lane n) p)).state ≠ .failed) = [] then
        (u.rowSkipped n).post (.commitCheck n)
      else u.rowSkipped n := by
  unfold rowProgress
  dsimp only
  rw [rowSkipped_lane]
  refine (if_pos hw).trans ?_
  dsimp only
  by_cases ha : (u.lane n).work.again = true
  · rw [if_pos ha, if_pos ha]
  · rw [if_neg ha, if_neg ha]
    have hb' : ¬(u.lane n).broken = true := by rw [hb]; exact Bool.false_ne_true
    exact if_neg hb'

/-! ## What a lane does at a set's change of state (R87, R88) -/

theorem laneSetChanged_move {k n : Nat} {now : SetState} {u : State} {j : Job} (hj : (u.lane n).job = some j)
    (hk : j.kind = .move) :
    laneSetChanged k now n u =
      if ((u.lane n).target.map Place.set) = some k ∧ now ≠ .online then takeCause n .targetDegraded u
      else if (u.slab j.slab).home.set = k ∧ now = .failed ∧ j.salvage = false then takeCause n .sourceFailed u
      else u := by
  have hslab : (u.lane n).slab = j.slab := by simp [Lane.slab, hj]
  simp only [laneSetChanged, hj, hk, State.homePlace, hslab]

theorem laneSetChanged_fill {k n : Nat} {now : SetState} {u : State} {j : Job} (hj : (u.lane n).job = some j)
    (hk : j.kind = .fill) :
    laneSetChanged k now n u =
      if (u.slab j.slab).home.set = k then
        if now = .failed then (if (u.lane n).state = .finishing then u else returnFill n u)
        else if now = .degraded then skipFailed n u
        else u
      else u := by
  have hslab : (u.lane n).slab = j.slab := by simp [Lane.slab, hj]
  simp only [laneSetChanged, hj, hk, State.homePlace, hslab]

/-- A FILL job that goes back to the head of the list. -/
theorem returnFill_left {n : Nat} {j : Job} {u : State} (hj : (u.lane n).job = some j) (ht : (u.lane n).target = none)
    (hhome : (u.slot (u.slab j.slab).home).state = .home) :
    let told := returnFill n u
    let home := (u.slab j.slab).home
    told.lane n = Lane.idle ∧ told.me.jobs = j :: u.me.jobs ∧ told.pm.slabs = u.pm.slabs
      ∧ told.slot home = { u.slot home with lane := none }
      ∧ (∀ q, slotKey q ≠ slotKey home → told.slot q = u.slot q) ∧ told.pm.members = u.pm.members
      ∧ (tableWf (RingEntry.free 0) u.dp.ring = true →
          told.entriesWhere (fun c => decide (c.owner = .lane n)) = [])
      ∧ (∀ c ∈ told.dp.waiting, c.owner ≠ .lane n) ∧ n ∉ told.me.tokenOrder
      ∧ n ∉ told.sp.recoveryWait ∧ (∀ e ∈ told.sp.waiting, e.1 ≠ n)
      ∧ (u.sp.waiting = [] → told.sp.free = (u.lane n).pages.foldr insertRising u.sp.free)
      ∧ (∀ e ∈ told.jc.roomWait, e.1 ≠ .lane n) ∧ told.jc.queue = u.jc.queue
      ∧ (u.dp.waiting = [] → u.dp.labelWait = [] → told.mp = u.mp) := by
  intro told home
  have hleft := abandonRow_abandoned n u
  obtain ⟨d, m, p, lanes, order, a, hform⟩ := hleft.form
  obtain ⟨room, hroom, -⟩ := dropWorks_form n (fun _ => true) (abandonRow n u)
  have hnoRoom := dropWorks_all n (abandonRow n u)
  have hidle : ((dropWorks n (fun _ => true) (abandonRow n u)).setLane n Lane.idle)
      = { u with
          dp := d, mp := m, sp := p,
          me := { u.me with lanes := tableWrite Lane.idle lanes n Lane.idle, tokenOrder := order }, agenda := a,
          jc := { u.jc with roomWait := room } } := by
    rw [hroom, hform]
    rfl
  have htold : told = { u with
      dp := d, mp := m, sp := p,
      me := { u.me with
        jobs := j :: u.me.jobs, lanes := tableWrite Lane.idle lanes n Lane.idle, tokenOrder := order },
      agenda := a, jc := { u.jc with roomWait := room },
      pm := { u.pm with slots := tableWrite Slot.free u.pm.slots (slotKey home) { u.slot home with lane := none } } } := by
    refine (returnFill_eq hj ht).trans ?_
    rw [hidle]
    refine (congrArg (State.onMe _) (releaseSlot_home ?_)).trans ?_
    · exact hhome
    · rfl
  rw [hform] at hleft
  rw [hroom] at hnoRoom
  rw [htold]
  exact ⟨tableRead_tableWrite_same Lane.idle lanes n Lane.idle, rfl, rfl,
    tableRead_tableWrite_same Slot.free u.pm.slots (slotKey home) { u.slot home with lane := none },
    fun q hq => tableRead_tableWrite_other Slot.free u.pm.slots { u.slot home with lane := none } hq, rfl,
    hleft.ring, hleft.waiting, hleft.tokens, hleft.noRecovery, hleft.waits, hleft.free, hnoRoom, rfl, hleft.told⟩

/-- The members, sets and lists that a failure leaves, read back. -/
theorem memberDown_set_named {u : State} {id : Nat} (hn : ((u.member id).bands.map Band.set).Nodup) {b : Band}
    (hb : b ∈ (u.member id).bands) :
    (u.memberDown id).set b.set
      = { u.set b.set with failedCount := (u.set b.set).failedCount + 1, state := u.enteredState b.set } :=
  countBands_set_named hn hb

theorem memberDown_set_other {u : State} {id k : Nat} (h : ∀ b ∈ (u.member id).bands, b.set ≠ k) :
    (u.memberDown id).set k = u.set k := countBands_set_other h

theorem memberDown_member (u : State) (id : Nat) :
    (u.memberDown id).member id = { u.member id with state := .failed }
      ∧ ∀ k, k ≠ id → (u.memberDown id).member k = u.member k :=
  ⟨tableRead_tableWrite_same Member.absent u.pm.members id { u.member id with state := .failed },
    fun _ hk => tableRead_tableWrite_other Member.absent u.pm.members { u.member id with state := .failed } hk⟩

/-- Settles O33: the request, the failure itself, its record, the commands that end, and each lane's part. -/
theorem memberFailed : Obligations.MemberFailed := by
  refine ⟨fun s tag p hs hr => ?_, fun u id reply => ?_, fun w id reply => ?_, fun w p => ?_, fun w c => ?_,
    fun u k now => setChanged_lanes k now u, fun u k now n => ?_⟩
  · intro id m
    refine ⟨fun hav hac => takeRequest_answers hs ?_, fun hup ho hn hj he hw hl => ?_⟩
    · rw [serveFailMember_ready hr, if_neg (not_or.2 ⟨hav, hac⟩), State.refuse]
    · obtain ⟨a, ha⟩ := exec_failMember_quiet hs hr hup ho hn hj he hw hl
      let u := setBusy (some (.failing tag id)) (s.markTaken tag)
      have hmember := memberDown_member u id
      exact ⟨_, ha, hmember.1, hmember.2, fun b hb => memberDown_set_named (u := u) hn hb,
        fun k hk => memberDown_set_other (u := u) hk, rfl, rfl, rfl, rfl, rfl, rfl, rfl, rfl⟩
  · intro m entered changed notices hn
    have hmember := memberDown_member u id
    exact ⟨u.memberDown id, failMember_eq reply hn, hmember.1, hmember.2, fun b hb => memberDown_set_named hn hb,
      fun k hk => memberDown_set_other hk, rfl, rfl, rfl, rfl, rfl, rfl, rfl, rfl, rfl, rfl, rfl, rfl, rfl⟩
  · refine ⟨recordFailure_starting, fun hp ha => ?_, fun hp ho => ?_⟩
    · rw [recordFailure_later hp, queueWork, if_neg (by rw [ha]; exact Bool.false_ne_true)]
    · rw [recordFailure_later hp, queueWork_open ho rfl]
      rfl
  · rw [endCommands, forEach_eq_foldl]
  · intro fault
    refine ⟨fun e he => ?_, fun n positions ho hp hflush hfailed => handOver_failed ho hp hflush hfailed⟩
    intro r
    rw [endEntry_eq he, freeEntry]
    rw [freeLabelPlace_free]
    rfl
  · intro l told
    refine ⟨fun hj => laneSetChanged_idle hj, fun j hj hk => ?_, fun j hj hk => ?_⟩
    · have hmove := laneSetChanged_move (k := k) (now := now) hj hk
      refine ⟨fun ht hnow => hmove.trans (if_pos ⟨ht, hnow⟩), fun hno hhome hnow hsalvage => hmove.trans ?_,
        fun hno hno' => hmove.trans ?_⟩
      · rw [if_neg (fun h => hno.elim (fun h' => h' h.1) h.2), if_pos ⟨hhome, hnow, hsalvage⟩]
      · rw [if_neg (fun h => hno.elim (fun h' => h' h.1) h.2), if_neg]
        rintro ⟨hhome, hnow, hsalvage⟩
        rcases hno' with h | h | h
        · exact h hhome
        · exact h hnow
        · rw [hsalvage] at h
          cases h
    · have hfill := laneSetChanged_fill (k := k) (now := now) hj hk
      refine ⟨fun hno => hfill.trans ?_, fun hhome hnow hfin => hfill.trans ?_, fun hhome hnow hfin ht hs => ?_,
        fun hhome hnow hw => hfill.trans ?_, fun hhome hnow hw hb => hfill.trans ?_⟩
      · by_cases hhome : (u.slab j.slab).home.set = k
        · obtain ⟨hf, hd⟩ := hno.resolve_left (fun h => h hhome)
          rw [if_pos hhome, if_neg hf, if_neg hd]
        · rw [if_neg hhome]
      · rw [if_pos hhome, if_pos hnow, if_pos hfin]
      · have htold : told = returnFill n u := by
          refine hfill.trans ?_
          rw [if_pos hhome, if_pos hnow, if_neg hfin]
        rw [htold]
        exact returnFill_left hj ht hs
      · rw [if_pos hhome, if_neg (by rw [hnow]; nofun), if_pos hnow, skipFailed]
        exact if_neg (by rw [show (u.lane n).writes = false from hw]; exact Bool.false_ne_true)
      · rw [if_pos hhome, if_neg (by rw [hnow]; nofun), if_pos hnow, skipFailed_eq hw]
        exact rowProgress_skipped hw hb

end Sys2Proof.Machine
end

section
/-! PROOFS. Sets and volumes: DEFINE_SET (R39, R40), RETIRE_SET (R42), CREATE_VOLUME (R43), the allocation policy (R25) and GROW (R44 to
R47). -/

namespace Sys2Proof.Machine

/-! ## DEFINE_SET (R39, R40) -/

theorem allDistinct_iff (l : List Nat) : allDistinct l = true ↔ l.Nodup := by
  induction l with
  | nil => simp [allDistinct]
  | cons a rest ih => simp [allDistinct, ih]

theorem serveDefineSet_refuses {s : State} {tag : ReqTag} {p : List Byte} {r : Result} (hr : s.part = .ready)
    (h : s.defineRefusal (defineFields p) = some r) : serveDefineSet tag p s = s.refuse tag r := by
  refine (if_neg (by rw [hr]; nofun)).trans ?_
  simp only [h]

theorem serveDefineSet_accepts {s : State} {tag : ReqTag} {p : List Byte} (hr : s.part = .ready)
    (h : s.defineRefusal (defineFields p) = none) : serveDefineSet tag p s = beginDefine tag (defineFields p) s := by
  refine (if_neg (by rw [hr]; nofun)).trans ?_
  simp only [h]

/-- The first stage of R39: what is wrong with the request itself. -/
def DefineFields.formed (f : DefineFields) : Prop :=
  f.set < 64 ∧ (f.unit = 16 ∨ f.unit = 32 ∨ f.unit = 64) ∧ 1 ≤ f.bandLength ∧ 3 ≤ f.positions.length
    ∧ f.positions.length ≤ 16 ∧ (f.positions.map Position.member).Nodup ∧ ∀ q ∈ f.positions, 2048 ≤ q.start

/-- The second stage of R39: the set and the members named. -/
def State.entriesFit (s : State) (f : DefineFields) : Prop :=
  (s.set f.set).state = .unused
    ∧ ∀ q ∈ f.positions, (s.member q.member).state = .available ∨ (s.member q.member).state = .active

/-- The third stage of R39: the room on the members. -/
def State.roomFits (s : State) (f : DefineFields) : Prop :=
  (∀ q ∈ f.positions, q.start + f.bandLength ≤ (s.member q.member).capacity)
    ∧ (∀ q ∈ f.positions, ∀ b ∈ (s.member q.member).bands,
        b.start + (s.set b.set).bandLength ≤ q.start ∨ q.start + f.bandLength ≤ b.start)
    ∧ (∀ q ∈ f.positions, (s.member q.member).bands.length < 4)
    ∧ 1 ≤ slotCount s.slabBlocks f.positions.length f.unit f.bandLength

/-- The last two stages of R39. -/
def State.defineRoom (s : State) (f : DefineFields) : Option Result :=
  if f.positions.any (fun p => (s.member p.member).capacity < p.start + f.bandLength) then some .noSpace
  else if f.positions.any (fun p => (s.member p.member).bands.any (s.bandOverlaps p.start f.bandLength)) then some .noSpace
  else if (f.positions.map (fun p => s.member p.member)).any (fun m => 4 ≤ m.bands.length) then some .noSpace
  else if slotCount s.slabBlocks f.positions.length f.unit f.bandLength = 0 then some .noSpace
  else none

def State.defineEntries (s : State) (f : DefineFields) : Option Result :=
  if (s.set f.set).state ≠ .unused then some .wrongState
  else if (f.positions.map (fun p => s.member p.member)).any (fun m => m.state ≠ .available ∧ m.state ≠ .active) then
    some .wrongState
  else s.defineRoom f

theorem defineRefusal_stages (s : State) (f : DefineFields) :
    s.defineRefusal f =
      if !(decide (f.set < 64) && (decide (f.unit = 16) || decide (f.unit = 32) || decide (f.unit = 64))
          && decide (1 ≤ f.bandLength) && decide (3 ≤ f.positions.length) && decide (f.positions.length ≤ 16)) then
        some .badField
      else if !allDistinct (f.positions.map Position.member) then some .badField
      else if f.positions.any (fun p => p.start < 2048) then some .badField
      else s.defineEntries f := rfl

theorem formBits_iff (f : DefineFields) :
    (decide (f.set < 64) && (decide (f.unit = 16) || decide (f.unit = 32) || decide (f.unit = 64))
        && decide (1 ≤ f.bandLength) && decide (3 ≤ f.positions.length) && decide (f.positions.length ≤ 16)) = true
      ↔ f.set < 64 ∧ (f.unit = 16 ∨ f.unit = 32 ∨ f.unit = 64) ∧ 1 ≤ f.bandLength ∧ 3 ≤ f.positions.length
          ∧ f.positions.length ≤ 16 := by
  simp only [Bool.and_eq_true, Bool.or_eq_true, decide_eq_true_eq, or_assoc, and_assoc]

theorem anyEarly_iff (f : DefineFields) :
    f.positions.any (fun p => p.start < 2048) = true ↔ ¬∀ q ∈ f.positions, 2048 ≤ q.start := by
  simp only [List.any_eq_true, decide_eq_true_eq, Classical.not_forall, Nat.not_le, exists_prop]

/-- A test that a request has to pass, as the refusals write it. -/
theorem ite_not_pass {α : Type} {b : Bool} {x y : α} (h : b = true) : (if !b then x else y) = y := by
  rw [h]
  rfl

theorem ite_not_fail {α : Type} {b : Bool} {x y : α} (h : ¬b = true) : (if !b then x else y) = x := by
  rw [Bool.not_eq_true] at h
  rw [h]
  rfl

theorem defineRefusal_unformed {s : State} {f : DefineFields} (h : ¬f.formed) : s.defineRefusal f = some .badField := by
  rw [defineRefusal_stages]
  by_cases h1 : f.set < 64 ∧ (f.unit = 16 ∨ f.unit = 32 ∨ f.unit = 64) ∧ 1 ≤ f.bandLength ∧ 3 ≤ f.positions.length
      ∧ f.positions.length ≤ 16
  · rw [ite_not_pass ((formBits_iff f).2 h1)]
    by_cases h2 : (f.positions.map Position.member).Nodup
    · rw [ite_not_pass ((allDistinct_iff _).2 h2)]
      refine if_pos ((anyEarly_iff f).2 fun h3 => h ?_)
      obtain ⟨hset, hunit, hband, hlow, hhigh⟩ := h1
      exact ⟨hset, hunit, hband, hlow, hhigh, h2, h3⟩
    · exact ite_not_fail (mt (allDistinct_iff _).1 h2)
  · exact ite_not_fail (mt (formBits_iff f).1 h1)

theorem defineRefusal_formed {s : State} {f : DefineFields} (h : f.formed) : s.defineRefusal f = s.defineEntries f := by
  obtain ⟨hset, hunit, hband, hlow, hhigh, hdistinct, hstart⟩ := h
  rw [defineRefusal_stages, ite_not_pass ((formBits_iff f).2 ⟨hset, hunit, hband, hlow, hhigh⟩),
    ite_not_pass ((allDistinct_iff _).2 hdistinct), if_neg fun h => (anyEarly_iff f).1 h hstart]

theorem defineEntries_unfit {s : State} {f : DefineFields} (h : ¬s.entriesFit f) :
    s.defineEntries f = some .wrongState := by
  unfold State.defineEntries
  split
  · rfl
  · next h1 =>
    split
    · rfl
    · next h2 =>
      refine absurd ⟨Classical.not_not.1 h1, fun q hq => ?_⟩ h
      refine Classical.byContradiction fun hno => ?_
      refine h2 (List.any_eq_true.2 ⟨s.member q.member, List.mem_map_of_mem hq, ?_⟩)
      simpa [not_or] using hno

theorem defineEntries_fit {s : State} {f : DefineFields} (h : s.entriesFit f) : s.defineEntries f = s.defineRoom f := by
  obtain ⟨hset, hmembers⟩ := h
  rw [State.defineEntries, if_neg (Classical.not_not.2 hset), if_neg]
  simp only [List.any_eq_true, List.mem_map, not_exists, not_and, forall_exists_index, and_imp]
  rintro _ q hq rfl
  rcases hmembers q hq with h | h <;> simp [h]

theorem anyShort_iff (s : State) (f : DefineFields) :
    f.positions.any (fun p => (s.member p.member).capacity < p.start + f.bandLength) = true
      ↔ ¬∀ q ∈ f.positions, q.start + f.bandLength ≤ (s.member q.member).capacity := by
  simp only [List.any_eq_true, decide_eq_true_eq, Classical.not_forall, Nat.not_le, exists_prop]

theorem anyOverlaps_iff (s : State) (f : DefineFields) :
    f.positions.any (fun p => (s.member p.member).bands.any (s.bandOverlaps p.start f.bandLength)) = true
      ↔ ¬∀ q ∈ f.positions, ∀ b ∈ (s.member q.member).bands,
          b.start + (s.set b.set).bandLength ≤ q.start ∨ q.start + f.bandLength ≤ b.start := by
  simp only [List.any_eq_true, State.bandOverlaps, Bool.and_eq_true, decide_eq_true_eq, Classical.not_forall, not_or, Nat.not_le,
    exists_prop]

theorem anyCrowded_iff (s : State) (f : DefineFields) :
    (f.positions.map (fun p => s.member p.member)).any (fun m => 4 ≤ m.bands.length) = true
      ↔ ¬∀ q ∈ f.positions, (s.member q.member).bands.length < 4 := by
  simp only [List.any_map, List.any_eq_true, Function.comp_apply, decide_eq_true_eq, Classical.not_forall, Nat.not_lt, exists_prop]

theorem defineRoom_none {s : State} {f : DefineFields} (h : s.roomFits f) : s.defineRoom f = none := by
  obtain ⟨hcapacity, hbands, hcount, hslots⟩ := h
  rw [State.defineRoom, if_neg fun h => (anyShort_iff s f).1 h hcapacity,
    if_neg fun h => (anyOverlaps_iff s f).1 h hbands, if_neg fun h => (anyCrowded_iff s f).1 h hcount,
    if_neg (Nat.ne_of_gt hslots)]

theorem defineRoom_some {s : State} {f : DefineFields} (h : ¬s.roomFits f) : s.defineRoom f = some .noSpace := by
  unfold State.defineRoom
  by_cases h1 : ∀ q ∈ f.positions, q.start + f.bandLength ≤ (s.member q.member).capacity
  · rw [if_neg fun h => (anyShort_iff s f).1 h h1]
    by_cases h2 : ∀ q ∈ f.positions, ∀ b ∈ (s.member q.member).bands,
        b.start + (s.set b.set).bandLength ≤ q.start ∨ q.start + f.bandLength ≤ b.start
    · rw [if_neg fun h => (anyOverlaps_iff s f).1 h h2]
      by_cases h3 : ∀ q ∈ f.positions, (s.member q.member).bands.length < 4
      · rw [if_neg fun h => (anyCrowded_iff s f).1 h h3]
        exact if_pos (Nat.eq_zero_of_not_pos fun h4 => h ⟨h1, h2, h3, h4⟩)
      · rw [if_pos ((anyCrowded_iff s f).2 h3)]
    · rw [if_pos ((anyOverlaps_iff s f).2 h2)]
  · rw [if_pos ((anyShort_iff s f).2 h1)]

/-- The state in which a defined set's record is queued. -/
def State.defining (s : State) (tag : ReqTag) (f : DefineFields) : State :=
  { s with
    mp := (s.markTaken tag).mp,
    pm := { s.pm with
      sets := tableWrite SetEntry.unused s.pm.sets f.set
        (newSet .pending s.slabBlocks f.unit f.bandLength f.positions),
      busy := some (.defining tag f.set) } }

/-- A request of the Placement Map that queues one record, with no admission waiting, ends with its record queued. -/
theorem next_pmWork {s t : State} {tag : ReqTag} {body : RecordBody} {w : PmWork} (ho : t.journalOpen)
    (hp : body.plain = true) (hbusy : t.pm.busy = some w) (hw : ∀ tag id seq verified durable, w ≠ .joining tag id seq verified durable)
    (ha : t.agenda = []) (hc : t.clock = s.clock) (hpend : t.pending = s.pending) (hme : t.me = s.me) :
    (Host.Outcome.next (finish s (pmWork tag body t)) : Answer) = .next (t.withRecord .pm body (some tag)) := by
  refine next_queueWork ho hp (fun u hu => ownerQueued_still ?_) ha hc hpend hme
  refine Or.inr (Or.inr (Or.inr (Or.inr ⟨rfl, fun tag' id verified durable h => ?_⟩)))
  rw [hu, hbusy] at h
  exact hw _ _ _ _ _ (Option.some.inj h)

/-- Settles O34: the three stages of refusals, and the definition with its record. -/
theorem setDefined : Obligations.SetDefined := by
  intro s tag p hs hr f w rows slots refused form entries room
  have refuse {r : Result} (h : s.defineRefusal f = some r) : refused r :=
    takeRequest_answers hs (serveDefineSet_refuses hr h)
  refine ⟨fun hf => refuse (defineRefusal_unformed hf), fun hf he => refuse ?_, fun hf he hroom => refuse ?_,
    fun hf he hroom ho => ?_⟩
  · exact (defineRefusal_formed hf).trans (defineEntries_unfit he)
  · exact (defineRefusal_formed hf).trans ((defineEntries_fit he).trans (defineRoom_some hroom))
  · have hnone : s.defineRefusal f = none :=
      (defineRefusal_formed hf).trans ((defineEntries_fit he).trans (defineRoom_none hroom))
    have hexec : exec (.defineSet tag) s = .next ((s.defining tag f).withRecord .pm
        (.setDefine f.set f.unit f.bandLength f.positions) (some tag)) := by
      refine (takeRequest_serves hs).trans ?_
      rw [serveDefineSet_accepts hr hnone]
      exact next_pmWork (t := s.defining tag f) ho rfl rfl nofun hs.1 rfl rfl rfl
    have hset : (s.defining tag f).set f.set = newSet .pending s.slabBlocks f.unit f.bandLength f.positions :=
      tableRead_tableWrite_same SetEntry.unused s.pm.sets f.set (newSet .pending s.slabBlocks f.unit f.bandLength f.positions)
    refine ⟨hexec, fun hfree => ⟨_, hexec, ?_, ?_, ?_, hfree⟩⟩
    · exact congrArg SetEntry.state hset
    · exact congrArg SetEntry.slots hset
    · exact congrArg SetEntry.freeCount hset

/-! ## RETIRE_SET (R42) -/

theorem serveRetireSet_ready {s : State} {tag : ReqTag} {p : List Byte} (hr : s.part = .ready) :
    serveRetireSet tag p s =
      if 64 ≤ byteAt p 0 then s.refuse tag .badField
      else if !(s.set (byteAt p 0)).retirable then s.refuse tag .wrongState
      else
        pmWork tag (.setRetire (byteAt p 0)) { s with
          mp := (s.markTaken tag).mp,
          pm := { s.pm with
            sets := tableWrite SetEntry.unused s.pm.sets (byteAt p 0) { s.set (byteAt p 0) with retiring := true },
            busy := some (.retiring tag (byteAt p 0)) } } := if_neg (by rw [hr]; nofun)

theorem retirable_iff (e : SetEntry) :
    e.retirable = true ↔ (e.state = .online ∨ e.state = .degraded ∨ e.state = .failed) ∧ e.freeCount = e.slots := by
  simp only [SetEntry.retirable, Bool.and_eq_true, Bool.or_eq_true, decide_eq_true_eq, or_assoc]

/-- Settles O35: the two refusals, and the set marked retiring with its record. -/
theorem Settled.setRetired : Obligations.SetRetired := by
  intro s tag p hs hr k e retirable
  refine ⟨fun hk => takeRequest_answers hs ?_, fun hk hno => takeRequest_answers hs ?_, fun hk hyes ho => ?_⟩
  · rw [serveRetireSet_ready hr, if_pos hk, State.refuse]
  · rw [serveRetireSet_ready hr, if_neg (Nat.not_le.2 hk), ite_not_fail (mt (retirable_iff e).1 hno), State.refuse]
  · refine ⟨_, (takeRequest_serves hs).trans ?_, rfl, ?_⟩
    · rw [serveRetireSet_ready hr, if_neg (Nat.not_le.2 hk), ite_not_pass ((retirable_iff e).2 hyes)]
      exact next_pmWork ho rfl rfl nofun hs.1 rfl rfl rfl
    · have hset : (State.set (State.withRecord .pm (.setRetire k) (some tag) { s with
          mp := (s.markTaken tag).mp,
          pm := { s.pm with sets := tableWrite SetEntry.unused s.pm.sets k { e with retiring := true },
                            busy := some (.retiring tag k) } }) k) = { e with retiring := true } :=
        tableRead_tableWrite_same SetEntry.unused s.pm.sets k { e with retiring := true }
      rw [State.eligible, hset]
      exact Bool.and_false _

/-! ## CREATE_VOLUME (R43) -/

theorem serveCreateVolume_ready {s : State} {tag : ReqTag} {p : List Byte} (hr : s.part = .ready) :
    serveCreateVolume tag p s =
      if !(decide (byteAt p 0 < 4) && decide (1 ≤ fieldAt p 2 2) && decide (fieldAt p 2 2 ≤ 16384)) then
        s.refuse tag .badField
      else if (s.volume (byteAt p 0)).state ≠ .unused then s.refuse tag .wrongState
      else if 16384 < s.limitSum + fieldAt p 2 2 then s.refuse tag .noSpace
      else
        pmWork tag (.volumeCreate (byteAt p 0) s.limitSum (fieldAt p 2 2) (poolAt p 4)) { s with
          mp := (s.markTaken tag).mp,
          pm := { s.pm with
            volumes := tableWrite Volume.unused s.pm.volumes (byteAt p 0)
              ⟨.unused, s.limitSum, fieldAt p 2 2, 0, 0, poolAt p 4⟩,
            busy := some (.creating tag (byteAt p 0)) } } := if_neg (by rw [hr]; nofun)

/-- Settles O36: the three refusals, and the volume with its record. -/
theorem volumeCreated : Obligations.VolumeCreated := by
  intro s tag p hs hr v limit pool base form
  have hform : (decide (byteAt p 0 < 4) && decide (1 ≤ fieldAt p 2 2) && decide (fieldAt p 2 2 ≤ 16384)) = true ↔ form := by
    simp only [Bool.and_eq_true, decide_eq_true_eq, and_assoc]
    rfl
  refine ⟨fun hno => takeRequest_answers hs ?_, fun hyes hused => takeRequest_answers hs ?_,
    fun hyes hunused hfull => takeRequest_answers hs ?_, fun hyes hunused hroom ho => (takeRequest_serves hs).trans ?_⟩
  · rw [serveCreateVolume_ready hr, ite_not_fail (mt hform.1 hno), State.refuse]
  · rw [serveCreateVolume_ready hr, ite_not_pass (hform.2 hyes), if_pos hused, State.refuse]
  · rw [serveCreateVolume_ready hr, ite_not_pass (hform.2 hyes), if_neg (Classical.not_not.2 hunused), if_pos hfull, State.refuse]
  · rw [serveCreateVolume_ready hr, ite_not_pass (hform.2 hyes), if_neg (Classical.not_not.2 hunused), if_neg (Nat.not_lt.2 hroom)]
    exact next_pmWork ho rfl rfl nofun hs.1 rfl rfl rfl

/-! ## The allocation policy (R25) -/

theorem better_some (s : State) (b t : Nat) :
    s.better (some b) t = some (if (s.set b).freeCount < (s.set t).freeCount then t else b) := by
  rw [State.better]
  split <;> rfl

/-- The set that the policy keeps of a list in rising order: one of the list, the first of those with the most FREE slots. -/
theorem better_foldl {s : State} {l : List Nat} (hl : l.Pairwise (· < ·)) {b : Nat} (hb : ∀ t ∈ l, b < t) :
    ∃ c, l.foldl s.better (some b) = some c ∧ c ∈ b :: l
      ∧ ∀ t ∈ b :: l, (s.set t).freeCount ≤ (s.set c).freeCount
        ∧ ((s.set t).freeCount = (s.set c).freeCount → c ≤ t) := by
  induction l generalizing b with
  | nil =>
    refine ⟨b, rfl, List.mem_cons_self, fun t ht => ?_⟩
    rw [List.mem_singleton.1 ht]
    exact ⟨Nat.le_refl _, fun _ => Nat.le_refl _⟩
  | cons a rest ih =>
    obtain ⟨ha, hrest⟩ := List.pairwise_cons.1 hl
    have hba := hb a List.mem_cons_self
    rw [List.foldl_cons, better_some]
    by_cases hlt : (s.set b).freeCount < (s.set a).freeCount
    · rw [if_pos hlt]
      obtain ⟨c, hc, hmem, hbest⟩ := ih hrest ha
      refine ⟨c, hc, List.mem_cons_of_mem b hmem, fun t ht => ?_⟩
      rcases List.mem_cons.1 ht with rfl | ht
      · have := (hbest a List.mem_cons_self).1
        exact ⟨by omega, fun _ => by omega⟩
      · exact hbest t ht
    · rw [if_neg hlt]
      obtain ⟨c, hc, hmem, hbest⟩ := ih hrest fun t ht => Nat.lt_trans hba (ha t ht)
      have hmem' : c ∈ b :: a :: rest := by
        rcases List.mem_cons.1 hmem with rfl | hmem
        · exact List.mem_cons_self
        · exact List.mem_cons_of_mem b (List.mem_cons_of_mem a hmem)
      refine ⟨c, hc, hmem', fun t ht => ?_⟩
      rcases List.mem_cons.1 ht with rfl | ht
      · exact hbest t List.mem_cons_self
      · rcases List.mem_cons.1 ht with rfl | ht
        · obtain ⟨hle, heq⟩ := hbest b List.mem_cons_self
          refine ⟨by omega, fun h => ?_⟩
          have := heq (by omega)
          omega
        · exact hbest t (List.mem_cons_of_mem b ht)

/-- Eligible for allocation from the sets offered (R25). -/
def State.offers (s : State) (offered : BitVec 64) (k : Nat) : Prop :=
  k < 64 ∧ offered.getLsbD k = true ∧ (s.set k).state = .online ∧ 1 ≤ (s.set k).freeCount ∧ (s.set k).retiring = false

/-- The sets that are eligible, in rising order. -/
def State.offeredSets (s : State) (offered : BitVec 64) : List Nat :=
  (List.range 64).filter (fun t => offered.getLsbD t && s.eligible t)

theorem mem_offeredSets {s : State} {offered : BitVec 64} {k : Nat} : k ∈ s.offeredSets offered ↔ s.offers offered k := by
  simp [State.offeredSets, State.offers, State.eligible, and_assoc]

theorem offeredSets_pairwise (s : State) (offered : BitVec 64) : (s.offeredSets offered).Pairwise (· < ·) :=
  List.pairwise_lt_range.sublist List.filter_sublist

theorem chooseSet_none {s : State} {offered : BitVec 64} (h : ∀ k, ¬s.offers offered k) : s.chooseSet offered = none := by
  have hnil : s.offeredSets offered = [] := List.eq_nil_iff_forall_not_mem.2 fun k hk => h k (mem_offeredSets.1 hk)
  change (s.offeredSets offered).foldl s.better none = none
  rw [hnil]
  rfl

theorem chooseSet_some {s : State} {offered : BitVec 64} {k : Nat} (hk : s.offers offered k) :
    ∃ c, s.chooseSet offered = some c ∧ s.offers offered c
      ∧ ∀ t, s.offers offered t → (s.set t).freeCount ≤ (s.set c).freeCount
        ∧ ((s.set t).freeCount = (s.set c).freeCount → c ≤ t) := by
  have hpairwise := offeredSets_pairwise s offered
  have hmem := mem_offeredSets.2 hk
  change ∃ c, (s.offeredSets offered).foldl s.better none = some c ∧ _
  simp only [← mem_offeredSets]
  cases hl : s.offeredSets offered with
  | nil => rw [hl] at hmem; cases hmem
  | cons b rest =>
    rw [hl] at hpairwise
    obtain ⟨hb, hrest⟩ := List.pairwise_cons.1 hpairwise
    exact better_foldl hrest hb

/-- The lowest-numbered FREE slot, found or not. -/
theorem lowestFree_some {s : State} {t k : Nat} (h : s.lowestFree t = some k) :
    k < (s.set t).slots ∧ (s.slot ⟨t, k⟩).state = .free ∧ ∀ j, j < k → (s.slot ⟨t, j⟩).state ≠ .free := by
  obtain ⟨hp, hmem, hfirst⟩ := List.find?_range_eq_some.1 h
  exact ⟨List.mem_range.1 hmem, of_decide_eq_true hp, fun j hj => by simpa using hfirst j hj⟩

theorem lowestFree_of_free {s : State} {t j : Nat} (hj : j < (s.set t).slots) (hf : (s.slot ⟨t, j⟩).state = .free) :
    ∃ k, s.lowestFree t = some k := by
  cases h : s.lowestFree t with
  | some k => exact ⟨k, rfl⟩
  | none =>
    have := List.find?_range_eq_none.1 h j hj
    simp [hf] at this

theorem chooseSlot_some {s : State} {offered : BitVec 64} {q : Place} (h : s.chooseSlot offered = some q) :
    s.chooseSet offered = some q.set ∧ s.lowestFree q.set = some q.slot := by
  unfold State.chooseSlot at h
  cases hc : s.chooseSet offered with
  | none => simp [hc] at h
  | some t =>
    simp only [hc, Option.map_eq_some_iff] at h
    obtain ⟨k, hk, rfl⟩ := h
    exact ⟨rfl, hk⟩

/-- Settles O38: the set by the fold over the eligible ones, the slot by the search in it. -/
theorem allocationChoosesSlot : Obligations.AllocationChoosesSlot := by
  intro s offered eligible
  refine ⟨fun q hq => ?_, fun hno => ?_, fun ⟨k, hk⟩ hfree => ?_⟩
  · obtain ⟨hset, hslot⟩ := chooseSlot_some hq
    obtain ⟨hlt, hstate, hlow⟩ := lowestFree_some hslot
    have hoffers : ∃ k, s.offers offered k := by
      refine Classical.byContradiction fun hno => ?_
      rw [chooseSet_none fun k hk => hno ⟨k, hk⟩] at hset
      cases hset
    obtain ⟨k, hk⟩ := hoffers
    obtain ⟨c, hc, hoffer, hbest⟩ := chooseSet_some hk
    rw [hset] at hc
    obtain rfl := Option.some.inj hc
    exact ⟨hoffer, hlt, hstate, fun t ht => (hbest t ht).1, fun t ht => (hbest t ht).2, hlow,
      fun state g hne => ⟨writeSlot_slot_same _ s rfl, writeSlot_set_taken hstate hne⟩⟩
  · rw [State.chooseSlot, chooseSet_none hno]
  · obtain ⟨c, hc, hoffer, -⟩ := chooseSet_some hk
    obtain ⟨j, hj, hf⟩ := hfree c hoffer
    obtain ⟨i, hi⟩ := lowestFree_of_free hj hf
    refine ⟨⟨c, i⟩, ?_⟩
    rw [State.chooseSlot, hc]
    exact congrArg (Option.map (fun k => (⟨c, k⟩ : Place))) hi

/-! ## The homes of a growth (R26, R45) -/

/-- A FREE slot taken: its record and the free count of its set change. -/
theorem takeSlot_free {q : Place} {s : State} {state : SlotState} (g : Nat) (h : (s.slot q).state = .free)
    (hs : state ≠ .free) :
    s.takeSlot q state g = { s with pm := { s.pm with
      slots := tableWrite Slot.free s.pm.slots (slotKey q) ⟨state, 0, some g, none⟩,
      sets := tableWrite SetEntry.unused s.pm.sets q.set
        { s.set q.set with freeCount := (s.set q.set).freeCount - 1 } } } := by
  unfold State.takeSlot State.writeSlot
  exact if_pos ⟨h, hs⟩

theorem growHomes_cons_none {pool : BitVec 64} {g : Nat} {rest : List Nat} {u : State} (h : u.chooseSlot pool = none) :
    growHomes pool (g :: rest) u = none := by
  simp only [growHomes, h]

theorem growHomes_cons_full {pool : BitVec 64} {g : Nat} {rest : List Nat} {u : State} {q : Place}
    (h : u.chooseSlot pool = some q) (hr : growHomes pool rest (u.takeSlot q .home g) = none) :
    growHomes pool (g :: rest) u = none := by
  simp only [growHomes, h, hr]

theorem growHomes_cons_some {pool : BitVec 64} {g : Nat} {rest : List Nat} {u w : State} {q : Place}
    {more : List Placement} (h : u.chooseSlot pool = some q)
    (hr : growHomes pool rest (u.takeSlot q .home g) = some (more, w)) :
    growHomes pool (g :: rest) u = some (⟨g, q⟩ :: more, w) := by
  simp only [growHomes, h, hr]

/-- The homes chosen, one for each slab, change slots and sets alone. -/
theorem growHomes_form {pool : BitVec 64} {l : List Nat} {s u : State} {homes : List Placement}
    (h : growHomes pool l s = some (homes, u)) :
    homes.length = l.length ∧ ∃ slots sets, u = { s with pm := { s.pm with slots := slots, sets := sets } } := by
  induction l generalizing s homes with
  | nil =>
    obtain ⟨rfl, rfl⟩ := Prod.mk.inj (Option.some.inj h)
    exact ⟨rfl, s.pm.slots, s.pm.sets, rfl⟩
  | cons g rest ih =>
    cases hq : s.chooseSlot pool with
    | none =>
      rw [growHomes_cons_none hq] at h
      cases h
    | some q =>
      cases hr : growHomes pool rest (s.takeSlot q .home g) with
      | none =>
        rw [growHomes_cons_full hq hr] at h
        cases h
      | some found =>
        obtain ⟨more, w⟩ := found
        rw [growHomes_cons_some hq hr] at h
        obtain ⟨rfl, rfl⟩ := Prod.mk.inj (Option.some.inj h)
        obtain ⟨hlen, slots, sets, hw⟩ := ih hr
        obtain ⟨slots', sets', htake⟩ := writeSlot_slots_sets q ⟨.home, 0, some g, none⟩ s
        refine ⟨by rw [List.length_cons, List.length_cons, hlen], slots, sets, ?_⟩
        rw [hw, State.takeSlot, htake]

/-- Placements in groups of sixty, by their places in the list. -/
theorem groupsOfSixty_eq {n : Nat} {ps : List Placement} (h : ps.length ≤ n) :
    groupsOfSixty n ps = (List.range ((ps.length + 59) / 60)).map (fun i => (ps.drop (60 * i)).take 60) := by
  induction n generalizing ps with
  | zero =>
    obtain rfl := List.length_eq_zero_iff.1 (Nat.le_zero.1 h)
    rfl
  | succ n ih =>
    cases ps with
    | nil => rfl
    | cons p rest =>
      have hlen : ((p :: rest).drop 60).length ≤ n := by
        rw [List.length_drop]
        omega
      have hcount : ((p :: rest).length + 59) / 60 = (((p :: rest).drop 60).length + 59) / 60 + 1 := by
        rw [List.length_drop, List.length_cons]
        omega
      have hgroups : groupsOfSixty (n + 1) (p :: rest)
          = (p :: rest).take 60 :: groupsOfSixty n ((p :: rest).drop 60) := rfl
      rw [hgroups, ih hlen, hcount, List.range_succ_eq_map, List.map_cons, List.map_map]
      refine congrArg (List.cons _) (List.map_congr_left fun i _ => ?_)
      rw [List.drop_drop, Function.comp_apply]
      exact congrArg (fun k => ((p :: rest).drop k).take 60) (by omega)

/-! ## Several records queued at once (R45, R150) -/

/-- Records that requests wait for, numbered one after another. -/
def withRecords (tag : ReqTag) (bodies : List RecordBody) (s : State) : State :=
  bodies.foldl (fun t b => t.withRecord .pm b (some tag)) s

/-- Room for so many records in the open journal. -/
def State.journalOpenFor (s : State) (n : Nat) : Prop :=
  s.jc.state = .writing ∧ s.jc.admission = true ∧ s.jc.roomWait = [] ∧ (s.jc.op.isSome = true ∨ s.headSpent = false)
    ∧ s.jc.queue.length + n ≤ 32 ∧ s.jc.nextSeq + n ≤ 4294967296

theorem State.journalOpenFor.open {s : State} {n : Nat} (h : s.journalOpenFor (n + 1)) : s.journalOpen := by
  obtain ⟨hstate, hadm, hwait, hop, hqueue, hseq⟩ := h
  refine ⟨hstate, ?_, hwait, ?_, hop⟩
  · rw [Journal.hasRoom, hadm, Bool.true_and, decide_eq_true_eq]
    change s.jc.queue.length < 32
    omega
  · change s.jc.nextSeq ≤ 4294967295
    omega

/-- The store going on changes its operation alone, and does not lose one. -/
theorem started_form (now : Nat) (j : Journal) :
    ∃ op, j.started now = { j with op := op } ∧ (j.op.isSome = true → op.isSome = true) := by
  unfold Journal.started
  split
  · next h _ _ => exact ⟨_, rfl, fun _ => rfl⟩
  · exact ⟨j.op, rfl, id⟩

theorem headSpent_eq {s t : State} (hhead : t.jc.head = s.jc.head) (hblocks : t.jc.blocks = s.jc.blocks)
    (hpage : t.jc.nextPage = s.jc.nextPage) : t.headSpent = s.headSpent := by
  unfold State.headSpent State.storeBlock
  rw [hhead, hblocks, hpage]

theorem withRecord_openFor {s : State} {n : Nat} (h : s.journalOpenFor (n + 1)) (owner : JOwner) (body : RecordBody)
    (reply : Option ReqTag) : (s.withRecord owner body reply).journalOpenFor n := by
  obtain ⟨hstate, hadm, hwait, hop, hqueue, hseq⟩ := h
  obtain ⟨op, hop', hkeeps⟩ := started_form s.now
    { s.jc with queue := s.jc.queue ++ [⟨s.jc.nextSeq, body, owner, reply⟩], nextSeq := s.jc.nextSeq + 1 }
  have hjc : (s.withRecord owner body reply).jc = { s.jc with
      queue := s.jc.queue ++ [⟨s.jc.nextSeq, body, owner, reply⟩], nextSeq := s.jc.nextSeq + 1, op := op } := hop'
  have hspent : (s.withRecord owner body reply).headSpent = s.headSpent := by
    refine headSpent_eq ?_ ?_ ?_ <;> rw [hjc]
  rw [State.journalOpenFor, hspent, hjc]
  refine ⟨hstate, hadm, hwait, hop.imp_left hkeeps, ?_, ?_⟩
  · rw [List.length_append]
    simp only [List.length_cons, List.length_nil]
    omega
  · dsimp only
    omega

/-- Records queued one after another while there is room: they are numbered in turn, and an exchange stands for each. -/
theorem forEach_pmWork_open {tag : ReqTag} {bodies : List RecordBody} (hp : ∀ b ∈ bodies, b.plain = true) {s : State}
    (ho : s.journalOpenFor bodies.length) (a : List Internal) :
    ∃ a', forEach (fun b s => pmWork tag b s) bodies { s with agenda := a }
        = { withRecords tag bodies s with agenda := a ++ a' }
      ∧ a'.length = bodies.length ∧ ∀ i ∈ a', ∃ r : Record, i = .recordQueued r ∧ r.owner = .pm := by
  induction bodies generalizing s a with
  | nil => exact ⟨[], by rw [List.append_nil]; rfl, rfl, fun _ h => absurd h List.not_mem_nil⟩
  | cons b rest ih =>
    let r : Record := ⟨s.jc.nextSeq, b, .pm, some tag⟩
    have hwork : pmWork tag b { s with agenda := a }
        = { s.withRecord .pm b (some tag) with agenda := a ++ [.recordQueued r] } :=
      queueWork_open (s := { s with agenda := a }) ho.open (hp b List.mem_cons_self)
    obtain ⟨a', hrest, hlen, hqueued⟩ := ih (fun c hc => hp c (List.mem_cons_of_mem b hc))
      (withRecord_openFor ho .pm b (some tag)) (a ++ [.recordQueued r])
    refine ⟨.recordQueued r :: a', ?_, by rw [List.length_cons, List.length_cons, hlen], fun i hi => ?_⟩
    · rw [forEach, hwork, hrest, List.append_assoc]
      rfl
    · rcases List.mem_cons.1 hi with rfl | hi
      · exact ⟨r, rfl, rfl⟩
      · exact hqueued i hi

/-! ## Several records that wait for room (R28, R150) -/

theorem waitFurther_new {owner : JOwner} {w : Work} {l : List (JOwner × List Work)} (h : ∀ e ∈ l, e.1 ≠ owner) :
    waitFurther owner w l = l ++ [(owner, [w])] := by
  induction l with
  | nil => rfl
  | cons e rest ih =>
    obtain ⟨o, ws⟩ := e
    rw [waitFurther, if_neg (h (o, ws) List.mem_cons_self), ih fun e he => h e (List.mem_cons_of_mem _ he)]
    rfl

theorem waitFurther_last {owner : JOwner} {w : Work} {l : List (JOwner × List Work)} {ws : List Work}
    (h : ∀ e ∈ l, e.1 ≠ owner) : waitFurther owner w (l ++ [(owner, ws)]) = l ++ [(owner, ws ++ [w])] := by
  induction l with
  | nil => exact if_pos rfl
  | cons e rest ih =>
    obtain ⟨o, vs⟩ := e
    rw [List.cons_append, waitFurther, if_neg (h (o, vs) List.mem_cons_self),
      ih fun e he => h e (List.mem_cons_of_mem _ he)]
    rfl

theorem queueWork_waits {owner : JOwner} {w : Work} {s : State} (ha : s.jc.active = true) (hr : s.jc.hasRoom = false) :
    queueWork owner w s = s.onJc (fun j => { j with roomWait := waitFurther owner w j.roomWait }) := by
  rw [queueWork, if_pos ha, if_neg (by rw [hr, Bool.false_and]; exact Bool.false_ne_true)]

/-- Records queued with no room join one owner's works. -/
theorem forEach_pmWork_waits {tag : ReqTag} {bodies : List RecordBody} {s : State} {l : List (JOwner × List Work)}
    {ws : List Work} (ha : s.jc.active = true) (hr : s.jc.hasRoom = false) (hl : ∀ e ∈ l, e.1 ≠ JOwner.pm)
    (hw : s.jc.roomWait = l ++ [(.pm, ws)]) :
    forEach (fun b s => pmWork tag b s) bodies s
      = { s with jc := { s.jc with roomWait := l ++ [(.pm, ws ++ bodies.map (fun b => ⟨b, some tag⟩))] } } := by
  induction bodies generalizing s ws with
  | nil =>
    rw [List.map_nil, List.append_nil, ← hw]
    rfl
  | cons b rest ih =>
    have hwork : pmWork tag b s = s.onJc (fun j => { j with roomWait := l ++ [(.pm, ws ++ [⟨b, some tag⟩])] }) := by
      rw [pmWork, queueWork_waits ha hr, State.onJc, hw, waitFurther_last hl]
      rfl
    rw [forEach, hwork]
    refine (ih (s := s.onJc (fun j => { j with roomWait := l ++ [(.pm, ws ++ [⟨b, some tag⟩])] })) ha hr rfl).trans ?_
    rw [List.append_assoc]
    rfl

/-! ## GROW (R44, R45) -/

theorem serveGrow_ready {s : State} {tag : ReqTag} {p : List Byte} (hr : s.part = .ready) :
    serveGrow tag p s =
      (let v := byteAt p 0
      let new := fieldAt p 2 2
      let e := s.volume v
      let pool := growPool p e.pool
      if 4 ≤ v then s.refuse tag .badField
      else if e.state ≠ .online then s.refuse tag .wrongState
      else if !(decide (e.count < new) && decide (new ≤ e.limit)) then s.refuse tag .badField
      else if s.freePlaces < new - e.count then s.refuse tag .busy
      else
        match growHomes pool ((List.range (new - e.count)).map (fun i => e.base + e.count + i)) s with
        | none => s.refuse tag .noSpace
        | some (homes, t) => beginGrow tag v new pool e.pool homes t) := by
  refine (if_neg ?_).trans rfl
  rw [hr]
  nofun

/-- The records of a growth, in order (R45). -/
theorem growRecords_eq {v old new : Nat} {pool : BitVec 64} {homes : List Placement} :
    growRecords v old new pool homes =
      (let parts := (List.range ((homes.length + 59) / 60)).map (fun i => (homes.drop (60 * i)).take 60)
      .growOpen v old new pool :: parts.map .growPart ++ [.growClose parts.length]) := by
  unfold growRecords
  rw [groupsOfSixty_eq (Nat.le_refl _)]

theorem growRecords_plain {v old new : Nat} {pool : BitVec 64} {homes : List Placement} :
    ∀ b ∈ growRecords v old new pool homes, b.plain = true := by
  intro b hb
  unfold growRecords at hb
  rcases List.mem_append.1 hb with hb | hb
  · rcases List.mem_cons.1 hb with rfl | hb
    · rfl
    · obtain ⟨part, -, rfl⟩ := List.mem_map.1 hb
      rfl
  · obtain rfl := List.mem_singleton.1 hb
    rfl

/-- The state in which a growth's records are queued. -/
def State.growing (s u : State) (tag : ReqTag) (v new : Nat) (pool : BitVec 64) (homes : List Placement) : State :=
  { s with
    mp := (s.markTaken tag).mp,
    pm := { u.pm with
      volumes := tableWrite Volume.unused s.pm.volumes v { s.volume v with pool := pool },
      busy := some (.growing ⟨tag, v, (s.volume v).count, new, (s.volume v).pool, homes⟩) } }

theorem beginGrow_eq {s u : State} {tag : ReqTag} {v new : Nat} {pool : BitVec 64} {homes : List Placement}
    (hu : ∃ slots sets, u = { s with pm := { s.pm with slots := slots, sets := sets } }) :
    beginGrow tag v new pool (s.volume v).pool homes u
      = forEach (fun b s => pmWork tag b s) (growRecords v (s.volume v).count new pool homes)
          (s.growing u tag v new pool homes) := by
  obtain ⟨slots, sets, rfl⟩ := hu
  rfl

/-- A growth accepted with room for all its records. -/
theorem finish_grow_open {s u : State} {tag : ReqTag} {v new : Nat} {pool : BitVec 64} {homes : List Placement}
    {bodies : List RecordBody} (hs : s.quiet) (hp : ∀ b ∈ bodies, b.plain = true) (ho : s.journalOpenFor bodies.length)
    (hlen : bodies.length ≤ 32) :
    finish s (forEach (fun b s => pmWork tag b s) bodies (s.growing u tag v new pool homes))
      = withRecords tag bodies (s.growing u tag v new pool homes) := by
  obtain ⟨a, ha, halen, hqueued⟩ := forEach_pmWork_open (tag := tag) hp (s := s.growing u tag v new pool homes) ho []
  have hform : ∃ j, withRecords tag bodies (s.growing u tag v new pool homes)
      = { s.growing u tag v new pool homes with jc := j } := by
    clear ha hqueued halen hlen ho hp
    generalize s.growing u tag v new pool homes = t
    induction bodies generalizing t with
    | nil => exact ⟨t.jc, rfl⟩
    | cons b rest ih =>
      obtain ⟨j, hj⟩ := ih (t.withRecord .pm b (some tag))
      exact ⟨j, hj⟩
  obtain ⟨j, hj⟩ := hform
  have hstart : ({ s.growing u tag v new pool homes with agenda := [] } : State) = s.growing u tag v new pool homes :=
    cleared_eq hs
  rw [hstart, List.nil_append] at ha
  rw [ha]
  refine (finish_still ?_ (fun i hi => ?_) ?_ ?_ ?_).trans (cleared_eq ?_)
  · rw [halen]
    exact Nat.le_trans hlen (by decide)
  · obtain ⟨r, rfl, hr⟩ := hqueued i hi
    refine ownerQueued_still (Or.inr (Or.inr (Or.inr (Or.inr ⟨hr, fun tag' id verified durable h => ?_⟩))))
    rw [hj] at h
    cases h
  · rw [hj]
    rfl
  · rw [hj]
    rfl
  · exact jobsIdle_of_me (by rw [hj]; rfl)
  · rw [hj]
    exact hs

/-- Settles O37: the refusals, the homes that the policy chooses, and the records, queued at once or waiting for room. -/
theorem growthBegins : Obligations.GrowthBegins := by
  refine ⟨fun s tag p hs hr => ?_, fun pool u => rfl, fun pool g rest u => ⟨growHomes_cons_none, fun q hq => ?_⟩⟩
  · intro v e new pool slabs refused inLimit
    have hserve := serveGrow_ready (tag := tag) (p := p) hr
    have hlimit : (decide (e.count < new) && decide (new ≤ e.limit)) = true ↔ inLimit := by
      simp only [Bool.and_eq_true, decide_eq_true_eq]
      rfl
    refine ⟨fun hv => takeRequest_answers hs (hserve.trans ?_), fun hv hst => takeRequest_answers hs (hserve.trans ?_),
      fun hv hst hno => takeRequest_answers hs (hserve.trans ?_), fun hv hst hin hfull => takeRequest_answers hs (hserve.trans ?_),
      fun hv hst hin hroom hnone => takeRequest_answers hs (hserve.trans ?_), fun hv hst hin hroom homes u hsome => ?_⟩
    · exact if_pos hv
    · exact (if_neg (Nat.not_le.2 hv)).trans (if_pos hst)
    · exact (if_neg (Nat.not_le.2 hv)).trans ((if_neg (Classical.not_not.2 hst)).trans (ite_not_fail (mt hlimit.1 hno)))
    · exact (if_neg (Nat.not_le.2 hv)).trans ((if_neg (Classical.not_not.2 hst)).trans ((ite_not_pass (hlimit.2 hin)).trans
        (if_pos hfull)))
    · refine (if_neg (Nat.not_le.2 hv)).trans ((if_neg (Classical.not_not.2 hst)).trans ((ite_not_pass (hlimit.2 hin)).trans
        ((if_neg (Nat.not_lt.2 hroom)).trans ?_)))
      rw [show growHomes (growPool p (s.volume (byteAt p 0)).pool) _ s = none from hnone]
      rfl
    · intro parts records begun
      obtain ⟨hcount, hform⟩ := growHomes_form hsome
      have hlen : homes.length = new - e.count := by rw [hcount, List.length_map, List.length_range]
      have hrecords : growRecords v e.count new pool homes = records := by
        rw [growRecords_eq, hlen]
      have hbegin : serveGrow tag p s = forEach (fun b s => pmWork tag b s) records (s.growing u tag v new pool homes) := by
        refine hserve.trans ((if_neg (Nat.not_le.2 hv)).trans ((if_neg (Classical.not_not.2 hst)).trans
          ((ite_not_pass (hlimit.2 hin)).trans ((if_neg (Nat.not_lt.2 hroom)).trans ?_))))
        rw [show growHomes (growPool p (s.volume (byteAt p 0)).pool) _ s = some (homes, u) from hsome]
        exact (beginGrow_eq hform).trans (congrArg
          (fun l => forEach (fun b s => pmWork tag b s) l (s.growing u tag v new pool homes)) hrecords)
      have hlength : records.length = parts.length + 2 := by
        rw [List.length_append, List.length_cons, List.length_map]
        rfl
      refine ⟨fun ho hqueue hseq => (takeRequest_serves hs).trans ?_, fun ha hfull hwait => (takeRequest_serves hs).trans ?_⟩
      · obtain ⟨hstate, hroom', hwait, -, hop⟩ := ho
        have hadm : s.jc.admission = true := (Bool.and_eq_true_iff.1 hroom').1
        rw [hbegin, finish_grow_open hs.1 (hrecords ▸ growRecords_plain)
          ⟨hstate, hadm, hwait, hop, by omega, by omega⟩ (by omega)]
        rfl
      · have hothers : ∀ x ∈ s.jc.roomWait, x.1 ≠ JOwner.pm := fun x hx he => by
          have : s.waitsForRoom .pm = true := List.any_eq_true.2 ⟨x, hx, decide_eq_true he⟩
          rw [hwait] at this
          cases this
        have hqueued : forEach (fun b s => pmWork tag b s) records (s.growing u tag v new pool homes)
            = { begun with jc := { s.jc with
                roomWait := s.jc.roomWait ++ [(.pm, records.map (fun b => ⟨b, some tag⟩))] } } := by
          have hfirst : pmWork tag (.growOpen v e.count new pool) (s.growing u tag v new pool homes)
              = (s.growing u tag v new pool homes).onJc (fun j => { j with
                  roomWait := s.jc.roomWait ++ [(.pm, [⟨.growOpen v e.count new pool, some tag⟩])] }) := by
            rw [pmWork, queueWork_waits (s := s.growing u tag v new pool homes) ha hfull, State.onJc,
              show (s.growing u tag v new pool homes).jc.roomWait = s.jc.roomWait from rfl, waitFurther_new hothers]
            rfl
          rw [show records = .growOpen v e.count new pool :: (parts.map .growPart ++ [.growClose parts.length]) from rfl,
            forEach, hfirst]
          exact forEach_pmWork_waits (s := (s.growing u tag v new pool homes).onJc (fun j => { j with
            roomWait := s.jc.roomWait ++ [(.pm, [⟨.growOpen v e.count new pool, some tag⟩])] })) ha hfull hothers rfl
        rw [hbegin, hqueued]
        exact congrArg _ (finish_quiet hs.1 rfl rfl (jobsIdle_of_me rfl))
  · intro taken
    have htake : u.takeSlot q .home g = taken :=
      takeSlot_free g (lowestFree_some (chooseSlot_some hq).2).2.1 nofun
    exact ⟨fun h => growHomes_cons_full hq (htake ▸ h), fun more w h => growHomes_cons_some hq (htake ▸ h)⟩

end Sys2Proof.Machine
end

section
/-! PROOFS. Jobs admitted (R71, R72, R90, R91), and the requests about the Damage List (R123, R124). -/

namespace Sys2Proof.Machine

/-! ## A command that leaves jobs -/

/-- A command that leaves no exchange and some job ends in the state it made. -/
theorem finish_notIdle {s t : State} (ha : t.agenda = []) (hc : t.clock = s.clock) (hp : t.pending = s.pending)
    (hj : t.jobsIdle = false) : finish s t = t := by
  rw [finish_idle ha hc hp, offerIdle, hj, Bool.false_and, if_neg Bool.false_ne_true]

theorem jobsIdle_of_jobs {s : State} (h : s.me.jobs ≠ []) : s.jobsIdle = false := by
  rw [State.jobsIdle, List.isEmpty_eq_false_iff.2 h, Bool.false_and]

/-! ## A MOVE job admitted (R72) -/

theorem admitJob_move {j : Job} (hk : j.kind = .move) (s : State) :
    admitJob j s = { s with
      pm := { s.pm with slabs := tableWrite Slab.unused s.pm.slabs j.slab { s.slab j.slab with mark := true } },
      me := { s.me with
        jobs := s.me.jobs ++ [j],
        counters := { s.me.counters with jobsAdmitted := min (s.me.counters.jobsAdmitted + 1) 4294967295 } } } := by
  unfold admitJob
  rw [hk]
  rfl

theorem admitJob_moveJob (g : Nat) (candidates : BitVec 64) (salvage : Bool) (s : State) :
    admitJob (moveJob g candidates salvage) s = { s with
      pm := { s.pm with slabs := tableWrite Slab.unused s.pm.slabs g { s.slab g with mark := true } },
      me := { s.me with
        jobs := s.me.jobs ++ [{ kind := .move, slab := g, candidates := candidates, salvage := salvage, resume := none,
                                retained := none, cause := none }],
        counters := { s.me.counters with jobsAdmitted := min (s.me.counters.jobsAdmitted + 1) 4294967295 } } } :=
  admitJob_move rfl s

theorem admitJob_slab_same {j : Job} (hk : j.kind = .move) (s : State) :
    (admitJob j s).slab j.slab = { s.slab j.slab with mark := true } := by
  rw [admitJob_move hk]
  exact tableRead_tableWrite_same Slab.unused s.pm.slabs j.slab { s.slab j.slab with mark := true }

theorem admitJob_slab_other {j : Job} (hk : j.kind = .move) (s : State) {g : Nat} (h : g ≠ j.slab) :
    (admitJob j s).slab g = s.slab g := by
  rw [admitJob_move hk]
  exact tableRead_tableWrite_other Slab.unused s.pm.slabs { s.slab j.slab with mark := true } h

theorem admitJob_freePlaces {j : Job} (hk : j.kind = .move) (s : State) : (admitJob j s).freePlaces = s.freePlaces - 1 := by
  have hplaces : (admitJob j s).freePlaces
      = Config.maxJobs - ((s.me.jobs ++ [j]).length + s.laneJobs + s.reservedPlaces) := by
    rw [admitJob_move hk]
    rfl
  rw [hplaces, State.freePlaces, List.length_append]
  simp only [List.length_cons, List.length_nil]
  omega

/-- A job of an unmarked slab, with a place left, keeps the law of R71. -/
theorem admitJob_lawful {j : Job} (hk : j.kind = .move) {s : State} (hl : s.jobsLawful) (hm : (s.slab j.slab).mark = false)
    (hf : 0 < s.freePlaces) : (admitJob j s).jobsLawful := by
  obtain ⟨hnodup, hmarked, hplaces⟩ := hl
  have hslabs : (admitJob j s).jobSlabs.Perm (j.slab :: s.jobSlabs) := by
    have hjobs : (admitJob j s).jobSlabs = (s.me.jobs ++ [j]).map Job.slab
        ++ (List.range Config.laneCount).filterMap (fun n => (s.lane n).job.map Job.slab) := by
      rw [admitJob_move hk]
      rfl
    rw [hjobs, List.map_append, List.append_assoc]
    exact List.perm_middle
  have hfresh : j.slab ∉ s.jobSlabs := fun h => by
    rw [hmarked _ h] at hm
    cases hm
  refine ⟨hslabs.nodup_iff.2 (List.nodup_cons.2 ⟨hfresh, hnodup⟩), fun g hg => ?_, ?_⟩
  · by_cases hgj : g = j.slab
    · rw [hgj, admitJob_slab_same hk]
    · rw [admitJob_slab_other hk s hgj]
      exact hmarked g ((List.mem_cons.1 (hslabs.mem_iff.1 hg)).resolve_left hgj)
  · have hlen : (admitJob j s).me.jobs.length + (admitJob j s).laneJobs + (admitJob j s).reservedPlaces
        = s.me.jobs.length + 1 + s.laneJobs + s.reservedPlaces := by
      rw [admitJob_move hk]
      change (s.me.jobs ++ [j]).length + s.laneJobs + s.reservedPlaces = _
      rw [List.length_append]
      rfl
    rw [hlen]
    unfold State.freePlaces at hf
    omega

theorem jobsLawful_of {s t : State} (hme : t.me = s.me) (hpm : t.pm = s.pm) (h : s.jobsLawful) : t.jobsLawful := by
  have hslab (g : Nat) : t.slab g = s.slab g := by rw [State.slab, State.slab, hpm]
  have hslabs : t.jobSlabs = s.jobSlabs := by
    simp only [State.jobSlabs, hme, lane_eq hme]
  have hcount : t.me.jobs.length + t.laneJobs + t.reservedPlaces = s.me.jobs.length + s.laneJobs + s.reservedPlaces := by
    simp only [State.laneJobs, State.reservedPlaces, hme, hpm, lane_eq hme]
  obtain ⟨hnodup, hmarked, hplaces⟩ := h
  refine ⟨hslabs ▸ hnodup, fun g hg => ?_, hcount ▸ hplaces⟩
  rw [hslab]
  exact hmarked g (hslabs ▸ hg)

/-! ## REBALANCE (R90) -/

/-- MOVE jobs of several slabs, admitted one after another. -/
def admitAll (candidates : BitVec 64) (salvage : Bool) (l : List Nat) (s : State) : State :=
  forEach (fun g => admitJob (moveJob g candidates salvage)) l s

theorem movable_other {ids : List Nat} {g g' : Nat} {candidates : BitVec 64} {salvage : Bool} (s : State) (h : g' ≠ g) :
    (admitJob (moveJob g candidates salvage) s).movable ids g' = s.movable ids g' := by
  unfold State.movable
  rw [admitJob_slab_other rfl s h]

/-- What the examination of a list of slabs admits and leaves out. -/
theorem admitMoves_eq {ids : List Nat} {salvage : Bool} {l : List Nat} (hl : l.Nodup) (jobs left : Nat) (s : State) :
    admitMoves ids salvage l jobs left s =
      (jobs + ((l.filter (s.movable ids)).take s.freePlaces).length,
        left + ((l.filter (s.movable ids)).length - ((l.filter (s.movable ids)).take s.freePlaces).length),
        admitAll (poolOf ids) salvage ((l.filter (s.movable ids)).take s.freePlaces) s) := by
  induction l generalizing jobs left s with
  | nil =>
    rw [List.filter_nil, List.take_nil]
    rfl
  | cons g rest ih =>
    obtain ⟨hg, hrest⟩ := List.nodup_cons.1 hl
    rw [admitMoves]
    by_cases hm : s.movable ids g = true
    · rw [if_pos hm, List.filter_cons_of_pos hm]
      by_cases hf : 0 < s.freePlaces
      · have hfilter : rest.filter ((admitJob (moveJob g (poolOf ids) salvage) s).movable ids)
            = rest.filter (s.movable ids) :=
          List.filter_congr fun g' hg' => movable_other s fun he => hg (he ▸ hg')
        obtain ⟨k, hk⟩ : ∃ k, s.freePlaces = k + 1 := ⟨s.freePlaces - 1, by omega⟩
        rw [if_pos hf, ih hrest, hfilter, admitJob_freePlaces rfl, hk, Nat.add_sub_cancel, List.take_succ_cons]
        refine Prod.ext ?_ (Prod.ext ?_ rfl)
        · simp only [List.length_cons]
          omega
        · simp only [List.length_cons]
          omega
      · have hzero : s.freePlaces = 0 := by omega
        rw [if_neg hf, ih hrest, hzero, List.take_zero, List.take_zero]
        refine Prod.ext rfl (Prod.ext ?_ rfl)
        simp only [List.length_cons, List.length_nil]
        omega
    · rw [if_neg hm, ih hrest, List.filter_cons_of_neg hm]

theorem admitAll_form {candidates : BitVec 64} {salvage : Bool} (l : List Nat) (s : State) :
    ∃ slabs, admitAll candidates salvage l s = { s with
      pm := { s.pm with slabs := slabs },
      me := { s.me with
        jobs := s.me.jobs ++ l.map (fun g => moveJob g candidates salvage),
        counters := if l = [] then s.me.counters
          else { s.me.counters with jobsAdmitted := min (s.me.counters.jobsAdmitted + l.length) 4294967295 } } } := by
  induction l generalizing s with
  | nil => exact ⟨s.pm.slabs, by rw [List.map_nil, List.append_nil, if_pos rfl]; rfl⟩
  | cons g rest ih =>
    obtain ⟨slabs, h⟩ := ih (admitJob (moveJob g candidates salvage) s)
    refine ⟨slabs, h.trans ?_⟩
    have hcount : (if rest = [] then (admitJob (moveJob g candidates salvage) s).me.counters
        else { (admitJob (moveJob g candidates salvage) s).me.counters with
          jobsAdmitted := min ((admitJob (moveJob g candidates salvage) s).me.counters.jobsAdmitted + rest.length)
            4294967295 })
        = { s.me.counters with jobsAdmitted := min (s.me.counters.jobsAdmitted + (rest.length + 1)) 4294967295 } := by
      rw [admitJob_move rfl]
      by_cases hr : rest = []
      · rw [if_pos hr, hr]
        rfl
      · rw [if_neg hr]
        have hmin : min (min (s.me.counters.jobsAdmitted + 1) 4294967295 + rest.length) 4294967295
            = min (s.me.counters.jobsAdmitted + (rest.length + 1)) 4294967295 := by omega
        dsimp only
        rw [hmin]
    rw [hcount, if_neg (List.cons_ne_nil g rest), List.length_cons, admitJob_move rfl, List.map_cons]
    dsimp only
    rw [List.append_assoc]
    rfl

theorem admitAll_slab_other {candidates : BitVec 64} {salvage : Bool} {l : List Nat} {g : Nat} (s : State) (h : g ∉ l) :
    (admitAll candidates salvage l s).slab g = s.slab g := by
  induction l generalizing s with
  | nil => rfl
  | cons k rest ih =>
    obtain ⟨hk, hrest⟩ := not_or.1 (mt List.mem_cons.2 h)
    exact (ih (admitJob (moveJob k candidates salvage) s) hrest).trans (admitJob_slab_other rfl s hk)

theorem admitAll_slab_named {candidates : BitVec 64} {salvage : Bool} {l : List Nat} {g : Nat} (s : State) (hl : l.Nodup)
    (h : g ∈ l) : (admitAll candidates salvage l s).slab g = { s.slab g with mark := true } := by
  induction l generalizing s with
  | nil => cases h
  | cons k rest ih =>
    obtain ⟨hk, hrest⟩ := List.nodup_cons.1 hl
    rcases List.mem_cons.1 h with rfl | h
    · exact (admitAll_slab_other (admitJob (moveJob g candidates salvage) s) hk).trans (admitJob_slab_same rfl s)
    · have hne : g ≠ k := fun he => hk (he ▸ h)
      refine (ih (admitJob (moveJob k candidates salvage) s) hrest h).trans ?_
      rw [admitJob_slab_other rfl s hne]

theorem admitAll_lawful {candidates : BitVec 64} {salvage : Bool} {l : List Nat} {s : State} (hl : l.Nodup)
    (hs : s.jobsLawful) (hm : ∀ g ∈ l, (s.slab g).mark = false) (hf : l.length ≤ s.freePlaces) :
    (admitAll candidates salvage l s).jobsLawful := by
  induction l generalizing s with
  | nil => exact hs
  | cons g rest ih =>
    obtain ⟨hg, hrest⟩ := List.nodup_cons.1 hl
    rw [List.length_cons] at hf
    refine ih (s := admitJob (moveJob g candidates salvage) s) hrest
      (admitJob_lawful rfl hs (hm g List.mem_cons_self) (by omega)) (fun k hk => ?_) ?_
    · have hne : k ≠ g := fun he => hg (he ▸ hk)
      rw [admitJob_slab_other (j := moveJob g candidates salvage) rfl s hne]
      exact hm k (List.mem_cons_of_mem g hk)
    · rw [admitJob_freePlaces rfl]
      omega

theorem slabIndices_nodup (e : Volume) : e.slabIndices.Nodup :=
  List.pairwise_map.2 (List.nodup_range.imp fun hne h => hne (Nat.add_left_cancel h))

theorem rebalanceForm_iff (p : List Byte) :
    (decide (byteAt p 0 < 4) && flagOk (byteAt p 1) && decide (1 ≤ (bytesFrom p 2).length)
        && decide ((bytesFrom p 2).length ≤ 16) && (bytesFrom p 2).all (fun t => decide (t < 64))
        && allDistinct (bytesFrom p 2)) = true
      ↔ byteAt p 0 < 4 ∧ byteAt p 1 < 2 ∧ 1 ≤ (bytesFrom p 2).length ∧ (bytesFrom p 2).length ≤ 16
          ∧ (∀ k ∈ bytesFrom p 2, k < 64) ∧ (bytesFrom p 2).Nodup := by
  simp only [flagOk, Bool.and_eq_true, decide_eq_true_eq, List.all_eq_true, allDistinct_iff, Nat.lt_succ_iff, and_assoc]

theorem flag_eq {b : Nat} (h : b < 2) : (b != 0) = decide (b = 1) := by
  have : b = 0 ∨ b = 1 := by omega
  rcases this with rfl | rfl <;> rfl

/-- Settles O39: the refusals, and the jobs that the examination admits. -/
theorem rebalanceAdmitsJobs : Obligations.RebalanceAdmitsJobs := by
  intro s tag p hs v ids e form moved admitted
  have hform := rebalanceForm_iff p
  refine ⟨fun hno => takeRequest_answers hs ?_, fun hyes hst => takeRequest_answers hs ?_, fun hyes hst => ?_⟩
  · exact ite_not_fail (mt hform.1 hno)
  · exact (ite_not_pass (hform.2 hyes)).trans (if_pos hst)
  · have hmovednodup : moved.Nodup := (slabIndices_nodup e).filter _
    have hadmitted : admitted.Nodup := hmovednodup.sublist (List.take_sublist _ _)
    let t := admitAll (poolOf ids) (byteAt p 1 != 0) admitted s
    obtain ⟨slabs, hform'⟩ := admitAll_form (candidates := poolOf ids) (salvage := byteAt p 1 != 0) admitted s
    have ht : t = _ := hform'
    have hserve : serveRebalance tag p s
        = t.answer tag .ok (.rebalanced admitted.length (moved.length - admitted.length)) := by
      refine (ite_not_pass (hform.2 hyes)).trans ((if_neg (Classical.not_not.2 hst)).trans ?_)
      rw [admitMoves_eq (slabIndices_nodup _), Nat.zero_add, Nat.zero_add]
      rfl
    have hmp : t.mp = s.mp := by rw [ht]
    have hanswer := answer_of_mp tag .ok (.rebalanced admitted.length (moved.length - admitted.length)) hmp
    have hfinish : finish s (t.answer tag .ok (.rebalanced admitted.length (moved.length - admitted.length)))
        = t.answer tag .ok (.rebalanced admitted.length (moved.length - admitted.length)) := by
      by_cases hnil : admitted = []
      · refine finish_quiet ?_ ?_ ?_ (jobsIdle_of_me ?_) <;> rw [hanswer, ht, hnil]
        · exact hs.1
        · rw [List.map_nil, List.append_nil, if_pos rfl]
      · refine finish_notIdle ?_ ?_ ?_ (jobsIdle_of_jobs ?_) <;> rw [hanswer, ht]
        · exact hs.1
        · simpa using fun _ => hnil
    have hme : (t.answer tag .ok (.rebalanced admitted.length (moved.length - admitted.length))).me = t.me := answer_me ..
    have hpm : (t.answer tag .ok (.rebalanced admitted.length (moved.length - admitted.length))).pm = t.pm := by
      rw [hanswer]
    have hslab (g : Nat) : (t.answer tag .ok (.rebalanced admitted.length (moved.length - admitted.length))).slab g
        = t.slab g := by rw [State.slab, hpm]; rfl
    refine ⟨t.answer tag .ok (.rebalanced admitted.length (moved.length - admitted.length)), ?_, ?_, ?_, ?_, ?_, ?_, ?_, ?_,
      ?_⟩
    · rw [show exec (.rebalance tag) s = takeRequest .rebalance tag (serveRebalance tag) s from rfl, takeRequest_serves hs,
        hserve, hfinish]
    · rw [hme, ht]
      simp only [moveJob, flag_eq hyes.2.1]
    · exact fun g hg => (hslab g).trans (admitAll_slab_named s hadmitted hg)
    · exact fun g hg => (hslab g).trans (admitAll_slab_other s hg)
    · rw [hanswer]
    · exact fun hnil => by rw [hme, ht]; exact if_pos hnil
    · exact fun hne => by rw [hme, ht]; exact if_neg hne
    · refine fun hl => jobsLawful_of hme hpm (admitAll_lawful hadmitted hl (fun g hg => ?_) ?_)
      · have hmovable := (List.mem_filter.1 (List.mem_of_mem_take hg)).2
        simp only [Bool.and_eq_true, Bool.not_eq_true'] at hmovable
        exact hmovable.1.2
      · rw [List.length_take]
        exact Nat.min_le_left _ _
    · rw [hanswer, ht]
      exact ⟨rfl, rfl, rfl, rfl, rfl, rfl, rfl, rfl, rfl, rfl, rfl, rfl⟩

/-! ## MOVE (R91) -/

theorem moveRefusal_stages (s : State) (v t salvage k : Nat) :
    s.moveRefusal v t salvage k =
      if !(decide (v < 4) && decide (t < 64) && flagOk salvage) then some .badField
      else if (s.volume v).state ≠ .online then some .wrongState
      else if (s.volume v).count ≤ k then some .outOfRange
      else if (s.slab ((s.volume v).base + k)).state = .filling ∨ (s.slab ((s.volume v).base + k)).mark = true then
        some .wrongState
      else if (s.slab ((s.volume v).base + k)).home.set = t then some .wrongState
      else if s.freePlaces = 0 then some .busy
      else none := rfl

theorem poolOf_single (t : Nat) : poolOf [t] = 1#64 <<< t := by
  simp [poolOf]

/-- Settles O40: the checks in order, and the one job admitted. -/
theorem moveAdmitsJob : Obligations.MoveAdmitsJob := by
  intro s tag p hs v target e k g b refused form free
  have hform : (decide (v < 4) && decide (target < 64) && flagOk (byteAt p 2)) = true ↔ form := by
    simp only [flagOk, Bool.and_eq_true, decide_eq_true_eq, and_assoc]
    exact and_congr Iff.rfl (and_congr Iff.rfl Nat.lt_succ_iff.symm)
  have refuse {r : Result} (h : s.moveRefusal v target (byteAt p 2) k = some r) : refused r :=
    takeRequest_answers hs (by simp only [serveMove]; rw [show s.moveRefusal _ _ _ _ = some r from h]; rfl)
  refine ⟨fun hno => refuse ?_, fun hyes hst => refuse ?_, fun hyes hst hk => refuse ?_, fun hyes hst hk hno => refuse ?_,
    fun hyes hst hk hfree hfull => refuse ?_, fun hyes hst hk hfree hroom => ?_⟩
  · rw [moveRefusal_stages, ite_not_fail (mt hform.1 hno)]
  · rw [moveRefusal_stages, ite_not_pass (hform.2 hyes), if_pos hst]
  · rw [moveRefusal_stages, ite_not_pass (hform.2 hyes), if_neg (Classical.not_not.2 hst), if_pos hk]
  · rw [moveRefusal_stages, ite_not_pass (hform.2 hyes), if_neg (Classical.not_not.2 hst), if_neg (Nat.not_le.2 hk)]
    by_cases hmark : b.state = .filling ∨ b.mark = true
    · exact if_pos hmark
    · refine (if_neg hmark).trans (if_pos ?_)
      refine Classical.byContradiction fun hhome => ?_
      obtain ⟨hfilling, hmarked⟩ := not_or.1 hmark
      exact hno ⟨hfilling, Bool.eq_false_iff.2 hmarked, hhome⟩
  · obtain ⟨hfilling, hmarked, hhome⟩ := hfree
    rw [moveRefusal_stages, ite_not_pass (hform.2 hyes), if_neg (Classical.not_not.2 hst), if_neg (Nat.not_le.2 hk)]
    refine (if_neg (not_or.2 ⟨hfilling, Bool.eq_false_iff.1 hmarked⟩)).trans ((if_neg hhome).trans (if_pos hfull))
  · obtain ⟨hfilling, hmarked, hhome⟩ := hfree
    intro t
    have hpasses : s.moveRefusal v target (byteAt p 2) k = none := by
      rw [moveRefusal_stages, ite_not_pass (hform.2 hyes), if_neg (Classical.not_not.2 hst), if_neg (Nat.not_le.2 hk)]
      exact (if_neg (not_or.2 ⟨hfilling, Bool.eq_false_iff.1 hmarked⟩)).trans ((if_neg hhome).trans
        (if_neg (Nat.ne_of_gt hroom)))
    let j := moveJob g (1#64 <<< target) (decide (byteAt p 2 = 1))
    have ht : t = (admitJob j s).answer tag .ok (.moved g) := by
      rw [admitJob_moveJob]
    have hserve : serveMove tag p s = t := by
      simp only [serveMove]
      rw [show s.moveRefusal _ _ _ _ = none from hpasses, ht, poolOf_single, flag_eq hyes.2.2]
    have hanswer : (admitJob j s).answer tag .ok (.moved g)
        = { admitJob j s with mp := (s.answer tag .ok (.moved g)).mp } :=
      answer_of_mp tag .ok (.moved g) (by rw [admitJob_move rfl])
    refine ⟨(takeRequest_serves hs).trans ?_, fun hl => ?_⟩
    · rw [hserve, ht]
      refine congrArg _ (finish_notIdle ?_ ?_ ?_ (jobsIdle_of_jobs ?_)) <;> rw [hanswer, admitJob_move rfl]
      · exact hs.1
      · exact List.append_ne_nil_of_right_ne_nil _ (List.cons_ne_nil _ _)
    · rw [ht, hanswer]
      exact jobsLawful_of (s := admitJob j s) rfl rfl (admitJob_lawful rfl hl hmarked hroom)

/-! ## The Damage List read and cleared (R123, R124) -/

theorem damageTouches_iff {v first count : Nat} {l : List Damage} :
    damageTouches v first count l = true
      ↔ l.filter (fun d => d.volume = v ∧ d.first < first + count ∧ first < d.first + d.count) ≠ [] := by
  rw [damageTouches, List.any_eq_true, Ne, List.filter_eq_nil_iff]
  simp only [Bool.and_eq_true, decide_eq_true_eq, and_assoc, Classical.not_forall, Classical.not_not, exists_prop]
  exact Iff.rfl

theorem damageSplits_iff {v first count : Nat} {l : List Damage} :
    damageSplits v first count l = true
      ↔ l.filter (fun d => d.volume = v ∧ d.first < first ∧ first + count < d.first + d.count) ≠ [] := by
  rw [damageSplits, List.any_eq_true, Ne, List.filter_eq_nil_iff]
  simp only [Bool.and_eq_true, decide_eq_true_eq, and_assoc, Classical.not_forall, Classical.not_not, exists_prop]
  exact Iff.rfl

/-- A DAMAGE_CLEAR that touches an entry, and has room for the entry it splits, changes the list as its record is queued. -/
theorem queueWork_damageClear {v first count : Nat} {tag : ReqTag} {s : State} (h : s.journalOpen)
    (ht : damageTouches v first count s.me.damage = true)
    (hroom : (damageSplits v first count s.me.damage && decide (Config.maxDamage ≤ s.me.damage.length)) = false) :
    queueWork .me ⟨.damageClear v first count, some tag⟩ s =
      ((clearDamage v first count s).withRecord .me (.damageClear v first count) (some tag)).post
        (.recordQueued ⟨s.jc.nextSeq, .damageClear v first count, .me, some tag⟩) := by
  obtain ⟨hw, hr, hl, hn, ho⟩ := h
  have henter : enterRecord .me ⟨.damageClear v first count, some tag⟩ s
      = numberRecord .me ⟨.damageClear v first count, some tag⟩ (clearDamage v first count s) := by
    refine (if_pos hn).trans ?_
    refine (ite_not_pass ht).trans (if_neg ?_)
    rw [hroom]
    exact Bool.false_ne_true
  unfold queueWork
  rw [if_pos (by rw [Journal.active, hw]; rfl), if_pos (by rw [hr, hl]; rfl), henter]
  obtain ⟨r, hnr⟩ := nextRecord_some
    (j := { s.jc with queue := s.jc.queue ++ [⟨s.jc.nextSeq, .damageClear v first count, .me, some tag⟩],
                      nextSeq := s.jc.nextSeq + 1 })
    (List.append_ne_nil_of_right_ne_nil _ (List.cons_ne_nil _ _))
  exact kickStore_started
    (s := numberRecord .me ⟨.damageClear v first count, some tag⟩ (clearDamage v first count s)) hw ho hnr

/-- Settles O43: each check of the two requests in its place, and the record of an accepted DAMAGE_CLEAR. -/
theorem damageRequests : Obligations.DamageRequests := by
  intro s tag p
  constructor
  · intro hs start count
    refine ⟨fun hbad => takeRequest_answers hs (if_pos ?_), fun h1 h2 h3 => takeRequest_answers hs (if_neg ?_)⟩
    · simp only [Bool.not_eq_true', Bool.and_eq_false_iff, decide_eq_false_iff_not]
      omega
    · simp only [Bool.not_eq_true', Bool.and_eq_false_iff, decide_eq_false_iff_not]
      omega
  intro hs v first count overlapping split
  have formed (hv : v < 4) (hc : 1 ≤ count) : (decide (v < 4) && decide (1 ≤ count)) = true := by
    rw [decide_eq_true hv, decide_eq_true hc]
    rfl
  have ready (hr : s.part = .ready) : ¬ s.part = .frozen := by
    rw [hr]
    nofun
  have covers (h : damageTouches v first count s.me.damage = false) : damageSplits v first count s.me.damage = false := by
    refine List.any_eq_false.2 fun d hd hsplit => List.any_eq_false.1 h d hd ?_
    simp only [Bool.and_eq_true, decide_eq_true_eq] at hsplit ⊢
    omega
  refine ⟨fun hbad => takeRequest_answers hs (if_pos ?_),
    fun hv hc hf => takeRequest_answers hs ((ite_not_pass (formed hv hc)).trans (if_pos hf)), fun hv hc hr =>
      ⟨fun hsplit hfull => takeRequest_answers hs
        ((ite_not_pass (formed hv hc)).trans ((if_neg (ready hr)).trans (if_pos ?_))),
      fun hno => takeRequest_answers hs ?_, fun hsome hroom ho => ?_⟩⟩
  · simp only [Bool.not_eq_true', Bool.and_eq_false_iff, decide_eq_false_iff_not]
    omega
  · rw [damageSplits_iff.2 hsplit]
    exact decide_eq_true hfull
  · have htouch : damageTouches v first count s.me.damage = false :=
      Bool.eq_false_iff.2 (mt damageTouches_iff.1 (Classical.not_not.2 hno))
    refine (ite_not_pass (formed hv hc)).trans ((if_neg (ready hr)).trans ((if_neg ?_).trans (if_pos ?_)))
    · rw [covers htouch]
      exact Bool.false_ne_true
    · rw [htouch]
      rfl
  · have htouch : damageTouches v first count s.me.damage = true := damageTouches_iff.2 hsome
    have hfits : (damageSplits v first count s.me.damage && decide (Config.maxDamage ≤ s.me.damage.length)) = false := by
      rcases hroom with h | h
      · rw [Bool.eq_false_iff.2 (mt damageSplits_iff.1 (Classical.not_not.2 h)), Bool.false_and]
      · exact Bool.and_eq_false_iff.2 (Or.inr (decide_eq_false (Nat.not_le.2 h)))
    let t := (clearDamage v first count (s.markTaken tag)).withRecord .me (.damageClear v first count) (some tag)
    have hserve : serveDamageClear tag p s
        = t.post (.recordQueued ⟨s.jc.nextSeq, .damageClear v first count, .me, some tag⟩) := by
      refine (ite_not_pass (formed hv hc)).trans ((if_neg (ready hr)).trans ((if_neg ?_).trans
        ((ite_not_pass htouch).trans (queueWork_damageClear ho htouch hfits))))
      rw [hfits]
      exact Bool.false_ne_true
    have hstill : handle (.recordQueued ⟨s.jc.nextSeq, .damageClear v first count, .me, some tag⟩) t = t :=
      ownerQueued_still (r := ⟨s.jc.nextSeq, .damageClear v first count, .me, some tag⟩) (Or.inr (Or.inr (Or.inr (Or.inl rfl))))
    refine ⟨t, (takeRequest_serves hs).trans ?_, rfl, rfl, rfl, rfl, rfl, rfl⟩
    rw [hserve]
    exact next_post (u := t) hs.1 hstill hs.1 rfl rfl rfl

end Sys2Proof.Machine
end

section
/-! PROOFS. The geometry of a set: its rows and slots, and the place of an offset (R6, R21). -/

namespace Sys2Proof.Machine

/-! ## Rows and slots (R6) -/

theorem rowSpan_pos {w u : Nat} (hw : 2 ≤ w) (hu : 1 ≤ u) : 0 < rowSpan w u := Nat.mul_pos (by omega) hu

/-- R is the smallest row count whose data capacity reaches S. -/
theorem rowsPerSlot_spec {S w u : Nat} (hw : 2 ≤ w) (hu : 1 ≤ u) (hS : 1 ≤ S) :
    S ≤ rowsPerSlot S w u * rowSpan w u ∧ (rowsPerSlot S w u - 1) * rowSpan w u < S := by
  have hspan := rowSpan_pos hw hu
  have hdiv := Nat.div_add_mod (S + rowSpan w u - 1) (rowSpan w u)
  have hmod := Nat.mod_lt (S + rowSpan w u - 1) hspan
  rw [Nat.mul_comm] at hdiv
  refine ⟨?_, ?_⟩
  · rw [rowsPerSlot]
    omega
  · rw [rowsPerSlot, Nat.sub_mul, Nat.one_mul]
    omega

theorem slotCount_spec {S w u B : Nat} (hrows : 0 < rowsPerSlot S w u * u) :
    slotCount S w u B * (rowsPerSlot S w u * u) ≤ B ∧ slotCount S w u B ≤ 1024
      ∧ (slotCount S w u B = 1024 ∨ B < (slotCount S w u B + 1) * (rowsPerSlot S w u * u)) := by
  refine ⟨Nat.le_trans (Nat.mul_le_mul_right _ (Nat.min_le_right _ _)) (Nat.div_mul_le_self _ _), Nat.min_le_left _ _, ?_⟩
  rcases Nat.le_total 1024 (B / (rowsPerSlot S w u * u)) with h | h
  · exact Or.inl (Nat.min_eq_left h)
  · refine Or.inr ?_
    rw [slotCount, Nat.min_eq_right h]
    exact (Nat.div_lt_iff_lt_mul hrows).1 (Nat.lt_succ_self _)

/-! ## The place of an offset (R21) -/

/-- An offset is its row, its data unit in the row, and its block in the unit. -/
theorem offset_split (o d u : Nat) : o = o / (d * u) * (d * u) + o % (d * u) / u * u + o % u := by
  have hrow := Nat.div_add_mod o (d * u)
  have hunit := Nat.div_add_mod (o % (d * u)) u
  rw [Nat.mul_comm] at hrow hunit
  rw [Nat.mod_mul_left_mod] at hunit
  omega

theorem dataUnit_lt {o d u : Nat} (hd : 0 < d) (hu : 0 < u) : o % (d * u) / u < d :=
  (Nat.div_lt_iff_lt_mul hu).2 (Nat.mod_lt _ (Nat.mul_pos hd hu))

theorem dataPosition_ne_parity (w r j : Nat) : dataPosition w r j ≠ parityPosition w r := by
  unfold dataPosition
  split <;> omega

theorem dataPosition_lt {w r j : Nat} (hj : j < w - 1) : dataPosition w r j < w := by
  unfold dataPosition
  split <;> omega

theorem dataPosition_injective {w r j j' : Nat} (h : dataPosition w r j = dataPosition w r j') : j = j' := by
  unfold dataPosition at h
  split at h <;> split at h <;> omega

theorem memberBlock_eq (e : SetEntry) (k o : Nat) :
    memberBlock e k o =
      ((unitBlocks e k (o / rowSpan e.width e.unit)
          (dataPosition e.width (o / rowSpan e.width e.unit) (o % rowSpan e.width e.unit / e.unit))).1,
        (unitBlocks e k (o / rowSpan e.width e.unit)
          (dataPosition e.width (o / rowSpan e.width e.unit) (o % rowSpan e.width e.unit / e.unit))).2 + o % e.unit) := by
  have hwithin : o - o / rowSpan e.width e.unit * rowSpan e.width e.unit = o % rowSpan e.width e.unit := by
    rw [Nat.mul_comm, Nat.mod_eq_sub_mul_div]
  have hblock : o % rowSpan e.width e.unit % e.unit = o % e.unit := Nat.mod_mul_left_mod o (e.width - 1) e.unit
  rw [memberBlock, hwithin, hblock]

/-- Positions of one member are one position. -/
theorem position_injective {e : SetEntry} (hn : (e.positions.map Position.member).Nodup) {m m' : Nat}
    (hm : m < e.positions.length) (hm' : m' < e.positions.length)
    (h : (e.positions.getD m ⟨0, 0⟩).member = (e.positions.getD m' ⟨0, 0⟩).member) : m = m' := by
  rw [getD_of_lt _ hm, getD_of_lt _ hm'] at h
  refine (List.getElem_inj (h₀ := by rwa [List.length_map]) (h₁ := by rwa [List.length_map]) hn).1 ?_
  rw [List.getElem_map, List.getElem_map]
  exact h

/-- Two blocks of one set that are the same block of the same member are the same block of the same unit. -/
theorem unitBlocks_injective {e : SetEntry} (hn : (e.positions.map Position.member).Nodup) {k k' r r' m m' i i' : Nat}
    (hm : m < e.positions.length) (hm' : m' < e.positions.length) (hr : r < e.rows) (hr' : r' < e.rows)
    (hi : i < e.unit) (hi' : i' < e.unit)
    (h : ((unitBlocks e k r m).1, (unitBlocks e k r m).2 + i) = ((unitBlocks e k' r' m').1, (unitBlocks e k' r' m').2 + i')) :
    k = k' ∧ r = r' ∧ m = m' ∧ i = i' := by
  obtain ⟨hmember, hblock⟩ := Prod.mk.inj h
  obtain rfl := position_injective hn hm hm' hmember
  have hsum : (k * e.rows + r) * e.unit + i = (k' * e.rows + r') * e.unit + i' := by
    simp only [unitBlocks] at hblock
    rw [Nat.add_mul, Nat.add_mul]
    omega
  have hu : 0 < e.unit := by omega
  have hR : 0 < e.rows := by omega
  have hunit : k * e.rows + r = k' * e.rows + r' := by
    have hdiv := congrArg (· / e.unit) hsum
    simpa [Nat.mul_add_div, Nat.mul_comm _ e.unit, Nat.div_eq_of_lt hi, Nat.div_eq_of_lt hi', hu] using hdiv
  have hslot : k = k' := by
    have hdiv := congrArg (· / e.rows) hunit
    simpa [Nat.mul_add_div, Nat.mul_comm _ e.rows, Nat.div_eq_of_lt hr, Nat.div_eq_of_lt hr', hR] using hdiv
  subst hslot
  rw [hunit] at hsum
  omega

/-- Settles O58: the geometry by the rule of division, the places by the uniqueness of row, unit and block. -/
theorem geometryPlacesOffsets : Obligations.GeometryPlacesOffsets := by
  refine ⟨fun S w u B hw hu hS => ?_, fun e hlen hw hu hn => ?_⟩
  · obtain ⟨hreach, hleast⟩ := rowsPerSlot_spec hw hu hS
    have hrows : 0 < rowsPerSlot S w u := Nat.pos_of_ne_zero fun h => by
      rw [h, Nat.zero_mul] at hreach
      omega
    exact ⟨hreach, hleast, slotCount_spec (Nat.mul_pos hrows hu)⟩
  have hspan := rowSpan_pos hw hu
  have hrow {o : Nat} (ho : o < e.rows * ((e.width - 1) * e.unit)) : o / rowSpan e.width e.unit < e.rows :=
    (Nat.div_lt_iff_lt_mul hspan).2 ho
  have hposition (r o : Nat) : dataPosition e.width r (o % rowSpan e.width e.unit / e.unit) < e.positions.length :=
    hlen ▸ dataPosition_lt (dataUnit_lt (by omega) hu)
  refine ⟨fun k o => ?_, fun k k' o o' ho ho' h => ?_, fun k k' o r i ho hr hi => ?_⟩
  · rw [memberBlock_eq]
    have hwithin : o - o / rowSpan e.width e.unit * rowSpan e.width e.unit = o % rowSpan e.width e.unit := by
      rw [Nat.mul_comm, Nat.mod_eq_sub_mul_div]
    rw [← hwithin]
    rfl
  · rw [memberBlock_eq, memberBlock_eq] at h
    obtain ⟨hk, hr, hm, hi⟩ := unitBlocks_injective hn (hposition _ o) (hposition _ o') (hrow ho) (hrow ho')
      (Nat.mod_lt o hu) (Nat.mod_lt o' hu) h
    rw [← hr] at hm
    have hj := dataPosition_injective hm
    refine ⟨hk, ?_⟩
    rw [offset_split o (e.width - 1) e.unit, offset_split o' (e.width - 1) e.unit]
    simp only [rowSpan] at hr hj
    rw [hr, hj, hi]
  · intro parity h
    rw [memberBlock_eq] at h
    have hparity : parityPosition e.width r < e.positions.length := by
      rw [hlen, parityPosition]
      omega
    obtain ⟨-, hr, hm, -⟩ := unitBlocks_injective hn (hposition _ o) hparity (hrow ho) hr (Nat.mod_lt o hu) hi h
    rw [hr] at hm
    exact dataPosition_ne_parity _ _ _ hm

end Sys2Proof.Machine
end

section
/-! PROOFS. The Damage List: adding and removing a range (R120, R121, R124). -/

namespace Sys2Proof.Machine

/-! ## The blocks that a list covers -/

/-- An entry holds a block of a volume. -/
def Damage.holds (e : Damage) (v b : Nat) : Prop := e.volume = v ∧ e.first ≤ b ∧ b < e.first + e.count

/-- A list covers a block of a volume. -/
def covers (l : List Damage) (v b : Nat) : Prop := ∃ e ∈ l, e.holds v b

/-- The entries are not empty, and in order without an overlap (R120). -/
def ordered (l : List Damage) : Prop := (∀ e ∈ l, 1 ≤ e.count) ∧ l.Pairwise Damage.before

theorem covers_damageInsert {d : Damage} {l : List Damage} {v b : Nat} :
    covers (damageInsert d l) v b ↔ d.holds v b ∨ covers l v b := by
  simp only [covers, mem_damageInsert, or_and_right, exists_or, exists_eq_left]

/-! ## Removing a range (R124) -/

/-- What is left of an entry holds the entry's blocks beyond the range. -/
theorem covers_damageCut {v first stop w b : Nat} {e : Damage} :
    covers (damageCut v first stop e) w b ↔ e.holds w b ∧ ¬(w = v ∧ first ≤ b ∧ b < stop) := by
  unfold damageCut
  split
  · next hcut =>
    obtain ⟨hv, hlow, hhigh⟩ := hcut
    have hstop : e.stop = e.first + e.count := rfl
    simp only [covers, Damage.holds, List.mem_append, List.mem_ite_nil_right, List.mem_singleton, or_and_right, and_assoc,
      exists_or, exists_and_left, exists_eq_left]
    omega
  · next hkeep =>
    simp only [covers, Damage.holds, List.mem_singleton, exists_eq_left, Damage.stop] at hkeep ⊢
    omega

theorem covers_damageRemove {v first count w b : Nat} {l : List Damage} :
    covers (damageRemove v first count l) w b ↔ covers l w b ∧ ¬(w = v ∧ first ≤ b ∧ b < first + count) := by
  constructor
  · rintro ⟨d, hd, hb⟩
    obtain ⟨e, he, hd⟩ := List.mem_flatMap.1 hd
    obtain ⟨hheld, hout⟩ := covers_damageCut.1 ⟨d, hd, hb⟩
    exact ⟨⟨e, he, hheld⟩, hout⟩
  · rintro ⟨⟨e, he, hheld⟩, hout⟩
    obtain ⟨d, hd, hb⟩ := covers_damageCut.2 ⟨hheld, hout⟩
    exact ⟨d, List.mem_flatMap.2 ⟨e, he, hd⟩, hb⟩

theorem ordered_damageRemove {v first count : Nat} {l : List Damage} (h : ordered l) :
    ordered (damageRemove v first count l) := by
  refine ⟨fun d hd => ?_, damageRemove_pairwise h.1 h.2⟩
  obtain ⟨e, he, hd⟩ := List.mem_flatMap.1 hd
  exact (mem_damageCut (h.1 e he) hd).1

/-! ## Taking the merged entries out -/

/-- The list without the first occurrence of each of some entries. -/
def withoutEach (merged l : List Damage) : List Damage := merged.foldl (fun k a => removeFirst a k) l

theorem mem_removeFirst {a e : Damage} {l : List Damage} (he : e ∈ l) (hne : e ≠ a) : e ∈ removeFirst a l := by
  induction l with
  | nil => exact he
  | cons x rest ih =>
    unfold removeFirst
    split
    · next hx => exact (List.mem_cons.1 he).resolve_left fun h => hne (h.trans hx)
    · exact (List.mem_cons.1 he).elim (fun h => h ▸ List.mem_cons_self) fun h => List.mem_cons_of_mem _ (ih h)

theorem withoutEach_sublist (merged l : List Damage) : (withoutEach merged l).Sublist l := by
  induction merged generalizing l with
  | nil => exact List.Sublist.refl l
  | cons a rest ih => exact (ih (removeFirst a l)).trans (removeFirst_sublist a l)

theorem mem_withoutEach {merged l : List Damage} {e : Damage} (he : e ∈ l) (hne : e ∉ merged) : e ∈ withoutEach merged l := by
  induction merged generalizing l with
  | nil => exact he
  | cons a rest ih =>
    rw [List.mem_cons, not_or] at hne
    exact ih (mem_removeFirst he hne.1) hne.2

theorem ordered_sublist {l k : List Damage} (hs : k.Sublist l) (h : ordered l) : ordered k :=
  ⟨fun e he => h.1 e (hs.subset he), h.2.sublist hs⟩

theorem not_mem_withoutEach {merged l : List Damage} {e : Damage} (h : ordered l) (he : e ∈ merged) :
    e ∉ withoutEach merged l := by
  induction merged generalizing l with
  | nil => cases he
  | cons a rest ih =>
    rcases List.mem_cons.1 he with rfl | he
    · exact fun hin => not_mem_removeFirst h.1 h.2 ((withoutEach_sublist rest _).subset hin)
    · exact ih (ordered_sublist (removeFirst_sublist a l) h) he

theorem length_withoutEach {merged l : List Damage} (hn : merged.Nodup) (hm : ∀ a ∈ merged, a ∈ l) :
    (withoutEach merged l).length + merged.length = l.length := by
  induction merged generalizing l with
  | nil => rfl
  | cons a rest ih =>
    rw [List.nodup_cons] at hn
    have hrest : ∀ b ∈ rest, b ∈ removeFirst a l := fun b hb =>
      mem_removeFirst (hm b (List.mem_cons_of_mem _ hb)) fun h => hn.1 (h ▸ hb)
    have hfirst := length_removeFirst (hm a List.mem_cons_self)
    have hlen := ih hn.2 hrest
    simp only [withoutEach, List.foldl_cons, List.length_cons] at hlen ⊢
    omega

/-! ## Adding a part (R121) -/

/-- An entry that a part continues: of its volume and cause, ending where the part begins, and not too long with it. -/
def leftOf (v : Nat) (cause : DamageCause) (first stop : Nat) (e : Damage) : Bool :=
  e.volume = v && e.cause = cause && e.stop = first && stop - e.first ≤ maxDamageCount

/-- An entry that continues a part. -/
def rightOf (v : Nat) (cause : DamageCause) (first stop : Nat) (e : Damage) : Bool :=
  e.volume = v && e.cause = cause && e.first = stop && e.stop - first ≤ maxDamageCount

theorem leftOf_iff {v first stop : Nat} {cause : DamageCause} {e : Damage} :
    leftOf v cause first stop e = true
      ↔ e.volume = v ∧ e.cause = cause ∧ e.first + e.count = first ∧ stop - e.first ≤ 4294967295 := by
  simp only [leftOf, Bool.and_eq_true, decide_eq_true_eq, and_assoc]
  exact Iff.rfl

theorem rightOf_iff {v first stop : Nat} {cause : DamageCause} {e : Damage} :
    rightOf v cause first stop e = true
      ↔ e.volume = v ∧ e.cause = cause ∧ e.first = stop ∧ e.first + e.count - first ≤ 4294967295 := by
  simp only [rightOf, Bool.and_eq_true, decide_eq_true_eq, and_assoc]
  exact Iff.rfl

/-- The entry that a part becomes with the entries it merges with. -/
def mergedEntry (v : Nat) (cause : DamageCause) (first stop : Nat) (left right : Option Damage) : Damage :=
  ⟨v, left.elim first Damage.first, right.elim stop Damage.stop - left.elim first Damage.first, cause⟩

/-- The list with a part merged with the entries on its left and its right. -/
def mergePart (v : Nat) (cause : DamageCause) (first stop : Nat) (left right : Option Damage) (l : List Damage) : List Damage :=
  damageInsert (mergedEntry v cause first stop left right) (withoutEach (left.toList ++ right.toList) l)

theorem addPart_eq (v : Nat) (cause : DamageCause) (first stop : Nat) (l : List Damage) :
    addPart v cause first stop l =
      match l.find? (leftOf v cause first stop), l.find? (rightOf v cause first stop) with
      | some a, some b =>
        if b.stop - a.first ≤ maxDamageCount then (mergePart v cause first stop (some a) (some b) l, false)
        else (mergePart v cause first stop (some a) none l, false)
      | some a, none => (mergePart v cause first stop (some a) none l, false)
      | none, some b => (mergePart v cause first stop none (some b) l, false)
      | none, none => if l.length < Config.maxDamage then (mergePart v cause first stop none none l, false) else (l, true) := rfl

/-- The entries that a part is merged with stand in the list, and touch the part. -/
structure Touching (v : Nat) (cause : DamageCause) (first stop : Nat) (left right : Option Damage) (l : List Damage) : Prop where
  left_mem : ∀ a ∈ left, a ∈ l
  left_touches : ∀ a ∈ left, leftOf v cause first stop a = true
  right_mem : ∀ b ∈ right, b ∈ l
  right_touches : ∀ b ∈ right, rightOf v cause first stop b = true

/-- A part is merged with the entries that it touches, or takes a new entry, or is dropped from a full list. -/
theorem addPart_cases (v : Nat) (cause : DamageCause) (first stop : Nat) (l : List Damage) :
    addPart v cause first stop l = (l, true)
      ∨ ∃ left right, Touching v cause first stop left right l
        ∧ (left = none → right = none → l.length < Config.maxDamage)
        ∧ addPart v cause first stop l = (mergePart v cause first stop left right l, false) := by
  have found {p : Damage → Bool} {o : Option Damage} (h : l.find? p = o) : ∀ a ∈ o, a ∈ l ∧ p a = true :=
    fun a ha => ⟨List.mem_of_find?_eq_some (h.trans ha), List.find?_some (h.trans ha)⟩
  have touching {left right : Option Damage} (hl : ∀ a ∈ left, a ∈ l ∧ leftOf v cause first stop a = true)
      (hr : ∀ b ∈ right, b ∈ l ∧ rightOf v cause first stop b = true) : Touching v cause first stop left right l :=
    ⟨fun a ha => (hl a ha).1, fun a ha => (hl a ha).2, fun b hb => (hr b hb).1, fun b hb => (hr b hb).2⟩
  have alone {p : Damage → Prop} : ∀ a ∈ (none : Option Damage), p a := fun _ h => nomatch h
  rw [addPart_eq]
  split
  · next a b ha hb =>
    split
    · exact Or.inr ⟨some a, some b, touching (found ha) (found hb), nofun, rfl⟩
    · exact Or.inr ⟨some a, none, touching (found ha) alone, nofun, rfl⟩
  · next a ha hb => exact Or.inr ⟨some a, none, touching (found ha) alone, nofun, rfl⟩
  · next b ha hb => exact Or.inr ⟨none, some b, touching alone (found hb), nofun, rfl⟩
  · split
    · next hlen => exact Or.inr ⟨none, none, touching alone alone, fun _ _ => hlen, rfl⟩
    · exact Or.inl rfl

namespace Touching

variable {v first stop : Nat} {cause : DamageCause} {left right : Option Damage} {l : List Damage}

/-- The merged entry holds the part and the entries merged with it, and nothing else. -/
theorem mergedEntry_holds (h : Touching v cause first stop left right l) (hr : first < stop) {w b : Nat} :
    (mergedEntry v cause first stop left right).holds w b
      ↔ (w = v ∧ first ≤ b ∧ b < stop) ∨ covers (left.toList ++ right.toList) w b := by
  have hleft : ∀ a ∈ left, a.volume = v ∧ a.first + a.count = first := fun a ha =>
    have h := leftOf_iff.1 (h.left_touches a ha)
    ⟨h.1, h.2.2.1⟩
  have hright : ∀ a ∈ right, a.volume = v ∧ a.first = stop := fun a ha =>
    have h := rightOf_iff.1 (h.right_touches a ha)
    ⟨h.1, h.2.2.1⟩
  cases left with
  | none => cases right with
    | none => simp [mergedEntry, Damage.holds, covers]; omega
    | some b' =>
      obtain ⟨hv, hb⟩ := hright b' rfl
      simp [mergedEntry, Damage.holds, covers, Damage.stop]
      omega
  | some a =>
    obtain ⟨hav, ha⟩ := hleft a rfl
    cases right with
    | none =>
      simp [mergedEntry, Damage.holds, covers]
      omega
    | some b' =>
      obtain ⟨hbv, hb⟩ := hright b' rfl
      simp [mergedEntry, Damage.holds, covers, Damage.stop]
      omega

theorem merged_mem (h : Touching v cause first stop left right l) : ∀ e ∈ left.toList ++ right.toList, e ∈ l := by
  intro e he
  rcases List.mem_append.1 he with he | he
  · exact h.left_mem e (Option.mem_toList.1 he)
  · exact h.right_mem e (Option.mem_toList.1 he)

theorem covers_mergePart (h : Touching v cause first stop left right l) (hr : first < stop) {w b : Nat} :
    covers (mergePart v cause first stop left right l) w b ↔ (w = v ∧ first ≤ b ∧ b < stop) ∨ covers l w b := by
  have hout : covers (withoutEach (left.toList ++ right.toList) l) w b → covers l w b := fun ⟨e, he, hb⟩ =>
    ⟨e, (withoutEach_sublist _ l).subset he, hb⟩
  have hin : covers (left.toList ++ right.toList) w b → covers l w b := fun ⟨e, he, hb⟩ => ⟨e, h.merged_mem e he, hb⟩
  rw [mergePart, covers_damageInsert, h.mergedEntry_holds hr]
  constructor
  · exact fun hb => hb.elim (fun hb => hb.imp_right hin) fun hb => Or.inr (hout hb)
  · rintro (hb | ⟨e, he, hb⟩)
    · exact Or.inl (Or.inl hb)
    · by_cases hm : e ∈ left.toList ++ right.toList
      · exact Or.inl (Or.inr ⟨e, hm, hb⟩)
      · exact Or.inr ⟨e, mem_withoutEach he hm, hb⟩

theorem merged_nodup (h : Touching v cause first stop left right l) (hr : first < stop) : (left.toList ++ right.toList).Nodup := by
  cases left with
  | none => cases right <;> simp
  | some a => cases right with
    | none => simp
    | some b =>
      have ha := (leftOf_iff.1 (h.left_touches a rfl)).2.2.1
      have hb := (rightOf_iff.1 (h.right_touches b rfl)).2.2.1
      have hne : a ≠ b := fun hab => by
        subst hab
        omega
      simpa using hne

theorem length_mergePart (h : Touching v cause first stop left right l) (hr : first < stop) :
    (mergePart v cause first stop left right l).length + (left.toList ++ right.toList).length = l.length + 1 := by
  have hlen := length_withoutEach (h.merged_nodup hr) h.merged_mem
  rw [mergePart, length_damageInsert]
  omega

/-- The merged entry keeps the order: it overlaps no entry that it is not merged with. -/
theorem ordered_mergePart (h : Touching v cause first stop left right l) (hr : first < stop) (hl : ordered l)
    (ha : apart v first stop l) : ordered (mergePart v cause first stop left right l) := by
  have hrest := ordered_sublist (withoutEach_sublist (left.toList ++ right.toList) l) hl
  have hlo : left.elim first Damage.first ≤ first := by
    cases left with
    | none => exact Nat.le_refl _
    | some a => exact Nat.le.intro (leftOf_iff.1 (h.left_touches a rfl)).2.2.1
  have hhi : stop ≤ right.elim stop Damage.stop := by
    cases right with
    | none => exact Nat.le_refl _
    | some b =>
      have hb := (rightOf_iff.1 (h.right_touches b rfl)).2.2.1
      simp only [Option.elim_some, Damage.stop]
      omega
  have hcount : 1 ≤ (mergedEntry v cause first stop left right).count := by
    change 1 ≤ right.elim stop Damage.stop - left.elim first Damage.first
    omega
  refine ⟨fun e he => (mem_damageInsert.1 he).elim (fun he => he ▸ hcount) (hrest.1 e),
    pairwise_damageInsert hcount hrest.1 (fun e he hv => ?_) hrest.2⟩
  have hel := (withoutEach_sublist _ l).subset he
  have hside := ha e hel hv
  have hec := hl.1 e hel
  have hne : e ∉ left.toList ++ right.toList := fun hin => not_mem_withoutEach hl hin he
  have hleft : e.stop ≤ left.elim first Damage.first ∨ first ≤ e.first := by
    cases left with
    | none => exact hside.imp_right fun h => Nat.le_trans (Nat.le_of_lt hr) h
    | some a =>
      obtain ⟨hav, -, has, -⟩ := leftOf_iff.1 (h.left_touches a rfl)
      exact (pairwise_apart (h.left_mem a rfl) hl.2 hel (fun hea => hne (by simp [hea])) (hv.trans hav.symm)).imp_right
        fun h => has ▸ h
  have hright : e.stop ≤ stop ∨ right.elim stop Damage.stop ≤ e.first := by
    cases right with
    | none => exact hside.imp_left fun h => Nat.le_trans h (Nat.le_of_lt hr)
    | some b =>
      obtain ⟨hbv, -, hbf, -⟩ := rightOf_iff.1 (h.right_touches b rfl)
      exact (pairwise_apart (h.right_mem b rfl) hl.2 hel (fun heb => hne (by simp [heb])) (hv.trans hbv.symm)).imp_left
        fun h => hbf ▸ h
  change e.stop ≤ left.elim first Damage.first
    ∨ left.elim first Damage.first + (right.elim stop Damage.stop - left.elim first Damage.first) ≤ e.first
  unfold Damage.stop at hside hleft hright ⊢
  omega

/-- A later range that the list's entries leave free stays free. -/
theorem apart_mergePart (h : Touching v cause first stop left right l) {p q : Nat} (hp : stop ≤ p) (hpq : p < q)
    (ha : apart v p q l) (hr : first < stop) : apart v p q (mergePart v cause first stop left right l) := by
  intro e he hv
  rcases mem_damageInsert.1 he with rfl | he
  · left
    have hlo : left.elim first Damage.first ≤ first := by
      cases left with
      | none => exact Nat.le_refl _
      | some a => exact Nat.le.intro (leftOf_iff.1 (h.left_touches a rfl)).2.2.1
    have hhi : right.elim stop Damage.stop ≤ p := by
      cases right with
      | none => exact hp
      | some b =>
        obtain ⟨hbv, -, hbf, -⟩ := rightOf_iff.1 (h.right_touches b rfl)
        refine (ha b (h.right_mem b rfl) hbv).resolve_right ?_
        omega
    change left.elim first Damage.first + (right.elim stop Damage.stop - left.elim first Damage.first) ≤ p
    omega
  · exact ha e ((withoutEach_sublist _ l).subset he) hv

end Touching

section
variable {v first stop : Nat} {cause : DamageCause} {l : List Damage}

theorem covers_addPart (hr : first < stop) {w b : Nat} :
    covers (addPart v cause first stop l).1 w b
      ↔ covers l w b ∨ (addPart v cause first stop l).2 = false ∧ w = v ∧ first ≤ b ∧ b < stop := by
  rcases addPart_cases v cause first stop l with h | ⟨left, right, ht, -, h⟩
  · rw [h]
    simp
  · rw [h]
    simp only [ht.covers_mergePart hr, true_and]
    exact or_comm

theorem length_addPart (hr : first < stop) (hlen : l.length ≤ 1024) : (addPart v cause first stop l).1.length ≤ 1024 := by
  rcases addPart_cases v cause first stop l with h | ⟨left, right, ht, hroom, h⟩
  · rw [h]
    exact hlen
  · have hl := ht.length_mergePart hr
    rw [h]
    cases left with
    | none => cases right with
      | none =>
        have hroom := hroom rfl rfl
        simp only [Option.toList, List.append_nil, List.length_nil, Config.maxDamage] at hl hroom ⊢
        omega
      | some b =>
        simp only [Option.toList, List.nil_append, List.length_cons, List.length_nil] at hl ⊢
        omega
    | some a =>
      simp only [Option.toList, List.cons_append, List.length_cons] at hl ⊢
      omega

theorem ordered_addPart (hr : first < stop) (hl : ordered l) (ha : apart v first stop l) :
    ordered (addPart v cause first stop l).1
      ∧ ∀ p q, stop ≤ p → p < q → apart v p q l → apart v p q (addPart v cause first stop l).1 := by
  rcases addPart_cases v cause first stop l with h | ⟨left, right, ht, -, h⟩
  · rw [h]
    exact ⟨hl, fun _ _ _ _ h => h⟩
  · rw [h]
    exact ⟨ht.ordered_mergePart hr hl ha, fun p q hp hpq ha => ht.apart_mergePart hp hpq ha hr⟩

end

/-! ## The parts of a range (R121) -/

theorem mem_uncovered {v first stop : Nat} {l : List Damage} {p : Nat × Nat} (hp : p ∈ uncovered v l first stop) :
    p.1 < p.2 ∧ first ≤ p.1 ∧ p.2 ≤ stop := by
  induction l generalizing first with
  | nil =>
    rw [uncovered, List.mem_ite_nil_right, List.mem_singleton] at hp
    obtain ⟨hlt, rfl⟩ := hp
    exact ⟨hlt, Nat.le_refl _, Nat.le_refl _⟩
  | cons e rest ih =>
    rw [uncovered] at hp
    split at hp
    · rw [List.mem_append, List.mem_ite_nil_right, List.mem_singleton] at hp
      rcases hp with ⟨hlt, rfl⟩ | hp
      · exact ⟨hlt, Nat.le_refl _, Nat.min_le_right _ _⟩
      · obtain ⟨hlt, hlow, hhigh⟩ := ih hp
        exact ⟨hlt, Nat.le_trans (Nat.le_max_left _ _) hlow, hhigh⟩
    · exact ih hp

/-- Each block of the range is covered already or lies in a part. -/
theorem covers_or_uncovered {v first stop b : Nat} {l : List Damage} (hlow : first ≤ b) (hhigh : b < stop) :
    covers l v b ∨ ∃ p ∈ uncovered v l first stop, p.1 ≤ b ∧ b < p.2 := by
  induction l generalizing first with
  | nil => exact Or.inr ⟨(first, stop), by simp [uncovered]; omega, hlow, hhigh⟩
  | cons e rest ih =>
    have further : covers rest v b → covers (e :: rest) v b := fun ⟨x, hx, hb⟩ => ⟨x, List.mem_cons_of_mem _ hx, hb⟩
    rw [uncovered]
    split
    · next hv =>
      by_cases hbelow : b < min e.first stop
      · exact Or.inr ⟨(first, min e.first stop), List.mem_append_left _ (by rw [if_pos (by omega)]; exact List.mem_singleton_self _),
          hlow, hbelow⟩
      · by_cases hin : b < e.stop
        · exact Or.inl ⟨e, List.mem_cons_self, hv, by omega, hin⟩
        · rcases ih (first := max first e.stop) (by omega) with h | ⟨p, hp, hb⟩
          · exact Or.inl (further h)
          · exact Or.inr ⟨p, List.mem_append_right _ hp, hb⟩
    · exact (ih hlow).imp_left further

section
variable {v : Nat} {cause : DamageCause} {parts : List (Nat × Nat)}

theorem addParts_cons (first stop : Nat) (l : List Damage) :
    addParts v cause ((first, stop) :: parts) l =
      ((addParts v cause parts (addPart v cause first stop l).1).1,
        (addParts v cause parts (addPart v cause first stop l).1).2 + (if (addPart v cause first stop l).2 then 1 else 0)) := rfl

theorem addParts_keeps {l : List Damage} (hr : ∀ p ∈ parts, p.1 < p.2) {w b : Nat} (h : covers l w b) :
    covers (addParts v cause parts l).1 w b := by
  induction parts generalizing l with
  | nil => exact h
  | cons p rest ih =>
    exact ih (fun q hq => hr q (List.mem_cons_of_mem _ hq)) ((covers_addPart (hr p List.mem_cons_self)).2 (Or.inl h))

theorem addParts_adds {l : List Damage} (hr : ∀ p ∈ parts, p.1 < p.2) {w b : Nat} (h : covers (addParts v cause parts l).1 w b) :
    covers l w b ∨ w = v ∧ ∃ p ∈ parts, p.1 ≤ b ∧ b < p.2 := by
  induction parts generalizing l with
  | nil => exact Or.inl h
  | cons p rest ih =>
    rcases ih (fun q hq => hr q (List.mem_cons_of_mem _ hq)) h with h | ⟨hw, q, hq, hb⟩
    · rcases (covers_addPart (hr p List.mem_cons_self)).1 h with h | ⟨-, hw, hb⟩
      · exact Or.inl h
      · exact Or.inr ⟨hw, p, List.mem_cons_self, hb⟩
    · exact Or.inr ⟨hw, q, List.mem_cons_of_mem _ hq, hb⟩

theorem addParts_covers {l : List Damage} (hr : ∀ p ∈ parts, p.1 < p.2) (hnone : (addParts v cause parts l).2 = 0)
    {p : Nat × Nat} (hp : p ∈ parts) {b : Nat} (hlow : p.1 ≤ b) (hhigh : b < p.2) : covers (addParts v cause parts l).1 v b := by
  induction parts generalizing l with
  | nil => cases hp
  | cons q rest ih =>
    obtain ⟨first, stop⟩ := q
    have hrest : ∀ q ∈ rest, q.1 < q.2 := fun q hq => hr q (List.mem_cons_of_mem _ hq)
    rw [addParts_cons] at hnone ⊢
    obtain ⟨hmore, hone⟩ := Nat.add_eq_zero_iff.1 hnone
    rcases List.mem_cons.1 hp with rfl | hp
    · refine addParts_keeps hrest ((covers_addPart (hr _ List.mem_cons_self)).2 (Or.inr ⟨?_, rfl, hlow, hhigh⟩))
      exact Bool.eq_false_iff.2 fun h => by rw [if_pos h] at hone; cases hone
    · exact ih hrest hmore hp

theorem length_addParts {l : List Damage} (hr : ∀ p ∈ parts, p.1 < p.2) (hlen : l.length ≤ 1024) :
    (addParts v cause parts l).1.length ≤ 1024 := by
  induction parts generalizing l with
  | nil => exact hlen
  | cons p rest ih =>
    exact ih (fun q hq => hr q (List.mem_cons_of_mem _ hq)) (length_addPart (hr p List.mem_cons_self) hlen)

theorem ordered_addParts {l : List Damage} (hl : ordered l) (hf : partsFit v l parts) : ordered (addParts v cause parts l).1 := by
  induction parts generalizing l with
  | nil => exact hl
  | cons p rest ih =>
    obtain ⟨hr, ha, hlow, hrest⟩ := hf
    obtain ⟨hone, hkeep⟩ := ordered_addPart (cause := cause) hr hl ha
    exact ih hone (partsFit_mono hkeep hlow hrest)

end

/-! ## A range that no entry overlaps (R121) -/

/-- In an ordered list one entry at most ends where a part begins. -/
theorem find_leftOf {v first stop : Nat} {cause : DamageCause} {l : List Damage} (hl : ordered l) {a : Damage} (ha : a ∈ l)
    (ht : leftOf v cause first stop a = true) : l.find? (leftOf v cause first stop) = some a := by
  obtain ⟨a', hfind⟩ := Option.isSome_iff_exists.1 (List.find?_isSome.2 ⟨a, ha, ht⟩)
  obtain ⟨hv, -, hs, -⟩ := leftOf_iff.1 ht
  obtain ⟨hv', -, hs', -⟩ := leftOf_iff.1 (List.find?_some hfind)
  have ha' := List.mem_of_find?_eq_some hfind
  by_cases hne : a' = a
  · rw [hfind, hne]
  · have hapart := pairwise_apart ha hl.2 ha' hne (hv'.trans hv.symm)
    have hc := hl.1 a ha
    have hc' := hl.1 a' ha'
    simp only [Damage.stop] at hapart
    omega

/-- In an ordered list one entry at most begins where a part ends. -/
theorem find_rightOf {v first stop : Nat} {cause : DamageCause} {l : List Damage} (hl : ordered l) {b : Damage} (hb : b ∈ l)
    (ht : rightOf v cause first stop b = true) : l.find? (rightOf v cause first stop) = some b := by
  obtain ⟨b', hfind⟩ := Option.isSome_iff_exists.1 (List.find?_isSome.2 ⟨b, hb, ht⟩)
  obtain ⟨hv, -, hs, -⟩ := rightOf_iff.1 ht
  obtain ⟨hv', -, hs', -⟩ := rightOf_iff.1 (List.find?_some hfind)
  have hb' := List.mem_of_find?_eq_some hfind
  by_cases hne : b' = b
  · rw [hfind, hne]
  · have hapart := pairwise_apart hb hl.2 hb' hne (hv'.trans hv.symm)
    have hc := hl.1 b hb
    have hc' := hl.1 b' hb'
    simp only [Damage.stop] at hapart
    omega

theorem find_none {p : Damage → Bool} {l : List Damage} (h : ∀ e ∈ l, p e ≠ true) : l.find? p = none :=
  List.find?_eq_none.2 h

/-- What a merged part leaves of an ordered list: its length and its entries. -/
theorem Touching.becomes {v first stop : Nat} {cause : DamageCause} {left right : Option Damage} {l : List Damage}
    (h : Touching v cause first stop left right l) (hr : first < stop) (hl : ordered l) :
    (mergePart v cause first stop left right l).length + (left.toList ++ right.toList).length = l.length + 1
      ∧ ∀ e, e ∈ mergePart v cause first stop left right l
          ↔ e = mergedEntry v cause first stop left right ∨ (e ∈ l ∧ e ∉ left.toList ++ right.toList) := by
  refine ⟨h.length_mergePart hr, fun e => mem_damageInsert.trans (or_congr_right ⟨fun he => ?_, fun ⟨he, hne⟩ => ?_⟩)⟩
  · exact ⟨(withoutEach_sublist _ l).subset he, fun hin => not_mem_withoutEach hl hin he⟩
  · exact mem_withoutEach he hne

theorem leftOf_damage {d e : Damage} :
    leftOf d.volume d.cause d.first d.stop e = true
      ↔ e.volume = d.volume ∧ e.cause = d.cause ∧ e.first + e.count = d.first ∧ e.count + d.count ≤ 4294967295 := by
  rw [leftOf_iff, Damage.stop]
  refine and_congr_right fun _ => and_congr_right fun _ => and_congr_right fun _ => ?_
  omega

theorem rightOf_damage {d e : Damage} :
    rightOf d.volume d.cause d.first d.stop e = true
      ↔ e.volume = d.volume ∧ e.cause = d.cause ∧ e.first = d.first + d.count ∧ d.count + e.count ≤ 4294967295 := by
  rw [rightOf_iff, Damage.stop]
  refine and_congr_right fun _ => and_congr_right fun _ => and_congr_right fun _ => ?_
  omega

/-- What adding a range that no entry overlaps makes of an ordered list, where the range is one merged part. -/
theorem damageAdd_becomes {d : Damage} {l : List Damage} {left right : Option Damage} (hl : ordered l) (hd : 1 ≤ d.count)
    (ha : apart d.volume d.first d.stop l) (ht : Touching d.volume d.cause d.first d.stop left right l)
    (h : addPart d.volume d.cause d.first d.stop l = (mergePart d.volume d.cause d.first d.stop left right l, false))
    {from' count : Nat} (hentry : mergedEntry d.volume d.cause d.first d.stop left right = ⟨d.volume, from', count, d.cause⟩) :
    (damageAdd d l).2 = 0 ∧ (damageAdd d l).1.length + (left.toList ++ right.toList).length = l.length + 1
      ∧ ∀ e, e ∈ (damageAdd d l).1 ↔ e = ⟨d.volume, from', count, d.cause⟩ ∨ (e ∈ l ∧ e ∉ left.toList ++ right.toList) := by
  have hr : d.first < d.stop := Nat.lt_add_of_pos_right hd
  rw [damageAdd_apart hl.1 hd ha, h, ← hentry]
  exact ⟨rfl, ht.becomes hr hl⟩

/-- Settles O60: the blocks covered and the order, part by part; a range apart from every entry is one part. -/
theorem damageListKept : Obligations.DamageListKept := by
  intro l d v first count
  have hparts : ∀ p ∈ uncovered d.volume l d.first d.stop, p.1 < p.2 := fun p hp => (mem_uncovered hp).1
  refine ⟨fun v b h => addParts_keeps hparts h, fun v b h => ?_, fun hnone b hlow hhigh => ?_,
    fun hl => ordered_addParts hl (partsFit_uncovered hl.1 hl.2 fun _ he _ => Or.inl he), length_addParts hparts,
    fun w b => covers_damageRemove, ordered_damageRemove, fun hl hlen hroom => ?_, ?_⟩
  · rcases addParts_adds hparts h with h | ⟨hv, p, hp, hb⟩
    · exact Or.inl h
    · obtain ⟨-, hlow, hhigh⟩ := mem_uncovered hp
      exact Or.inr ⟨hv, Nat.le_trans hlow hb.1, Nat.lt_of_lt_of_le hb.2 hhigh⟩
  · rcases covers_or_uncovered hlow hhigh (l := l) (v := d.volume) with h | ⟨p, hp, hb⟩
    · exact addParts_keeps hparts h
    · exact addParts_covers hparts hnone hp hb.1 hb.2
  · have hremoved := length_damageRemove (volume := v) (first := first) (count := count) hl.2
    rcases hroom with h | h
    · rw [h] at hremoved
      exact Nat.le_trans hremoved hlen
    · split at hremoved <;> omega
  intro hl hd ha left right becomes
  have hfound {e : Damage} : left e ↔ e ∈ l ∧ leftOf d.volume d.cause d.first d.stop e = true := by rw [leftOf_damage]
  have hnext {e : Damage} : right e ↔ e ∈ l ∧ rightOf d.volume d.cause d.first d.stop e = true := by rw [rightOf_damage]
  have alone {p : Damage → Prop} : ∀ a ∈ (none : Option Damage), p a := fun _ h => nomatch h
  have one {p : Damage → Prop} {a : Damage} (h : p a) : ∀ x ∈ some a, p x := fun x hx => Option.mem_some_iff.1 hx ▸ h
  refine ⟨fun a b hleft hright hfits => ?_, fun a hleft hnot => ?_, fun b hright hnot => ?_, fun hnot hroom => ?_,
    fun hnot hfull => ?_⟩
  · obtain ⟨hal, hat⟩ := hfound.1 hleft
    obtain ⟨hbl, hbt⟩ := hnext.1 hright
    obtain ⟨-, -, -, has, -⟩ := hleft
    obtain ⟨-, -, -, hbf, -⟩ := hright
    refine damageAdd_becomes (left := some a) (right := some b) hl hd ha ⟨one hal, one hat, one hbl, one hbt⟩ ?_ ?_
    · rw [addPart_eq, find_leftOf hl hal hat, find_rightOf hl hbl hbt]
      exact if_pos (by simp only [Damage.stop, maxDamageCount]; omega)
    · simp only [mergedEntry, Option.elim_some, Damage.stop, Damage.mk.injEq, true_and, and_true]
      omega
  · obtain ⟨hal, hat⟩ := hfound.1 hleft
    obtain ⟨-, -, -, has, -⟩ := hleft
    refine damageAdd_becomes (left := some a) (right := none) hl hd ha ⟨one hal, one hat, alone, alone⟩ ?_ ?_
    · rw [addPart_eq, find_leftOf hl hal hat]
      cases hfind : l.find? (rightOf d.volume d.cause d.first d.stop) with
      | none => rfl
      | some b =>
        have hright := hnext.2 ⟨List.mem_of_find?_eq_some hfind, List.find?_some hfind⟩
        have hlong := hnot b hright
        obtain ⟨-, -, -, hbf, -⟩ := hright
        exact if_neg (by simp only [Damage.stop, maxDamageCount]; omega)
    · simp only [mergedEntry, Option.elim_some, Option.elim_none, Damage.stop, Damage.mk.injEq, true_and, and_true]
      omega
  · obtain ⟨hbl, hbt⟩ := hnext.1 hright
    obtain ⟨-, -, -, hbf, -⟩ := hright
    refine damageAdd_becomes (left := none) (right := some b) hl hd ha ⟨alone, alone, one hbl, one hbt⟩ ?_ ?_
    · rw [addPart_eq, find_rightOf hl hbl hbt, find_none fun e he ht => hnot e (hfound.2 ⟨he, ht⟩)]
    · simp only [mergedEntry, Option.elim_some, Option.elim_none, Damage.stop, Damage.mk.injEq, true_and, and_true]
      omega
  all_goals
    have hleft := find_none fun e he ht => (hnot e).1 (hfound.2 ⟨he, ht⟩)
    have hright := find_none fun e he ht => (hnot e).2 (hnext.2 ⟨he, ht⟩)
  · refine damageAdd_becomes (left := none) (right := none) hl hd ha ⟨alone, alone, alone, alone⟩ ?_ ?_
    · rw [addPart_eq, hleft, hright]
      exact if_pos hroom
    · simp only [mergedEntry, Option.elim_none, Damage.stop, Damage.mk.injEq, true_and, and_true]
      omega
  · rw [damageAdd_apart hl.1 hd ha, addPart_eq, hleft, hright]
    exact congrArg (fun x : List Damage × Bool => (x.1, if x.2 = true then 1 else 0)) (if_neg (Nat.not_lt.2 hfull))

end Sys2Proof.Machine
end

section
/-! PROOFS. The drive link: blocks (R130) and the flush (R128). -/

namespace Sys2Proof.Machine

/-! ## Live messages (R130) -/

theorem liveCmd_some {s : State} {e g : Nat} {c : Cmd} (hf : s.dp.flush = .answered) (hg : (s.ring e).generation = g)
    (hc : (s.ring e).cmd = some c) : s.liveCmd e g = some c := (if_pos ⟨hf, hg⟩).trans hc

theorem liveBlock_some {s : State} {e g b : Nat} {op : DriveOp} {c : Cmd} (hf : s.dp.flush = .answered)
    (hg : (s.ring e).generation = g) (hc : (s.ring e).cmd = some c) (hb : b < c.count) (ho : c.op = op) :
    s.liveBlock e g b op = some c := by
  rw [State.liveBlock, liveCmd_some hf hg hc]
  exact if_pos ⟨hb, ho⟩

theorem liveBlock_none {s : State} {e g b : Nat} {op : DriveOp}
    (h : ∀ c : Cmd, ¬(s.dp.flush = .answered ∧ (s.ring e).generation = g ∧ (s.ring e).cmd = some c ∧ b < c.count ∧ c.op = op)) :
    s.liveBlock e g b op = none := by
  unfold State.liveBlock State.liveCmd
  split
  · rfl
  · next c hlive =>
    split at hlive
    · next hid => exact if_neg fun hb => h c ⟨hid.1, hid.2, hlive, hb.1, hb.2⟩
    · cases hlive

/-- A command on the drive link that leaves no exchange and the lanes as they are ends in the state it made. -/
theorem conclude_quiet {s t : State} (ha : t.agenda = []) (hc : t.clock = s.clock) (hp : t.pending = s.pending)
    (hme : t.me = s.me) : conclude s t = .next t := next_finish rfl ha hc hp (jobsIdle_of_me hme)

theorem ring_setRing_same (e : Nat) (r : RingEntry) (s : State) : (s.setRing e r).ring e = r :=
  tableRead_tableWrite_same (RingEntry.free 0) s.dp.ring e r

theorem ring_setRing_other {e f : Nat} (r : RingEntry) (s : State) (h : f ≠ e) : (s.setRing e r).ring f = s.ring f :=
  tableRead_tableWrite_other (RingEntry.free 0) s.dp.ring r h

theorem execReadData_live {s : State} {e g b : Nat} {c : Cmd} (data : BlockData) (tag : TagBits)
    (h : s.liveBlock e g b .read = some c) :
    execReadData e g b data tag s = conclude s (markReceived e b (layPage c b ⟨data, tag⟩ s)) := by
  rw [execReadData, h]

theorem execPull_live {s : State} {e g b : Nat} {c : Cmd} (h : s.liveBlock e g b .write = some c) :
    execPull e g b s = conclude s (s.send (.pullAnswer e g b (s.pageOf c b).data (s.pageOf c b).tag)) := by
  rw [execPull, h]

theorem execTags_live {s : State} {e g b : Nat} {c : Cmd} (tag : TagBits) (h : s.liveBlock e g b .readTags = some c) :
    execTags e g b tag s = conclude s (compareTag e c b tag (markReceived e b s)) := by
  rw [execTags, h]

/-- A tag compared changes its entry's mismatch flag alone. -/
theorem compareTag_eq (e : Nat) (c : Cmd) (b : Nat) (tag : TagBits) (s : State) :
    (compareTag e c b tag s).ring e
        = { s.ring e with mismatch := (s.ring e).mismatch || decide ((s.pageOf c b).tag ≠ tag) }
      ∧ (∀ f, f ≠ e → (compareTag e c b tag s).ring f = s.ring f)
      ∧ ∃ ring, compareTag e c b tag s = { s with dp := { s.dp with ring := ring } } := by
  unfold compareTag
  split
  · next h =>
    refine ⟨?_, fun _ _ => rfl, s.dp.ring, rfl⟩
    rw [decide_eq_false (Classical.not_not.2 h), Bool.or_false]
  · next h =>
    refine ⟨?_, fun f hf => ring_setRing_other _ s hf, _, rfl⟩
    rw [ring_setRing_same, decide_eq_true h, Bool.or_true]

/-- Settles O47: the live block, and the late one. -/
theorem blocksOnDriveLink : Obligations.BlocksOnDriveLink := by
  intro s e g b data tag hs r live counted arrived
  have some_of {op : DriveOp} {c : Cmd} (h : live op c) : s.liveBlock e g b op = some c :=
    have ⟨hf, hg, hc, hb, ho⟩ := h
    liveBlock_some hf hg hc hb ho
  refine ⟨fun c hc => ⟨fun positions hp => ?_, fun p hp => ?_⟩, fun c hc positions hp => ?_, fun c hc p hp => ?_,
    fun c hc positions hp => ?_, fun hnone => ?_, fun hnone => ?_, fun hnone => ?_⟩
  · refine (execReadData_live data tag (some_of hc)).trans ?_
    rw [layPage, hp]
    exact conclude_quiet hs rfl rfl rfl
  · refine (execReadData_live data tag (some_of hc)).trans ?_
    rw [layPage, hp]
    exact conclude_quiet hs rfl rfl rfl
  · refine (execPull_live (some_of hc)).trans ?_
    rw [State.pageOf, hp]
    exact conclude_quiet hs rfl rfl rfl
  · refine (execPull_live (some_of hc)).trans ?_
    rw [State.pageOf, hp]
    exact conclude_quiet hs rfl rfl rfl
  · obtain ⟨hsame, hother, ring, heq⟩ := compareTag_eq e c b tag (markReceived e b s)
    have hpage : (markReceived e b s).pageOf c b = s.staged (positions.getD b 0) := by
      rw [State.pageOf, hp]
      rfl
    have hentry : (markReceived e b s).ring e = arrived := ring_setRing_same e _ s
    refine ⟨compareTag e c b tag (markReceived e b s), (execTags_live tag (some_of hc)).trans ?_, ?_, fun f hf => ?_, ?_⟩
    · refine conclude_quiet ?_ ?_ ?_ ?_ <;> rw [heq]
      · exact hs
      all_goals rfl
    · rw [hsame, hpage, hentry]
    · rw [hother f hf]
      exact ring_setRing_other _ s hf
    · rw [heq]
      rfl
  · refine Eq.trans (b := conclude s (countLate s)) ?_ (conclude_quiet hs rfl rfl rfl)
    change execReadData e g b data tag s = _
    rw [execReadData, liveBlock_none hnone]
  · refine Eq.trans (b := conclude s (countLate (s.send (.pullRefused e g)))) ?_ (conclude_quiet hs rfl rfl rfl)
    change execPull e g b s = _
    rw [execPull, liveBlock_none hnone]
  · refine Eq.trans (b := conclude s (countLate s)) ?_ (conclude_quiet hs rfl rfl rfl)
    change execTags e g b tag s = _
    rw [execTags, liveBlock_none hnone]

/-! ## The flush (R128) -/

theorem execFlushAnswer_waiting {s : State} {tries at' : Nat} (h : s.dp.flush = .waiting tries at') :
    execFlushAnswer s = conclude s (flushDone s) := by
  rw [execFlushAnswer, h]

theorem execFlushAnswer_none {s : State} (h : ∀ tries at', s.dp.flush ≠ .waiting tries at') : execFlushAnswer s = .next s := by
  unfold execFlushAnswer
  split
  · next tries at' hf => exact absurd hf (h tries at')
  · rfl
  · rfl

theorem execFlushRetry_waiting {s : State} {tries at' : Nat} (h : s.dp.flush = .waiting tries at') :
    execFlushRetry s = if at' + 1000000 ≤ s.clock.now then conclude s (retryFlush tries s) else .next s := by
  rw [execFlushRetry, h]
  rfl

theorem execFlushRetry_none {s : State} (h : ∀ tries at', s.dp.flush ≠ .waiting tries at') : execFlushRetry s = .next s := by
  unfold execFlushRetry
  split
  · next tries at' hf => exact absurd hf (h tries at')
  · rfl
  · rfl

/-- With no command held, the port begins to issue and does nothing else. -/
theorem flushDone_none {s : State} (hwait : s.dp.waiting = []) (hlabel : s.dp.labelWait = []) :
    flushDone s = { s with dp := { s.dp with flush := .answered } } :=
  serveCommands_none (s := { s with dp := { s.dp with flush := .answered } }) hwait hlabel

/-- One command held, whose member is reached, takes the entry at the head of the free order. -/
theorem serveCommands_one {s : State} {c : Cmd} {e : Nat} {rest : List Nat} (hf : s.dp.flush = .answered)
    (hw : s.dp.waiting = [c]) (hl : s.dp.labelWait = []) (hfree : s.dp.freeOrder = e :: rest)
    (hreach : s.unreachable c.member = false) :
    serveCommands s = issue e c (s.onDp (fun d => { d with waiting := [] })) := by
  have hring : serveRing 1 s = issue e c (s.onDp (fun d => { d with waiting := [] })) := by
    rw [serveRing, hfree, hw]
    exact if_neg (Bool.eq_false_iff.1 hreach)
  have hlabels : (issue e c (s.onDp (fun d => { d with waiting := [] }))).dp.labelWait = [] := hl
  rw [serveCommands, if_pos hf, hw]
  change serveLabels (serveRing 1 s).dp.labelWait.length (serveRing 1 s) = _
  rw [hring, hlabels]
  rfl

theorem issue_eq (e : Nat) (c : Cmd) (s : State) :
    issue e c s = { s with dp := { s.dp with
      freeOrder := s.dp.freeOrder.filter (fun f => f ≠ e),
      ring := tableWrite (RingEntry.free 0) s.dp.ring e
        { generation := ((s.ring e).generation + 1) % 256, cmd := some c,
          deadline := s.clock.now + s.dp.driveTmo * 1000000, received := 0, mismatch := false },
      counters := { s.dp.counters with issued := min (s.dp.counters.issued + 1) 4294967295 },
      sent := s.dp.sent ++ [.command e (((s.ring e).generation + 1) % 256) c.member c.op c.dbn c.count] } } := rfl

/-- A fault offered looks at the Message Port alone. -/
theorem offerFault_of_mp {s t : State} (o : FaultOffer) (h : t.mp = s.mp) :
    t.offerFault o = { t with mp := (s.offerFault o).mp } := by
  cases hf : s.mp.fault with
  | none =>
    rw [offerFault_empty hf, offerFault_empty (h ▸ hf)]
    refine (offerNotice_of_mp (s := { s with mp := { s.mp with fault := some ⟨o, 0, false⟩ } }) _ ?_).trans rfl
    exact congrArg (fun m : MsgPort => { m with fault := some ⟨o, 0, false⟩ }) h
  | some c => rw [offerFault_held hf, offerFault_held (h ▸ hf), h]

/-- Settles O50: the flush answered, awaited, sent again, and given up. -/
theorem flushAnsweredOrRetried : Obligations.FlushAnsweredOrRetried := by
  intro s hs
  refine ⟨fun hnone => ⟨execFlushAnswer_none hnone, execFlushRetry_none hnone⟩, fun tries at' hf =>
    ⟨fun hw hl => ?_, fun c e rest hw hl hfree hrest hup hbay => ?_, fun hearly => ?_, fun hdue htries => ?_,
      fun hdue htries hw hl => ?_⟩⟩
  · refine (execFlushAnswer_waiting hf).trans ?_
    rw [flushDone_none hw hl]
    exact conclude_quiet hs rfl rfl rfl
  · have hreach : s.unreachable c.member = false := by
      rw [State.unreachable, decide_eq_false hup, hbay]
      rfl
    have horder : (e :: rest).filter (fun f => f ≠ e) = rest := by
      rw [List.filter_cons_of_neg (by simp), List.filter_eq_self]
      exact fun f hin => decide_eq_true fun h => hrest (h ▸ hin)
    have hdone : flushDone s = issue e c { s with dp := { s.dp with flush := .answered, waiting := [] } } :=
      serveCommands_one (s := { s with dp := { s.dp with flush := .answered } }) rfl hw hl hfree hreach
    refine (execFlushAnswer_waiting hf).trans ?_
    rw [hdone, issue_eq, hfree, horder]
    exact conclude_quiet hs rfl rfl rfl
  · exact (execFlushRetry_waiting hf).trans (if_neg (Nat.not_le.2 hearly))
  · refine (execFlushRetry_waiting hf).trans ((if_pos hdue).trans ?_)
    rw [retryFlush, if_pos htries]
    exact conclude_quiet hs rfl rfl rfl
  · refine (execFlushRetry_waiting hf).trans ((if_pos hdue).trans ?_)
    have hdone : flushDone (s.offerFault (FaultOffer.bare .driveTimeout))
        = { s with mp := (s.offerFault (FaultOffer.bare .driveTimeout)).mp, dp := { s.dp with flush := .answered } } := by
      rw [offerFault_of_mp (s := s) (FaultOffer.bare .driveTimeout) rfl]
      exact flushDone_none hw hl
    rw [retryFlush, if_neg (Nat.not_lt.2 htries), hdone,
      offerFault_of_mp (s := s) (t := { s with dp := { s.dp with flush := .answered } }) _ rfl]
    exact conclude_quiet hs rfl rfl rfl

end Sys2Proof.Machine
end

section
/-! PROOFS. A lane's attempt at its row (R79, R93, R109), the rate windows (R81) and the end of a back-off (R99, R100). -/

namespace Sys2Proof.Machine

/-! ## Lanes changed -/

theorem setLane_setLane (n : Nat) (l l' : Lane) (s : State) : (s.setLane n l).setLane n l' = s.setLane n l' := by
  change { s with me := { s.me with lanes := tableWrite Lane.idle (tableWrite Lane.idle s.me.lanes n l) n l' } } = _
  rw [tableWrite_tableWrite]
  rfl

theorem onLane_setLane (n : Nat) (f : Lane → Lane) (l : Lane) (s : State) :
    (s.setLane n l).onLane n f = s.setLane n (f l) := by
  change (s.setLane n l).setLane n (f ((s.setLane n l).lane n)) = _
  rw [lane_setLane_same, setLane_setLane]

/-- With the same jobs and the same lanes IDLE, the jobs are at an end in both states or in neither. -/
theorem jobsIdle_congr {s t : State} (hj : t.me.jobs = s.me.jobs)
    (hl : ∀ n < 4, ((t.lane n).state = .idle ↔ (s.lane n).state = .idle)) : t.jobsIdle = s.jobsIdle := by
  have hall : (List.range Config.laneCount).all (fun n => decide ((t.lane n).state = .idle))
      = (List.range Config.laneCount).all (fun n => decide ((s.lane n).state = .idle)) := by
    rw [Bool.eq_iff_iff, List.all_eq_true, List.all_eq_true]
    simp only [decide_eq_true_eq, List.mem_range]
    exact forall_congr' fun n => imp_congr_right fun hn => hl n hn
  rw [State.jobsIdle, State.jobsIdle, hj, hall]

/-- A lane that stays out of IDLE, where it is one of the part's lanes, changes nothing about the end of the jobs. -/
theorem jobsIdle_of_lane {s t : State} {n : Nat} (hj : t.me.jobs = s.me.jobs) (ho : ∀ m, m ≠ n → t.lane m = s.lane m)
    (ht : (t.lane n).state ≠ .idle) (hs : (s.lane n).state ≠ .idle) : t.jobsIdle = s.jobsIdle := by
  refine jobsIdle_congr hj fun m _ => ?_
  by_cases hm : m = n
  · rw [hm]
    exact iff_of_false ht hs
  · rw [ho m hm]

/-! ## Attempts (R79, R93, R109) -/

/-- A lane's record as it begins an attempt: it waits for its row's pages. -/
def State.tried (s : State) (n : Nat) : Lane :=
  { s.lane n with state := .waitPages, work := RowWork.none, backoffEnd := none }

section
variable {n : Nat} {s : State}

theorem startAttempt_paused (hp : s.me.paused = true) (hl : (s.lane n).lockout = false) :
    startAttempt n s = s.setLane n { s.tried n with state := .paused } := by
  have hlane : ((s.onLane n (fun l => { l with work := RowWork.none, backoffEnd := none })).lane n).lockout = false := by
    rw [lane_onLane_same]
    exact hl
  refine (if_pos ⟨hp, hlane⟩).trans ?_
  rw [onLane_onLane]
  rfl

theorem startAttempt_tries (h : s.me.paused = false ∨ (s.lane n).lockout = true) :
    startAttempt n s = askPages n (s.setLane n (s.tried n)) := by
  have hno : ¬(s.me.paused = true ∧ ((s.onLane n (fun l => { l with work := RowWork.none, backoffEnd := none })).lane n).lockout
      = false) := by
    rw [lane_onLane_same]
    rintro ⟨hp, hl⟩
    rcases h with h | h
    · rw [h] at hp
      cases hp
    · exact Bool.false_ne_true (hl.symm.trans h)
  refine (if_neg hno).trans ?_
  rw [onLane_onLane]
  rfl

theorem askPages_blocked (h : s.waitsForRoom (.lane n) = true ∨ s.onPageList n = true) : askPages n s = s := by
  refine if_neg ?_
  rintro ⟨-, -, hr, hl⟩
  rcases h with h | h
  · rw [h] at hr
    cases hr
  · rw [h] at hl
    cases hl

theorem startAttempt_blocked (h : s.me.paused = false ∨ (s.lane n).lockout = true)
    (hb : s.waitsForRoom (.lane n) = true ∨ s.onPageList n = true) : startAttempt n s = s.setLane n (s.tried n) := by
  rw [startAttempt_tries h]
  exact askPages_blocked hb

theorem startAttempt_waits (h : s.me.paused = false ∨ (s.lane n).lockout = true) (hp : (s.lane n).pages = [])
    (hr : s.waitsForRoom (.lane n) = false) (hl : s.onPageList n = false)
    (hw : s.sp.waiting ≠ [] ∨ s.sp.free.length < rowPages (s.rowSet (s.lane n))) :
    startAttempt n s = { s.setLane n (s.tried n) with
      sp := { s.sp with waiting := s.sp.waiting ++ [(n, rowPages (s.rowSet (s.lane n)))] } } := by
  have hlane : (s.setLane n (s.tried n)).lane n = s.tried n := lane_setLane_same n _ s
  have hset : rowPages ((s.setLane n (s.tried n)).rowSet ((s.setLane n (s.tried n)).lane n)) = rowPages (s.rowSet (s.lane n)) := by
    rw [hlane]
    rfl
  rw [startAttempt_tries h, askPages_waits (s := s.setLane n (s.tried n)) (by rw [hlane]; rfl) (by rw [hlane]; exact hp) hr hl (by rw [hset]; exact hw), hset]
  rfl

theorem startAttempt_takes (h : s.me.paused = false ∨ (s.lane n).lockout = true) (hp : (s.lane n).pages = [])
    (hr : s.waitsForRoom (.lane n) = false) (hl : s.onPageList n = false) (hw : s.sp.waiting = [])
    (hf : rowPages (s.rowSet (s.lane n)) ≤ s.sp.free.length) :
    startAttempt n s = { s.setLane n { s.tried n with pages := s.sp.free.take (rowPages (s.rowSet (s.lane n))) } with
      sp := { s.sp with free := s.sp.free.drop (rowPages (s.rowSet (s.lane n))) },
      agenda := s.agenda ++ [.pagesGranted n] } := by
  have hlane : (s.setLane n (s.tried n)).lane n = s.tried n := lane_setLane_same n _ s
  have hset : rowPages ((s.setLane n (s.tried n)).rowSet ((s.setLane n (s.tried n)).lane n)) = rowPages (s.rowSet (s.lane n)) := by
    rw [hlane]
    rfl
  rw [startAttempt_tries h,
    askPages_takes (s := s.setLane n (s.tried n)) (by rw [hlane]; rfl) (by rw [hlane]; exact hp) hr hl hw (by rw [hset]; exact hf), hset]
  change ((State.setLane n (s.tried n) { s with sp := { s.sp with free := s.sp.free.drop (rowPages (s.rowSet (s.lane n))) } }).onLane
    n (fun l => { l with pages := s.sp.free.take (rowPages (s.rowSet (s.lane n))) })).post (.pagesGranted n) = _
  rw [onLane_setLane]
  rfl

end

/-! ## Tokens (R81) -/

theorem serveTokens_stops {s : State} (h : s.me.tokenOrder = [] ∨ s.me.tokens = 0) (k : Nat) : serveTokens k s = s := by
  cases k with
  | zero => rfl
  | succ k =>
    unfold serveTokens
    split
    · rfl
    · next n rest horder =>
      rw [horder] at h
      exact if_neg (h.elim nofun fun h => Nat.not_lt.2 (Nat.le_of_eq h))

theorem serveTokens_next {s : State} {n : Nat} {rest : List Nat} (h : s.me.tokenOrder = n :: rest) (ht : 0 < s.me.tokens)
    (k : Nat) : serveTokens (k + 1) s = serveTokens k { s with
      me := { s.me with tokens := s.me.tokens - 1, tokenOrder := rest }, agenda := s.agenda ++ [.rowStart n] } := by
  rw [serveTokens, h]
  exact if_pos ht

/-- The state in which the lanes that wait have taken one token each, in order, while there were any. -/
def State.tokensTaken (s : State) : State :=
  { s with
    me := { s.me with tokens := s.me.tokens - min s.me.tokens s.me.tokenOrder.length,
                      tokenOrder := s.me.tokenOrder.drop s.me.tokens },
    agenda := s.agenda ++ (s.me.tokenOrder.take s.me.tokens).map Internal.rowStart }

theorem tokensTaken_none {s : State} (h : s.me.tokenOrder = [] ∨ s.me.tokens = 0) : s.tokensTaken = s := by
  have htake : s.me.tokenOrder.take s.me.tokens = [] := by rcases h with h | h <;> simp [h]
  have hdrop : s.me.tokenOrder.drop s.me.tokens = s.me.tokenOrder := by rcases h with h | h <;> simp [h]
  have hmin : min s.me.tokens s.me.tokenOrder.length = 0 := by rcases h with h | h <;> simp [h]
  rw [State.tokensTaken, htake, hdrop, hmin, List.map_nil, List.append_nil]
  rfl

theorem serveTokens_eq {k : Nat} {s : State} (hk : s.me.tokenOrder.length ≤ k) : serveTokens k s = s.tokensTaken := by
  induction k generalizing s with
  | zero =>
    have hnone : s.me.tokenOrder = [] ∨ s.me.tokens = 0 := Or.inl (List.length_eq_zero_iff.1 (Nat.le_zero.1 hk))
    rw [serveTokens_stops hnone, tokensTaken_none hnone]
  | succ k ih =>
    by_cases hnone : s.me.tokenOrder = [] ∨ s.me.tokens = 0
    · rw [serveTokens_stops hnone, tokensTaken_none hnone]
    · obtain ⟨horder, htokens⟩ := not_or.1 hnone
      obtain ⟨n, rest, horder⟩ := List.exists_cons_of_ne_nil horder
      obtain ⟨more, hmore⟩ := Nat.exists_eq_succ_of_ne_zero htokens
      rw [horder, List.length_cons] at hk
      rw [serveTokens_next horder (Nat.pos_of_ne_zero htokens), ih (Nat.le_of_succ_le_succ hk)]
      simp only [State.tokensTaken, horder, hmore, List.drop_succ_cons, List.take_succ_cons, List.map_cons, List.length_cons,
        Nat.succ_eq_add_one, Nat.add_sub_cancel, List.append_assoc, List.cons_append, List.nil_append, Nat.add_min_add_right,
        Nat.add_sub_add_right]

/-! ## The rate window and the back-off (R81, R99, R100) -/

theorem execRateWindow_begun {s : State} {w : Nat} (h : s.me.windowStart = some w) :
    execRateWindow s = if w + 100000 ≤ s.clock.now then conclude s (beginWindow (w + 100000) s) else .next s := by
  rw [execRateWindow, h]
  rfl

theorem beginWindow_eq {start : Nat} {s : State} (h : s.me.tokenOrder.length ≤ 4) :
    beginWindow start s = State.tokensTaken { s with me := { s.me with windowStart := some start, tokens := s.me.moveRate } } :=
  serveTokens_eq (s := { s with me := { s.me with windowStart := some start, tokens := s.me.moveRate } }) h

theorem beginWindow_untaken {start : Nat} {s : State} (h : s.me.tokenOrder = [] ∨ s.me.moveRate = 0) :
    beginWindow start s = { s with me := { s.me with windowStart := some start, tokens := s.me.moveRate } } :=
  serveTokens_stops (s := { s with me := { s.me with windowStart := some start, tokens := s.me.moveRate } }) h 4

theorem execBackoffEnd_none {s : State} {n : Nat} (h : (s.lane n).state ≠ .backoff ∨ (s.lane n).backoffEnd = none) :
    execBackoffEnd n s = .next s := by
  unfold execBackoffEnd
  dsimp only
  split
  · rfl
  · next e he => exact if_neg fun hb => h.elim (fun h => h hb.1) fun h => by rw [h] at he; cases he

theorem execBackoffEnd_set {s : State} {n e : Nat} (hb : (s.lane n).state = .backoff) (he : (s.lane n).backoffEnd = some e) :
    execBackoffEnd n s = if e ≤ s.clock.now then conclude s (startAttempt n s) else .next s := by
  unfold execBackoffEnd
  dsimp only
  rw [he]
  exact ite_congr (propext (and_iff_right hb)) (fun _ => rfl) fun _ => rfl

/-- Settles O45: the window and its tokens, and the attempt at the end of a back-off. -/
theorem rateWindowAndBackoff : Obligations.RateWindowAndBackoff := by
  refine ⟨fun _ _ _ => rfl, fun s hs => ⟨fun h => ?_, fun w hw => ⟨fun hearly => ?_, fun hdue hnone => ?_, ?_⟩, fun n => ?_⟩⟩
  · change execRateWindow s = _
    rw [execRateWindow, h]
  · exact (execRateWindow_begun hw).trans (if_neg (Nat.not_le.2 hearly))
  · refine (execRateWindow_begun hw).trans ((if_pos hdue).trans ?_)
    rw [beginWindow_untaken hnone]
    exact next_finish rfl hs rfl rfl rfl
  · intro hdue hlen t
    have ht : t = State.tokensTaken { s with me := { s.me with windowStart := some (w + 100000), tokens := s.me.moveRate } } :=
      beginWindow_eq hlen
    refine ⟨(execRateWindow_begun hw).trans (if_pos hdue), ?_, ?_, ?_⟩ <;> rw [ht]
    · rfl
    · rfl
    · exact (congrArg (· ++ _) hs).trans (List.nil_append _)
  · intro l pages
    refine ⟨execBackoffEnd_none, fun e hb he => ⟨fun hearly => ?_, fun hdue hp hl => ?_, fun hdue hp hpages hr hlist hw => ?_⟩⟩
    · exact (execBackoffEnd_set hb he).trans (if_neg (Nat.not_le.2 hearly))
    all_goals
      have hexec : exec (.backoffEnd n) s = conclude s (startAttempt n s) := (execBackoffEnd_set hb he).trans (if_pos hdue)
      have hbusy : (s.lane n).state ≠ .idle := by rw [show (s.lane n).state = .backoff from hb]; nofun
    · have hlane := lane_setLane_same n { s.tried n with state := .paused } s
      have hother := fun m (hm : m ≠ n) => lane_setLane_other { s.tried n with state := .paused } s hm
      rw [startAttempt_paused hp hl] at hexec
      refine ⟨_, hexec.trans (next_finish rfl hs rfl rfl (jobsIdle_of_lane rfl hother ?_ hbusy)), hlane, hother, rfl⟩
      rw [hlane]
      nofun
    · have hlane := lane_setLane_same n (s.tried n) s
      have hother := fun m (hm : m ≠ n) => lane_setLane_other (s.tried n) s hm
      rw [startAttempt_waits (Or.inl hp) hpages hr hlist hw] at hexec
      refine ⟨_, hexec.trans (next_finish rfl hs rfl rfl (jobsIdle_of_lane rfl hother ?_ hbusy)), hlane, hother, rfl, rfl⟩
      exact fun h => absurd (hlane ▸ h) (by nofun)

end Sys2Proof.Machine
end

section
/-! PROOFS. Pause and resume (R93): the lanes stopped in their order, their pages given back, and the lanes that ask anew. -/

namespace Sys2Proof.Machine

/-! ## One lane paused (R93, R110) -/

/-- A lane that PAUSE_JOBS stops. -/
def Lane.stops (l : Lane) : Bool :=
  decide ((l.state = .waitPages ∨ l.state = .waitToken ∨ l.state = .backoff) ∧ l.lockout = false)

/-- The record of a lane stopped, with the pages that it holds. -/
def Lane.stopped (l : Lane) (pages : List Nat) : Lane := { l with state := .paused, backoffEnd := none, pages := pages }

theorem Lane.stops_congr {l l' : Lane} (hs : l.state = l'.state) (hl : l.lockout = l'.lockout) : l.stops = l'.stops := by
  rw [Lane.stops, Lane.stops, hs, hl]

theorem pauseLane_goes {n : Nat} {s : State} (h : (s.lane n).stops = false) : pauseLane n s = s :=
  if_neg (of_decide_eq_false h)

/-- The state in which a lane is PAUSED and off the page wait list, before that list is served. -/
def stopLane (n : Nat) (s : State) : State :=
  (s.setLane n { s.lane n with state := .paused, backoffEnd := none }).onSp
    (fun p => { p with waiting := p.waiting.filter (fun e => e.1 ≠ n) })

theorem pauseLane_stops {n : Nat} {s : State} (h : (s.lane n).stops = true) :
    pauseLane n s = leaveTokens n (releasePages n (servePages 4 (stopLane n s))) := if_pos (of_decide_eq_true h)

theorem stopLane_lane (n : Nat) (s : State) : (stopLane n s).lane n = { s.lane n with state := .paused, backoffEnd := none } :=
  lane_setLane_same n _ s

theorem stopLane_lane_other {n m : Nat} (s : State) (h : m ≠ n) : (stopLane n s).lane m = s.lane m := lane_setLane_other _ s h

/-- A lane's pages given back, before the page wait list is served. -/
def givePages (n : Nat) (s : State) : State :=
  (s.onSp (fun p => { p with free := (s.lane n).pages.foldr insertRising p.free })).setLane n { s.lane n with pages := [] }

theorem releasePages_eq (n : Nat) (s : State) : releasePages n s = servePages 4 (givePages n s) := rfl

theorem givePages_lane (n : Nat) (s : State) : (givePages n s).lane n = { s.lane n with pages := [] } := lane_setLane_same n _ _

theorem givePages_lane_other {n m : Nat} (s : State) (h : m ≠ n) : (givePages n s).lane m = s.lane m := lane_setLane_other _ _ h

/-- A lane stopped with nobody else on the page wait list. -/
theorem pauseLane_alone {n : Nat} {s : State} (h : (s.lane n).stops = true) (hw : s.sp.waiting.filter (fun e => e.1 ≠ n) = []) :
    pauseLane n s = leaveTokens n (givePages n (stopLane n s)) := by
  rw [pauseLane_stops h, servePages_none (s := stopLane n s) hw, releasePages_eq, servePages_none]
  exact hw

/-- A lane stopped with one lane waiting, for which only the pages given back suffice. -/
theorem pauseLane_serves {n m count : Nat} {s : State} (h : (s.lane n).stops = true)
    (hw : s.sp.waiting.filter (fun e => e.1 ≠ n) = [(m, count)]) (hfew : s.sp.free.length < count)
    (hmore : count ≤ ((s.lane n).pages.foldr insertRising s.sp.free).length) :
    pauseLane n s = leaveTokens n (reservePages m count
      ((givePages n (stopLane n s)).onSp (fun p => { p with waiting := [] }))) := by
  have hfirst : servePages 4 (stopLane n s) = stopLane n s := by
    have hwait : (stopLane n s).sp.waiting = [(m, count)] := hw
    rw [servePages, hwait]
    exact if_neg (Nat.not_le.2 hfew)
  have hlane : ((stopLane n s).lane n).pages = (s.lane n).pages := by rw [stopLane_lane]
  have hfree : (givePages n (stopLane n s)).sp.free = (s.lane n).pages.foldr insertRising s.sp.free := by
    change ((stopLane n s).lane n).pages.foldr insertRising s.sp.free = _
    rw [hlane]
  have hwait : (givePages n (stopLane n s)).sp.waiting = [(m, count)] := hw
  have hsecond : servePages 4 (givePages n (stopLane n s))
      = servePages 3 (reservePages m count ((givePages n (stopLane n s)).onSp (fun p => { p with waiting := [] }))) := by
    rw [servePages, hwait]
    exact if_pos (hfree ▸ hmore)
  rw [pauseLane_stops h, hfirst, releasePages_eq, hsecond, servePages_none]
  unfold reservePages
  split <;> rfl

theorem reservePages_eq {n count : Nat} {s : State} (h : (s.lane n).state = .waitPages) :
    reservePages n count s = { s.setLane n { s.lane n with pages := (s.lane n).pages ++ s.sp.free.take count } with
      sp := { s.sp with free := s.sp.free.drop count }, agenda := s.agenda ++ [.pagesGranted n] } := if_pos h

/-! ## The lanes paused one after another -/

theorem mem_insertRising {n k : Nat} {l : List Nat} : k ∈ insertRising n l ↔ k = n ∨ k ∈ l := by
  induction l with
  | nil => simp [insertRising]
  | cons m rest ih =>
    unfold insertRising
    split
    · simp
    · split
      · next h => simp [h]
      · rw [List.mem_cons, ih, List.mem_cons]
        exact or_left_comm

theorem mem_foldr_insertRising {k : Nat} {pages free : List Nat} :
    k ∈ pages.foldr insertRising free ↔ k ∈ pages ∨ k ∈ free := by
  induction pages with
  | nil => simp
  | cons p rest ih => rw [List.foldr_cons, mem_insertRising, ih, List.mem_cons, or_assoc]

/-- The part's lanes that PAUSE_JOBS stops. -/
def State.stopsAt (s : State) (n : Nat) : Bool := decide (n < 4) && (s.lane n).stops

theorem stopsAt_iff {s : State} {n : Nat} : s.stopsAt n = true ↔ n < 4 ∧ (s.lane n).stops = true := by
  rw [State.stopsAt, Bool.and_eq_true, decide_eq_true_eq]

/-- A page is free or held by a lane that PAUSE_JOBS stops. -/
def State.pooled (s t : State) (k : Nat) : Prop := k ∈ t.sp.free ∨ ∃ m, s.stopsAt m ∧ k ∈ (t.lane m).pages

/-- A state on the way from `s` to every lane paused: the lanes in `down` are PAUSED, those in `bare` have given their pages back, and
at most `b` lanes have been granted pages meanwhile. -/
structure Pausing (s : State) (down bare : Nat → Prop) (order : List Nat) (b : Nat) (t : State) : Prop where
  frame : { t with
    me := { t.me with paused := s.me.paused, lanes := s.me.lanes, tokenOrder := s.me.tokenOrder },
    sp := { t.sp with free := s.sp.free, waiting := s.sp.waiting }, agenda := s.agenda } = s
  paused : t.me.paused = true
  tokens : t.me.tokenOrder = order
  asks : ∀ i ∈ t.agenda, ∃ m, s.stopsAt m ∧ i = .pagesGranted m
  few : t.agenda.length ≤ b
  waits : ∀ e ∈ t.sp.waiting, s.stopsAt e.1 ∧ (s.lane e.1).state = .waitPages ∧ ¬down e.1
  stopped : ∀ m, down m → ∃ pages, t.lane m = (s.lane m).stopped pages
  runs : ∀ m, ¬down m → ∃ pages, t.lane m = { s.lane m with pages := pages }
  still : ∀ m, ¬s.stopsAt m → t.lane m = s.lane m
  empty : ∀ m, bare m → (t.lane m).pages = []
  pool : ∀ k, s.pooled t k ↔ s.pooled s k

/-- A change of one stopping lane's pages, against the free ones, keeps the pool. -/
theorem pooled_moved {s t u : State} {n k : Nat} (hn : s.stopsAt n) (ho : ∀ m, m ≠ n → u.lane m = t.lane m)
    (h : (k ∈ u.sp.free ∨ k ∈ (u.lane n).pages) ↔ (k ∈ t.sp.free ∨ k ∈ (t.lane n).pages)) : s.pooled u k ↔ s.pooled t k := by
  have one {v w : State} (ho : ∀ m, m ≠ n → v.lane m = w.lane m)
      (hv : k ∈ v.sp.free ∨ k ∈ (v.lane n).pages → k ∈ w.sp.free ∨ k ∈ (w.lane n).pages) : s.pooled v k → s.pooled w k := by
    have here (hk : k ∈ w.sp.free ∨ k ∈ (w.lane n).pages) : s.pooled w k := hk.imp_right fun hk => ⟨n, hn, hk⟩
    rintro (hk | ⟨m, hm, hk⟩)
    · exact here (hv (Or.inl hk))
    · by_cases hmn : m = n
      · exact here (hv (Or.inr (hmn ▸ hk)))
      · exact Or.inr ⟨m, hm, ho m hmn ▸ hk⟩
  exact ⟨one ho h.1, one (fun m hm => (ho m hm).symm) h.2⟩

namespace Pausing

variable {s t : State} {down bare : Nat → Prop} {order : List Nat} {b : Nat}

theorem weaken (h : Pausing s down bare order b t) {b' : Nat} (hle : b ≤ b') : Pausing s down bare order b' t :=
  { h with few := Nat.le_trans h.few hle }

/-- The head of the page wait list is granted pages. -/
theorem reserve (h : Pausing s down bare order b t) (hb : ∀ m, bare m → down m) {n count : Nat} {rest : List (Nat × Nat)}
    (hw : t.sp.waiting = (n, count) :: rest) :
    Pausing s down bare order (b + 1) (reservePages n count (t.onSp (fun p => { p with waiting := rest }))) := by
  obtain ⟨hstops, hstate, hdown⟩ := h.waits (n, count) (hw ▸ List.mem_cons_self)
  obtain ⟨pages, hlane⟩ := h.runs n hdown
  have hwaits : ∀ e ∈ rest, s.stopsAt e.1 ∧ (s.lane e.1).state = .waitPages ∧ ¬down e.1 := fun e he =>
    h.waits e (hw ▸ List.mem_cons_of_mem _ he)
  have hst : ((t.onSp (fun p => { p with waiting := rest })).lane n).state = .waitPages := by
    change (t.lane n).state = _
    rw [hlane]
    exact hstate
  have hsame := lane_setLane_same n { t.lane n with pages := (t.lane n).pages ++ t.sp.free.take count } t
  have hother := fun m (hm : m ≠ n) =>
    lane_setLane_other { t.lane n with pages := (t.lane n).pages ++ t.sp.free.take count } t hm
  rw [reservePages_eq hst]
  refine ⟨h.frame, h.paused, h.tokens, fun i hi => ?_, ?_, hwaits, fun m hm => ?_, fun m hm => ?_, fun m hm => ?_,
    fun m hm => ?_, fun k => ?_⟩
  · rcases List.mem_append.1 hi with hi | hi
    · exact h.asks i hi
    · exact ⟨n, hstops, List.mem_singleton.1 hi⟩
  · exact Nat.le_trans (Nat.le_of_eq List.length_append) (Nat.add_le_add_right h.few 1)
  · obtain ⟨pages', hm'⟩ := h.stopped m hm
    exact ⟨pages', (hother m fun hmn => hdown (hmn ▸ hm)).trans hm'⟩
  · by_cases hmn : m = n
    · subst hmn
      exact ⟨_, hsame.trans (by rw [hlane])⟩
    · obtain ⟨pages', hm'⟩ := h.runs m hm
      exact ⟨pages', (hother m hmn).trans hm'⟩
  · exact (hother m fun hmn => hm (hmn ▸ hstops)).trans (h.still m hm)
  · exact (congrArg Lane.pages (hother m fun hmn => hdown (hmn ▸ hb m hm))).trans (h.empty m hm)
  · refine Iff.trans ?_ (h.pool k)
    refine pooled_moved (n := n) hstops hother ?_
    refine (or_congr Iff.rfl (iff_of_eq (congrArg (fun l : Lane => k ∈ l.pages) hsame))).trans ?_
    change k ∈ t.sp.free.drop count ∨ k ∈ (t.lane n).pages ++ t.sp.free.take count ↔ _
    have hfree : k ∈ t.sp.free ↔ k ∈ t.sp.free.take count ∨ k ∈ t.sp.free.drop count := by
      rw [← List.mem_append, List.take_append_drop]
    rw [List.mem_append, hfree, or_left_comm, or_comm (a := k ∈ t.sp.free.drop count), or_comm, or_assoc]

theorem serve (h : Pausing s down bare order b t) (hb : ∀ m, bare m → down m) (k : Nat) :
    Pausing s down bare order (b + k) (servePages k t) := by
  induction k generalizing b t with
  | zero => exact h
  | succ k ih =>
    rw [servePages]
    split
    · exact h.weaken (by omega)
    · next n count rest hw =>
      split
      · have hnext := ih (h.reserve hb hw)
        rwa [Nat.add_right_comm] at hnext
      · exact h.weaken (by omega)

/-- A lane is stopped: PAUSED, and off the page wait list. -/
theorem stop (h : Pausing s down bare order b t) (hb : ∀ m, bare m → down m) {n : Nat} (hn : s.stopsAt n) (hd : ¬down n) :
    Pausing s (fun m => down m ∨ m = n) bare order b (stopLane n t) := by
  obtain ⟨pages, hlane⟩ := h.runs n hd
  have hother := fun m (hm : m ≠ n) => stopLane_lane_other t hm
  refine ⟨h.frame, h.paused, h.tokens, h.asks, h.few, fun e he => ?_, fun m hm => ?_, fun m hm => ?_, fun m hm => ?_,
    fun m hm => ?_, fun k => ?_⟩
  · obtain ⟨hin, hne⟩ := List.mem_filter.1 he
    obtain ⟨hstops, hstate, hdown⟩ := h.waits e hin
    exact ⟨hstops, hstate, not_or.2 ⟨hdown, of_decide_eq_true hne⟩⟩
  · by_cases hmn : m = n
    · subst hmn
      exact ⟨pages, (stopLane_lane m t).trans (by rw [hlane]; rfl)⟩
    · obtain ⟨pages', hm'⟩ := h.stopped m (hm.resolve_right hmn)
      exact ⟨pages', (hother m hmn).trans hm'⟩
  · obtain ⟨hdown, hmn⟩ := not_or.1 hm
    obtain ⟨pages', hm'⟩ := h.runs m hdown
    exact ⟨pages', (hother m hmn).trans hm'⟩
  · exact (hother m fun hmn => hm (hmn ▸ hn)).trans (h.still m hm)
  · exact (congrArg Lane.pages (hother m fun hmn => hd (hmn ▸ hb m hm))).trans (h.empty m hm)
  · refine (pooled_moved hn hother ?_).trans (h.pool k)
    rw [stopLane_lane]
    exact Iff.rfl

/-- A stopped lane gives its pages back. -/
theorem give (h : Pausing s down bare order b t) {n : Nat} (hn : s.stopsAt n) (hd : down n) :
    Pausing s down (fun m => bare m ∨ m = n) order b (givePages n t) := by
  have hother := fun m (hm : m ≠ n) => givePages_lane_other t hm
  refine ⟨h.frame, h.paused, h.tokens, h.asks, h.few, h.waits, fun m hm => ?_, fun m hm => ?_, fun m hm => ?_,
    fun m hm => ?_, fun k => ?_⟩
  · obtain ⟨pages, hm'⟩ := h.stopped m hm
    by_cases hmn : m = n
    · subst hmn
      exact ⟨[], (givePages_lane m t).trans (by rw [hm']; rfl)⟩
    · exact ⟨pages, (hother m hmn).trans hm'⟩
  · obtain ⟨pages, hm'⟩ := h.runs m hm
    exact ⟨pages, (hother m fun hmn => hm (hmn ▸ hd)).trans hm'⟩
  · exact (hother m fun hmn => hm (hmn ▸ hn)).trans (h.still m hm)
  · by_cases hmn : m = n
    · rw [hmn, givePages_lane]
    · exact (congrArg Lane.pages (hother m hmn)).trans (h.empty m (hm.resolve_right hmn))
  · refine (pooled_moved hn hother ?_).trans (h.pool k)
    refine (or_congr Iff.rfl (iff_of_eq (congrArg (fun l : Lane => k ∈ l.pages) (givePages_lane n t)))).trans ?_
    change k ∈ (t.lane n).pages.foldr insertRising t.sp.free ∨ k ∈ [] ↔ _
    rw [mem_foldr_insertRising]
    simp only [List.not_mem_nil, or_false]
    exact or_comm

theorem leave (h : Pausing s down bare order b t) (n : Nat) :
    Pausing s down bare (order.filter (fun k => k ≠ n)) b (leaveTokens n t) :=
  { h with tokens := congrArg (List.filter (fun k => k ≠ n)) h.tokens }

/-- PAUSE_JOBS reaches a lane that it stops. -/
theorem pause (h : Pausing s down down order b t) {n : Nat} (hn : s.stopsAt n) (hd : ¬down n) :
    Pausing s (fun m => down m ∨ m = n) (fun m => down m ∨ m = n) (order.filter (fun k => k ≠ n)) (b + 8) (pauseLane n t) := by
  obtain ⟨pages, hlane⟩ := h.runs n hd
  have hstops : (t.lane n).stops = true := by
    rw [hlane]
    exact (stopsAt_iff.1 hn).2
  have hstopped := (h.stop (fun _ => id) hn hd).serve (fun m hm => Or.inl hm) 4
  have hgiven := (hstopped.give hn (Or.inr rfl)).serve (fun _ => id) 4
  rw [pauseLane_stops hstops, releasePages_eq]
  exact hgiven.leave n

/-- PAUSE_JOBS passes a lane by. -/
theorem pass (h : Pausing s down down order b t) {n : Nat} (hn : n < 4) (hno : ¬s.stopsAt n) : pauseLane n t = t := by
  refine pauseLane_goes ?_
  rw [h.still n hno]
  exact Bool.eq_false_iff.2 fun hs => hno (stopsAt_iff.2 ⟨hn, hs⟩)

/-- PAUSE_JOBS reaches lanes one after another. -/
theorem pauseAll {ns : List Nat} (h : Pausing s down down order b t) (hn : ns.Nodup) (hlow : ∀ n ∈ ns, n < 4)
    (hd : ∀ n ∈ ns, ¬down n) :
    Pausing s (fun m => down m ∨ m ∈ ns ∧ s.stopsAt m) (fun m => down m ∨ m ∈ ns ∧ s.stopsAt m)
      (order.filter (fun k => !(decide (k ∈ ns) && s.stopsAt k))) (b + 8 * ns.length) (forEach pauseLane ns t) := by
  induction ns generalizing down order b t with
  | nil =>
    simp only [List.not_mem_nil, false_and, or_false, decide_false, Bool.false_and, Bool.not_false, List.length_nil, Nat.mul_zero,
      Nat.add_zero, List.filter_eq_self.2 fun _ _ => rfl]
    exact h
  | cons n rest ih =>
    rw [List.nodup_cons] at hn
    have hlow' : ∀ m ∈ rest, m < 4 := fun m hm => hlow m (List.mem_cons_of_mem _ hm)
    have hd' : ∀ m ∈ rest, ¬down m := fun m hm => hd m (List.mem_cons_of_mem _ hm)
    rw [forEach]
    by_cases hs : s.stopsAt n = true
    · have hrest := ih (h.pause hs (hd n List.mem_cons_self)) hn.2 hlow' fun m hm =>
        not_or.2 ⟨hd' m hm, fun hmn => hn.1 (hmn ▸ hm)⟩
      have hdown : (fun m => (down m ∨ m = n) ∨ m ∈ rest ∧ s.stopsAt m = true)
          = fun m => down m ∨ m ∈ n :: rest ∧ s.stopsAt m = true := by
        funext m
        rw [List.mem_cons, or_assoc, or_and_right]
        refine propext (or_congr Iff.rfl (or_congr ⟨fun hm => ⟨hm, hm ▸ hs⟩, fun hm => hm.1⟩ Iff.rfl))
      have horder : (order.filter (fun k => k ≠ n)).filter (fun k => !(decide (k ∈ rest) && s.stopsAt k))
          = order.filter (fun k => !(decide (k ∈ n :: rest) && s.stopsAt k)) := by
        rw [List.filter_filter]
        refine List.filter_congr fun k _ => ?_
        by_cases hk : k = n
        · simp [hk, hs]
        · simp [hk]
      rw [hdown, horder] at hrest
      exact hrest.weaken (by simp only [List.length_cons]; omega)
    · have hrest := ih h hn.2 hlow' hd'
      have hdown : (fun m => down m ∨ m ∈ rest ∧ s.stopsAt m = true) = fun m => down m ∨ m ∈ n :: rest ∧ s.stopsAt m = true := by
        funext m
        refine propext (or_congr Iff.rfl ⟨fun hm => ⟨List.mem_cons_of_mem _ hm.1, hm.2⟩, fun hm => ⟨?_, hm.2⟩⟩)
        exact (List.mem_cons.1 hm.1).resolve_left fun hmn => hs (hmn ▸ hm.2)
      have horder : order.filter (fun k => !(decide (k ∈ rest) && s.stopsAt k))
          = order.filter (fun k => !(decide (k ∈ n :: rest) && s.stopsAt k)) := by
        refine List.filter_congr fun k _ => ?_
        by_cases hk : k = n
        · simp [hk, hs]
        · simp [hk]
      rw [hdown, horder] at hrest
      rw [h.pass (hlow n List.mem_cons_self) hs]
      exact hrest.weaken (by simp only [List.length_cons]; omega)

theorem mp_eq (h : Pausing s down bare order b t) : t.mp = s.mp := (congrArg State.mp h.frame :)

theorem clock_eq (h : Pausing s down bare order b t) : t.clock = s.clock := (congrArg State.clock h.frame :)

theorem pending_eq (h : Pausing s down bare order b t) : t.pending = s.pending := (congrArg State.pending h.frame :)

theorem memory_eq (h : Pausing s down bare order b t) : t.sp.memory = s.sp.memory :=
  (congrArg (fun s : State => s.sp.memory) h.frame :)

theorem holder_eq (h : Pausing s down bare order b t) : t.sp.holder = s.sp.holder :=
  (congrArg (fun s : State => s.sp.holder) h.frame :)

theorem recoveryWait_eq (h : Pausing s down bare order b t) : t.sp.recoveryWait = s.sp.recoveryWait :=
  (congrArg (fun s : State => s.sp.recoveryWait) h.frame :)

theorem tokens_eq (h : Pausing s down bare order b t) : t.me.tokens = s.me.tokens :=
  (congrArg (fun s : State => s.me.tokens) h.frame :)

theorem counters_eq (h : Pausing s down bare order b t) : t.me.counters = s.me.counters :=
  (congrArg (fun s : State => s.me.counters) h.frame :)

theorem damage_eq (h : Pausing s down bare order b t) : t.me.damage = s.me.damage :=
  (congrArg (fun s : State => s.me.damage) h.frame :)

theorem pm_eq (h : Pausing s down bare order b t) : t.pm = s.pm :=
  (congrArg (fun s : State => s.pm) h.frame :)

theorem gu_eq (h : Pausing s down bare order b t) : t.gu = s.gu :=
  (congrArg (fun s : State => s.gu) h.frame :)

theorem dp_eq (h : Pausing s down bare order b t) : t.dp = s.dp :=
  (congrArg (fun s : State => s.dp) h.frame :)

theorem jc_eq (h : Pausing s down bare order b t) : t.jc = s.jc :=
  (congrArg (fun s : State => s.jc) h.frame :)

theorem sm_eq (h : Pausing s down bare order b t) : t.sm = s.sm :=
  (congrArg (fun s : State => s.sm) h.frame :)

theorem jobs_eq (h : Pausing s down bare order b t) : t.me.jobs = s.me.jobs := (congrArg (fun s : State => s.me.jobs) h.frame :)

end Pausing

theorem enterToken_none {n : Nat} {s : State} (h : (s.lane n).state ≠ .waitPages ∨ (s.lane n).pages = []) : enterToken n s = s :=
  if_neg fun hh => h.elim (fun h => h hh.1) fun h => hh.2 h

/-- A lane that PAUSE_JOBS stops is not IDLE. -/
theorem Lane.stops_busy {l : Lane} (h : l.stops = true) : l.state ≠ .idle := fun hi => by
  have hs := (of_decide_eq_true h).1
  rw [hi] at hs
  rcases hs with hs | hs | hs <;> cases hs

/-- Every lane has been told of the pause. -/
@[irreducible] def State.pausedAll (s : State) : State := forEach pauseLane (List.range 4) { s with me := { s.me with paused := true } }

/-- The lanes that PAUSE_JOBS has stopped. -/
def State.downAll (s : State) (m : Nat) : Prop := s.stopsAt m = true

theorem pausedAll_pausing {s : State} (hq : s.agenda = []) (hw : ∀ e ∈ s.sp.waiting, s.stopsAt e.1 ∧ (s.lane e.1).state = .waitPages) :
    Pausing s s.downAll s.downAll (s.me.tokenOrder.filter (fun k => !s.stopsAt k)) 32 s.pausedAll := by
  have hstart : Pausing s (fun _ => False) (fun _ => False) s.me.tokenOrder 0 { s with me := { s.me with paused := true } } :=
    { frame := rfl
      paused := rfl
      tokens := rfl
      asks := fun i hi => absurd (hq ▸ hi) List.not_mem_nil
      few := Nat.le_of_eq (congrArg List.length hq)
      waits := fun e he => ⟨(hw e he).1, (hw e he).2, id⟩
      stopped := fun _ h => h.elim
      runs := fun m _ => ⟨(s.lane m).pages, rfl⟩
      still := fun _ _ => rfl
      empty := fun _ h => h.elim
      pool := fun _ => Iff.rfl }
  have hall := hstart.pauseAll (ns := List.range 4) List.nodup_range (fun n hn => List.mem_range.1 hn) fun _ _ => id
  have hdown : (fun m => False ∨ m ∈ List.range 4 ∧ s.stopsAt m = true) = s.downAll := by
    funext m
    rw [false_or, List.mem_range]
    exact propext (and_iff_right_of_imp fun h => (stopsAt_iff.1 h).1)
  have horder : s.me.tokenOrder.filter (fun k => !(decide (k ∈ List.range 4) && s.stopsAt k))
      = s.me.tokenOrder.filter (fun k => !s.stopsAt k) := by
    refine List.filter_congr fun k _ => congrArg _ ?_
    by_cases hk : k < 4
    · rw [decide_eq_true (List.mem_range.2 hk), Bool.true_and]
    · rw [State.stopsAt, decide_eq_false hk, Bool.false_and, Bool.and_false]
  rw [hdown, horder] at hall
  rw [State.pausedAll]
  exact hall

/-- PAUSE_JOBS ends with every lane told: a lane granted pages meanwhile is PAUSED and lets the grant pass. -/
theorem exec_pauseJobs {s : State} {tag : ReqTag} {p : List Byte} (hs : s.serves .pauseJobs tag p)
    (hw : ∀ e ∈ s.sp.waiting, s.stopsAt e.1 ∧ (s.lane e.1).state = .waitPages) :
    exec (.pauseJobs tag) s = .next { s.pausedAll with mp := (s.answer tag .ok .empty).mp, agenda := [] } := by
  have hp := pausedAll_pausing hs.1 hw
  have hmp : s.pausedAll.mp = s.mp := hp.mp_eq
  have hanswer := answer_of_mp tag .ok .empty hmp
  refine (takeRequest_serves hs).trans (congrArg Host.Outcome.next ?_)
  have hserve : servePauseJobs tag p s = s.pausedAll.answer tag .ok .empty := by
    rw [State.pausedAll]
    rfl
  rw [hserve, hanswer]
  refine finish_still (t := { s.pausedAll with mp := (s.answer tag .ok .empty).mp }) (l := s.pausedAll.agenda)
    (Nat.le_trans hp.few (by decide)) (fun i hi => ?_) hp.clock_eq hp.pending_eq
    (jobsIdle_congr hp.jobs_eq fun n hn => ?_)
  · obtain ⟨m, hm, rfl⟩ := hp.asks i hi
    obtain ⟨pages, hlane⟩ := hp.stopped m hm
    have hstate : (s.pausedAll.lane m).state = .paused := by rw [hlane]; rfl
    exact enterToken_none (Or.inl (by change (s.pausedAll.lane m).state ≠ _; rw [hstate]; nofun))
  · change (s.pausedAll.lane n).state = .idle ↔ _
    by_cases hm : s.stopsAt n = true
    · obtain ⟨pages, hlane⟩ := hp.stopped n hm
      rw [hlane]
      exact iff_of_false (by nofun) (Lane.stops_busy (stopsAt_iff.1 hm).2)
    · rw [hp.still n hm]

/-! ## The lanes resumed -/

theorem resumeLane_paused {n : Nat} {s : State} (h : (s.lane n).state = .paused) : resumeLane n s = startAttempt n s := if_pos h

theorem resumeLane_other {n : Nat} {s : State} (h : (s.lane n).state ≠ .paused) : resumeLane n s = s := if_neg h

theorem forEach_resumeLane_none {ns : List Nat} {s : State} (h : ∀ n ∈ ns, (s.lane n).state ≠ .paused) :
    forEach resumeLane ns s = s := by
  induction ns with
  | nil => rfl
  | cons n rest ih =>
    rw [forEach, resumeLane_other (h n List.mem_cons_self)]
    exact ih fun m hm => h m (List.mem_cons_of_mem _ hm)

/-- One PAUSED lane among others asks for its pages, and nothing else happens. -/
theorem forEach_resumeLane_one {ns : List Nat} {n : Nat} {s : State} (hn : ns.Nodup) (hin : n ∈ ns)
    (hp : (s.lane n).state = .paused) (ho : ∀ m ∈ ns, m ≠ n → (s.lane m).state ≠ .paused) :
    forEach resumeLane ns s = startAttempt n s := by
  obtain ⟨before, after, rfl⟩ := List.append_of_mem hin
  rw [List.nodup_append, List.nodup_cons] at hn
  obtain ⟨-, ⟨hafter, -⟩, hapart⟩ := hn
  have hbefore : ∀ m ∈ before, (s.lane m).state ≠ .paused := fun m hm =>
    ho m (List.mem_append_left _ hm) (hapart m hm n List.mem_cons_self)
  have hlater : ∀ m ∈ after, ((startAttempt n s).lane m).state ≠ .paused := fun m hm => by
    have hne : m ≠ n := fun hmn => hafter (hmn ▸ hm)
    rw [startAttempt_lane_other s hne]
    exact ho m (List.mem_append_right _ (List.mem_cons_of_mem _ hm)) hne
  rw [forEach_append, forEach_resumeLane_none hbefore, forEach, resumeLane_paused hp, forEach_resumeLane_none hlater]

/-- The pause mode off. -/
def State.unpaused (s : State) : State := { s with me := { s.me with paused := false } }

theorem exec_resumeJobs {s : State} {tag : ReqTag} {p : List Byte} (hs : s.serves .resumeJobs tag p) :
    exec (.resumeJobs tag) s = .next (finish s ((forEach resumeLane (List.range 4) s.unpaused).answer tag .ok .empty)) :=
  takeRequest_serves hs

/-! ## A lane with its pages (R81) -/

section
variable {n : Nat} {w : State}

/-- A lane with its pages enters WAIT_TOKEN. -/
def State.readied (w : State) (n : Nat) : State := w.setLane n { w.lane n with state := .waitToken }

theorem enterToken_enters (hs : (w.lane n).state = .waitPages) (hp : (w.lane n).pages ≠ []) :
    enterToken n w =
      if w.me.moveRate = 0 then (w.readied n).post (.rowStart n)
      else if 0 < w.me.tokens ∧ w.me.tokenOrder = [] then
        ((w.readied n).onMe (fun m => { m with tokens := m.tokens - 1 })).post (.rowStart n)
      else (w.readied n).onMe (fun m => { m with tokenOrder := m.tokenOrder ++ [n] }) := if_pos ⟨hs, hp⟩

theorem enterToken_passes (hs : (w.lane n).state = .waitPages) (hp : (w.lane n).pages ≠ []) (hr : w.me.moveRate = 0) :
    enterToken n w = (w.readied n).post (.rowStart n) := (enterToken_enters hs hp).trans (if_pos hr)

theorem enterToken_takes (hs : (w.lane n).state = .waitPages) (hp : (w.lane n).pages ≠ []) (hr : w.me.moveRate ≠ 0)
    (ht : 0 < w.me.tokens) (ho : w.me.tokenOrder = []) :
    enterToken n w = { w.readied n with
      me := { (w.readied n).me with tokens := w.me.tokens - 1 }, agenda := w.agenda ++ [.rowStart n] } :=
  (enterToken_enters hs hp).trans ((if_neg hr).trans (if_pos ⟨ht, ho⟩))

theorem enterToken_waits (hs : (w.lane n).state = .waitPages) (hp : (w.lane n).pages ≠ []) (hr : w.me.moveRate ≠ 0)
    (ht : w.me.tokens = 0 ∨ w.me.tokenOrder ≠ []) :
    enterToken n w = { w.readied n with me := { (w.readied n).me with tokenOrder := w.me.tokenOrder ++ [n] } } := by
  refine (enterToken_enters hs hp).trans ((if_neg hr).trans (if_neg ?_))
  rintro ⟨htokens, horder⟩
  exact ht.elim (fun h => Nat.ne_of_gt htokens h) fun h => h horder

end

/-! ## Pause and resume of the part -/

/-- With no pages held and none awaited, the pause leaves the pages as they are. -/
theorem forEach_pauseLane_sp (ns : List Nat) {s : State} (hw : s.sp.waiting = []) (hp : ∀ n, (s.lane n).pages = []) :
    (forEach pauseLane ns s).sp = s.sp := by
  induction ns generalizing s with
  | nil => rfl
  | cons n rest ih =>
    rw [forEach]
    by_cases hs : (s.lane n).stops = true
    · have hfilter : s.sp.waiting.filter (fun e => e.1 ≠ n) = [] := by rw [hw]; rfl
      have hpages : ((stopLane n s).lane n).pages = [] := by
        rw [stopLane_lane]
        exact hp n
      have hsp : (pauseLane n s).sp = s.sp := by
        rw [pauseLane_alone hs hfilter]
        change { s.sp with free := ((stopLane n s).lane n).pages.foldr insertRising s.sp.free,
                           waiting := s.sp.waiting.filter (fun e => e.1 ≠ n) } = s.sp
        rw [hpages, hfilter, ← hw]
        rfl
      have hrest : ∀ m, ((pauseLane n s).lane m).pages = [] := fun m => by
        rw [pauseLane_alone hs hfilter]
        change ((givePages n (stopLane n s)).lane m).pages = []
        by_cases hm : m = n
        · rw [hm, givePages_lane]
        · rw [givePages_lane_other _ hm, stopLane_lane_other _ hm]
          exact hp m
      exact (ih (hsp ▸ hw) hrest).trans hsp
    · rw [pauseLane_goes (Bool.not_eq_true _ ▸ hs)]
      exact ih hw hp

theorem Lane.stops_iff {l : Lane} :
    l.stops = true ↔ (l.state = .waitPages ∨ l.state = .waitToken ∨ l.state = .backoff) ∧ l.lockout = false := decide_eq_true_iff

/-- The lanes after the pause: those stopped hold no page, and no other one has changed. -/
theorem pausedAll_lane {s : State} {order : List Nat} {b : Nat} (h : Pausing s s.downAll s.downAll order b s.pausedAll) (n : Nat) :
    (s.stopsAt n = true → s.pausedAll.lane n = (s.lane n).stopped []) ∧ (s.stopsAt n ≠ true → s.pausedAll.lane n = s.lane n) := by
  refine ⟨fun hs => ?_, h.still n⟩
  obtain ⟨pages, hlane⟩ := h.stopped n hs
  have hpages : pages = [] := (congrArg Lane.pages hlane).symm.trans (h.empty n hs)
  rw [hlane, hpages]

theorem pause_without_pages {s : State} {tag : ReqTag} {p : List Byte} (hs : s.serves .pauseJobs tag p) (hw : s.sp.waiting = [])
    (hp : ∀ n, (s.lane n).pages = []) :
    ∃ t : State, exec (.pauseJobs tag) s = .next t
      ∧ t.me.paused = true
      ∧ (∀ n < 4, t.lane n =
          if ((s.lane n).state = .waitPages ∨ (s.lane n).state = .waitToken ∨ (s.lane n).state = .backoff)
              ∧ (s.lane n).lockout = false then
            { s.lane n with state := .paused, backoffEnd := none }
          else s.lane n)
      ∧ t.me.jobs = s.me.jobs ∧ t.sp = s.sp ∧ t.pm = s.pm ∧ t.gu = s.gu ∧ t.jc = s.jc
      ∧ t.mp = (s.answer tag .ok .empty).mp := by
  have hwaits : ∀ e ∈ s.sp.waiting, s.stopsAt e.1 ∧ (s.lane e.1).state = .waitPages := fun e he =>
    absurd (hw ▸ he) List.not_mem_nil
  have h := pausedAll_pausing hs.1 hwaits
  have hsp : s.pausedAll.sp = s.sp := by
    rw [State.pausedAll]
    exact forEach_pauseLane_sp (s := { s with me := { s.me with paused := true } }) (List.range 4) hw hp
  refine ⟨_, exec_pauseJobs hs hwaits, h.paused, fun n hn => ?_, h.jobs_eq, hsp, h.pm_eq, h.gu_eq, h.jc_eq, rfl⟩
  obtain ⟨hdown, hup⟩ := pausedAll_lane h n
  have hat : s.stopsAt n = true ↔ (s.lane n).stops = true := stopsAt_iff.trans (and_iff_right hn)
  change s.pausedAll.lane n = _
  split
  · next hstops =>
    rw [hdown (hat.2 (Lane.stops_iff.2 hstops)), Lane.stopped, ← hp n]
  · next hgoes => exact hup fun hs => hgoes (Lane.stops_iff.1 (hat.1 hs))

theorem pause_with_pages {s : State} {tag : ReqTag} {p : List Byte} (hs : s.serves .pauseJobs tag p)
    (hlock : ∀ n < 4, (s.lane n).lockout = false) (hw : ∀ e ∈ s.sp.waiting, e.1 < 4 ∧ (s.lane e.1).state = .waitPages) :
    let stops (n : Nat) : Prop :=
      (s.lane n).state = .waitPages ∨ (s.lane n).state = .waitToken ∨ (s.lane n).state = .backoff
    ∃ t : State, exec (.pauseJobs tag) s = .next t
      ∧ t.me.paused = true
      ∧ (∀ n < 4, stops n → t.lane n = { s.lane n with state := .paused, backoffEnd := none, pages := [] })
      ∧ (∀ n < 4, ¬stops n → t.lane n = s.lane n)
      ∧ (∀ k, k ∈ t.sp.free ↔ k ∈ s.sp.free ∨ ∃ n < 4, stops n ∧ k ∈ (s.lane n).pages)
      ∧ t.sp.waiting = [] ∧ t.me.tokenOrder = s.me.tokenOrder.filter
          (fun n => !(decide (n < 4) && decide ((s.lane n).state = .waitPages ∨ (s.lane n).state = .waitToken
            ∨ (s.lane n).state = .backoff)))
      ∧ t.sp.memory = s.sp.memory ∧ t.sp.holder = s.sp.holder ∧ t.sp.recoveryWait = s.sp.recoveryWait
      ∧ t.me.jobs = s.me.jobs ∧ t.me.tokens = s.me.tokens ∧ t.me.counters = s.me.counters ∧ t.me.damage = s.me.damage
      ∧ t.pm = s.pm ∧ t.gu = s.gu ∧ t.dp = s.dp ∧ t.jc = s.jc ∧ t.sm = s.sm
      ∧ t.mp = (s.answer tag .ok .empty).mp := by
  intro stops
  have hat {n : Nat} : s.stopsAt n = true ↔ n < 4 ∧ stops n :=
    stopsAt_iff.trans (and_congr_right fun hn => Lane.stops_iff.trans (and_iff_left (hlock n hn)))
  have hwaits : ∀ e ∈ s.sp.waiting, s.stopsAt e.1 ∧ (s.lane e.1).state = .waitPages := fun e he =>
    ⟨hat.2 ⟨(hw e he).1, Or.inl (hw e he).2⟩, (hw e he).2⟩
  have h := pausedAll_pausing hs.1 hwaits
  refine ⟨_, exec_pauseJobs hs hwaits, h.paused, fun n hn hstops => (pausedAll_lane h n).1 (hat.2 ⟨hn, hstops⟩),
    fun n hn hgoes => (pausedAll_lane h n).2 fun hs => hgoes (hat.1 hs).2, fun k => ?_, ?_, ?_,
    h.memory_eq, h.holder_eq, h.recoveryWait_eq, h.jobs_eq, h.tokens_eq, h.counters_eq, h.damage_eq, h.pm_eq, h.gu_eq, h.dp_eq,
    h.jc_eq, h.sm_eq, rfl⟩
  · refine Iff.trans ⟨fun hk => Or.inl hk, fun hk => ?_⟩ ((h.pool k).trans (or_congr Iff.rfl (exists_congr fun m => ?_)))
    · refine hk.resolve_right fun ⟨m, hm, hin⟩ => ?_
      rw [(pausedAll_lane h m).1 hm] at hin
      exact List.not_mem_nil hin
    · rw [hat, and_assoc]
  · refine List.eq_nil_iff_forall_not_mem.2 fun e he => ?_
    obtain ⟨hstops, -, hdown⟩ := h.waits e he
    exact hdown hstops
  · refine h.tokens.trans (List.filter_congr fun k _ => congrArg not ?_)
    rw [Bool.eq_iff_iff, hat, Bool.and_eq_true, decide_eq_true_eq, decide_eq_true_eq]

/-- RESUME_JOBS with one lane PAUSED ends with that lane's attempt. -/
theorem exec_resumeJobs_one {s : State} {tag : ReqTag} {p : List Byte} {n : Nat} (hs : s.serves .resumeJobs tag p) (hn : n < 4)
    (hp : (s.lane n).state = .paused) (ho : ∀ m < 4, m ≠ n → (s.lane m).state ≠ .paused) {t : State}
    (ht : startAttempt n s.unpaused = t) (hmp : t.mp = s.mp) :
    exec (.resumeJobs tag) s = .next (finish s { t with mp := (s.answer tag .ok .empty).mp }) := by
  have hone : forEach resumeLane (List.range 4) s.unpaused = startAttempt n s.unpaused :=
    forEach_resumeLane_one List.nodup_range (List.mem_range.2 hn) hp fun m hm hmn => ho m (List.mem_range.1 hm) hmn
  rw [exec_resumeJobs hs, hone, ht, answer_of_mp tag .ok .empty hmp]

theorem resume_waits {s : State} {tag : ReqTag} {p : List Byte} {n : Nat} (hs : s.serves .resumeJobs tag p) (hn : n < 4)
    (hp : (s.lane n).state = .paused) (hpages : (s.lane n).pages = []) (ho : ∀ m < 4, m ≠ n → (s.lane m).state ≠ .paused)
    (hr : s.waitsForRoom (.lane n) = false) (hl : s.onPageList n = false)
    (hw : s.sp.waiting ≠ [] ∨ s.sp.free.length < rowPages (s.rowSet (s.lane n))) :
    ∃ t : State, exec (.resumeJobs tag) s = .next t
      ∧ t.me.paused = false ∧ (t.lane n).state = .waitPages ∧ (t.lane n).row = (s.lane n).row
      ∧ (∀ m, m ≠ n → t.lane m = s.lane m)
      ∧ t.sp = { s.sp with waiting := s.sp.waiting ++ [(n, rowPages (s.rowSet (s.lane n)))] }
      ∧ t.mp = (s.answer tag .ok .empty).mp := by
  have hbusy : (s.lane n).state ≠ .idle := by rw [hp]; nofun
  have hexec := exec_resumeJobs_one hs hn hp ho (startAttempt_waits (s := s.unpaused) (n := n) (Or.inl rfl) hpages hr hl hw) rfl
  have hlane := lane_setLane_same n (s.unpaused.tried n) s.unpaused
  have hother := fun m (hm : m ≠ n) => lane_setLane_other (s.unpaused.tried n) s.unpaused hm
  refine ⟨_, hexec.trans (next_finish rfl hs.1 rfl rfl (jobsIdle_of_lane rfl hother (fun h => ?_) hbusy)), rfl,
    (congrArg Lane.state hlane).trans rfl, (congrArg Lane.row hlane).trans rfl, hother, rfl, rfl⟩
  exact absurd (hlane ▸ h) (by nofun)

theorem resume_takes {s : State} {tag : ReqTag} {p : List Byte} {n : Nat} (hs : s.serves .resumeJobs tag p) (hn : n < 4)
    (hp : (s.lane n).state = .paused) (hpages : (s.lane n).pages = []) (ho : ∀ m < 4, m ≠ n → (s.lane m).state ≠ .paused)
    (hr : s.waitsForRoom (.lane n) = false) (hl : s.onPageList n = false) (hw : s.sp.waiting = [])
    (hfree : rowPages (s.rowSet (s.lane n)) ≤ s.sp.free.length) (hcount : 1 ≤ rowPages (s.rowSet (s.lane n)))
    (hrate : s.me.moveRate ≠ 0) (htokens : s.me.tokens = 0 ∨ s.me.tokenOrder ≠ []) :
    ∃ t : State, exec (.resumeJobs tag) s = .next t
      ∧ t.me.paused = false
      ∧ t.lane n = { s.lane n with
          state := .waitToken, pages := s.sp.free.take (rowPages (s.rowSet (s.lane n))), work := RowWork.none,
          backoffEnd := none }
      ∧ (∀ m, m ≠ n → t.lane m = s.lane m)
      ∧ t.sp = { s.sp with free := s.sp.free.drop (rowPages (s.rowSet (s.lane n))) }
      ∧ t.me.tokenOrder = s.me.tokenOrder ++ [n] ∧ t.me.tokens = s.me.tokens
      ∧ t.mp = (s.answer tag .ok .empty).mp := by
  have hbusy : (s.lane n).state ≠ .idle := by rw [hp]; nofun
  have hexec := exec_resumeJobs_one hs hn hp ho (startAttempt_takes (s := s.unpaused) (n := n) (Or.inl rfl) hpages hr hl hw hfree) rfl
  let l : Lane := { s.unpaused.tried n with pages := s.sp.free.take (rowPages (s.rowSet (s.lane n))) }
  let v : State := { s.unpaused.setLane n l with
    sp := { s.sp with free := s.sp.free.drop (rowPages (s.rowSet (s.lane n))) }, mp := (s.answer tag .ok .empty).mp, agenda := [] }
  have hv : v.lane n = l := lane_setLane_same n l s.unpaused
  have htaken : (v.lane n).pages ≠ [] := by
    rw [hv]
    refine List.ne_nil_of_length_pos ?_
    change 0 < (s.sp.free.take _).length
    rw [List.length_take]
    omega
  have hready := enterToken_waits (n := n) (w := v) (by rw [hv]; rfl) htaken hrate htokens
  have hlane : (v.readied n).lane n = { l with state := .waitToken } := by
    rw [State.readied, lane_setLane_same, hv]
  have hother : ∀ m, m ≠ n → (v.readied n).lane m = s.lane m := fun m hm =>
    (lane_setLane_other _ v hm).trans (lane_setLane_other l s.unpaused hm)
  refine ⟨_, hexec.trans (congrArg Host.Outcome.next (finish_one (congrArg (· ++ [Internal.pagesGranted n]) hs.1) hready rfl rfl rfl
    (jobsIdle_of_lane rfl hother (fun h => ?_) hbusy))), rfl, hlane, hother, rfl, rfl, rfl, rfl⟩
  exact absurd (hlane ▸ h) (by nofun)

theorem forEach_lanes (f : Nat → State → State) (s : State) :
    forEach f (List.range Config.laneCount) s = f 3 (f 2 (f 1 (f 0 s))) := rfl

/-- Settles O42: the lanes stopped one after another, and the lanes that ask for their pages anew. -/
theorem jobsPausedAndResumed : Obligations.JobsPausedAndResumed := by
  refine ⟨fun s tag p => ⟨pause_without_pages, fun hs _ _ => pause_with_pages hs, fun hs => ?_, fun hs => ?_,
    fun hs hnone => ?_, fun hs n hn hp hpages ho hr hl =>
      ⟨resume_waits hs hn hp hpages ho hr hl, resume_takes hs hn hp hpages ho hr hl⟩⟩, fun s n => ?_⟩
  · refine (takeRequest_serves hs).trans ?_
    rw [servePauseJobs, forEach_lanes]
    rfl
  · refine (takeRequest_serves hs).trans ?_
    rw [serveResumeJobs, forEach_lanes]
    rfl
  · refine (exec_resumeJobs hs).trans ?_
    have hquiet : forEach resumeLane (List.range 4) s.unpaused = s.unpaused :=
      forEach_resumeLane_none (s := s.unpaused) fun n hn => hnone n (List.mem_range.1 hn)
    rw [hquiet, answer_of_mp (s := s) (t := s.unpaused) tag .ok .empty rfl,
      answer_of_mp (s := s) (t := { s with me := { s.me with paused := false } }) tag .ok .empty rfl]
    exact next_finish rfl hs.1 rfl rfl rfl
  · intro l free paused stops others
    have hlane : (givePages n (stopLane n s)).lane n = { l with state := .paused, backoffEnd := none, pages := [] } := by
      rw [givePages_lane, stopLane_lane]
    have hother : ∀ m, m ≠ n → (givePages n (stopLane n s)).lane m = s.lane m := fun m hm =>
      (givePages_lane_other _ hm).trans (stopLane_lane_other s hm)
    have hfree : (givePages n (stopLane n s)).sp.free = free := by
      change ((stopLane n s).lane n).pages.foldr insertRising s.sp.free = _
      rw [stopLane_lane]
    refine ⟨fun hgoes => pauseLane_goes (Bool.eq_false_iff.2 fun h => hgoes (Lane.stops_iff.1 h)), fun hstops hw => ?_,
      fun m count hstops hw hwaits hfew hmore => ?_, resumeLane_other, resumeLane_paused⟩
    · rw [pauseLane_alone (Lane.stops_iff.2 hstops) hw]
      exact ⟨⟨hlane, rfl, hw⟩, hfree, hother, rfl⟩
    · have hm : m ≠ n := by
        have hin : (m, count) ∈ others := by rw [hw]; exact List.mem_singleton_self _
        exact of_decide_eq_true (List.mem_filter.1 hin).2
      let v := (givePages n (stopLane n s)).onSp (fun p => { p with waiting := [] })
      have hv : v.lane m = s.lane m := hother m hm
      have hvfree : v.sp.free = free := hfree
      rw [pauseLane_serves (Lane.stops_iff.2 hstops) hw hfew hmore]
      change paused (leaveTokens n (reservePages m count v)) [] ∧ (leaveTokens n (reservePages m count v)).sp.free = _
        ∧ (leaveTokens n (reservePages m count v)).lane m = _ ∧ (leaveTokens n (reservePages m count v)).agenda = _
      rw [reservePages_eq (s := v) (by rw [hv]; exact hwaits), hv, hvfree]
      exact ⟨⟨(lane_setLane_other _ v hm.symm).trans hlane, rfl, rfl⟩, rfl, lane_setLane_same m _ v, rfl⟩

end Sys2Proof.Machine
end

section
/-! PROOFS. Block tags (R24), and the blocks that a lane lays in staging memory (R108, R111, R114 to R117). -/

namespace Sys2Proof.Machine

/-! ## Tags (R24) -/

theorem tagBits_toNat (g : BitVec 16) (p : TagPlace) :
    (tagBits g p).toNat = g.toNat * 2 ^ 48 + p.kind.code.toNat * 2 ^ 44 + (BitVec.ofNat 12 p.owner).toNat * 2 ^ 32
      + (BitVec.ofNat 32 p.ref).toNat := by
  have append {v w : Nat} (x : BitVec v) (y : BitVec w) : (x ++ y).toNat = x.toNat * 2 ^ w + y.toNat := by
    rw [BitVec.toNat_append, ← Nat.shiftLeft_add_eq_or_of_lt y.isLt, Nat.shiftLeft_eq]
  rw [tagBits, append, append, append]
  omega

/-- A tag is its guard, its kind, its owner and its reference. -/
theorem eq_tagBits_iff (t : TagBits) (g : BitVec 16) (p : TagPlace) :
    t = tagBits g p ↔ t.extractLsb' 48 16 = g ∧ t.extractLsb' 44 4 = p.kind.code
      ∧ t.extractLsb' 32 12 = BitVec.ofNat 12 p.owner ∧ t.extractLsb' 0 32 = BitVec.ofNat 32 p.ref := by
  have hg := g.isLt
  have hk := p.kind.code.isLt
  have ho := (BitVec.ofNat 12 p.owner).isLt
  have hr := (BitVec.ofNat 32 p.ref).isLt
  have ht := t.isLt
  simp only [← BitVec.toNat_inj, tagBits_toNat, BitVec.extractLsb'_toNat, Nat.shiftRight_eq_div_pow]
  omega

theorem compl_ne (g : BitVec 16) : ~~~g ≠ g := fun h => by
  have := congrArg BitVec.toNat h
  rw [BitVec.toNat_not] at this
  omega

section
variable (b : Block) (p : TagPlace)

theorem checkTag_good_iff : checkTag b p = .good ↔ b.tag = tagBits (guardOf b.data) p := by
  unfold checkTag
  dsimp only
  split
  · next h => exact iff_of_true rfl h
  · next h => split <;> exact iff_of_false (by nofun) h

theorem checkTag_poisoned_iff : checkTag b p = .poisoned ↔ b.tag = tagBits (~~~(guardOf b.data)) p := by
  unfold checkTag
  dsimp only
  split
  · next h =>
    refine iff_of_false (by nofun) fun h' => compl_ne (guardOf b.data) ?_
    exact ((eq_tagBits_iff _ _ p).1 h').1.symm.trans ((eq_tagBits_iff _ _ p).1 h).1
  · split
    · next h => exact iff_of_true rfl h
    · next h => exact iff_of_false (by nofun) h

theorem checkTag_corrupt_iff : checkTag b p = .corrupt ↔ checkTag b p ≠ .good ∧ checkTag b p ≠ .poisoned := by
  cases checkTag b p <;> simp

end

theorem checkTag_taggedBlock (data : BlockData) (p : TagPlace) : checkTag (taggedBlock data p) p = .good :=
  (checkTag_good_iff _ _).2 rfl

theorem checkTag_poisonBlock (p : TagPlace) : checkTag (poisonBlock p) p = .poisoned :=
  (checkTag_poisoned_iff _ _).2 rfl

/-! ## Blocks laid in staging memory -/

/-- A state with another staging memory and other counters of the Move Engine. -/
def State.stagedAs (s : State) (m : List (Nat × Block)) (c : MoveCounters) : State :=
  { s with sp := { s.sp with memory := m }, me := { s.me with counters := c } }

/-- Steps that each lay blocks at positions of their own: what they leave is what each one lays, and the rest of the memory as it was. -/
theorem forEach_stages {α : Type} {f : α → State → State} {s : State} {touch : α → Nat → Prop} {out : α → Nat → Block}
    {count : α → MoveCounters → MoveCounters} {l : List α}
    (sep : ∀ i ∈ l, ∀ j ∈ l, ∀ q, touch i q → touch j q → i = j)
    (step : ∀ i ∈ l, ∀ m c, (∀ q, (∀ j ∈ l, ¬touch j q) → Memory.read m q = s.staged q) →
      ∃ m', f i (s.stagedAs m c) = s.stagedAs m' (count i c) ∧ (∀ q, touch i q → Memory.read m' q = out i q)
        ∧ ∀ q, ¬touch i q → Memory.read m' q = Memory.read m q) :
    ∃ m, forEach f l s = s.stagedAs m (l.foldl (fun c i => count i c) s.me.counters)
      ∧ (∀ i ∈ l, ∀ q, touch i q → Memory.read m q = out i q)
      ∧ ∀ q, (∀ j ∈ l, ¬touch j q) → Memory.read m q = s.staged q := by
  -- from any state on the way
  have go : ∀ (k : List α) (m : List (Nat × Block)) (c : MoveCounters), (∀ i ∈ k, i ∈ l) →
      (∀ q, (∀ j ∈ l, ¬touch j q) → Memory.read m q = s.staged q) →
      ∃ m', forEach f k (s.stagedAs m c) = s.stagedAs m' (k.foldl (fun c i => count i c) c)
        ∧ (∀ i ∈ k, ∀ q, touch i q → Memory.read m' q = out i q)
        ∧ ∀ q, (∀ j ∈ k, ¬touch j q) → Memory.read m' q = Memory.read m q := by
    intro k
    induction k with
    | nil => exact fun m c _ _ => ⟨m, rfl, fun _ h => absurd h List.not_mem_nil, fun _ _ => rfl⟩
    | cons i rest ih =>
      intro m c hk hm
      have hi := hk i List.mem_cons_self
      obtain ⟨m1, hf, hin, hout⟩ := step i hi m c hm
      obtain ⟨m2, hrest, hin2, hout2⟩ := ih m1 (count i c) (fun j hj => hk j (List.mem_cons_of_mem _ hj)) fun q hq =>
        (hout q (hq i hi)).trans (hm q hq)
      refine ⟨m2, by rw [forEach, hf, hrest, List.foldl_cons], fun j hj q hq => ?_, fun q hq => ?_⟩
      · by_cases hlater : ∃ j' ∈ rest, touch j' q
        · obtain ⟨j', hj', hq'⟩ := hlater
          rw [sep j (hk j hj) j' (hk j' (List.mem_cons_of_mem _ hj')) q hq hq']
          exact hin2 j' hj' q hq'
        · have hji : j = i := (List.mem_cons.1 hj).resolve_right fun hj => hlater ⟨j, hj, hq⟩
          rw [hout2 q fun j' hj' hq' => hlater ⟨j', hj', hq'⟩, hji]
          exact hin q (hji ▸ hq)
      · rw [hout2 q fun j hj => hq j (List.mem_cons_of_mem _ hj), hout q (hq i List.mem_cons_self)]
  exact go l s.sp.memory s.me.counters (fun _ => id) fun _ _ => rfl

/-- The same for steps that lay one block each, at a position of their own, whatever the other steps have laid. -/
theorem forEach_lays {α : Type} {pos : α → Nat} {blk : α → State → Block} {s : State} {l : List α}
    (inj : ∀ i ∈ l, ∀ j ∈ l, pos i = pos j → i = j)
    (same : ∀ i ∈ l, ∀ m c, (∀ q, (∀ j ∈ l, q ≠ pos j) → Memory.read m q = s.staged q) → blk i (s.stagedAs m c) = blk i s) :
    ∃ m, forEach (fun i t => t.layBlock (pos i) (blk i t)) l s = s.stagedAs m s.me.counters
      ∧ (∀ i ∈ l, Memory.read m (pos i) = blk i s)
      ∧ ∀ q, (∀ j ∈ l, q ≠ pos j) → Memory.read m q = s.staged q := by
  obtain ⟨m, hm, hin, hout⟩ := forEach_stages (f := fun i t => t.layBlock (pos i) (blk i t)) (s := s) (l := l)
    (touch := fun i q => q = pos i) (out := fun i _ => blk i s) (count := fun _ c => c)
    (fun i hi j hj q hqi hqj => inj i hi j hj (hqi.symm.trans hqj)) fun i hi m c hm =>
      ⟨Memory.write m (pos i) (blk i s), by rw [same i hi m c hm]; rfl, fun q hq => hq ▸ Memory.read_write_same m _ _,
        fun q hq => Memory.read_write_other m _ hq⟩
  refine ⟨m, ?_, fun i hi => hin i hi _ rfl, hout⟩
  rw [hm, foldl_keeps]

/-! ## The positions of a lane's row (R108) -/

theorem Lane.position_injective {l : Lane} (hn : l.pages.Nodup) {i j : Nat} (hi : i < l.pages.length * 16)
    (hj : j < l.pages.length * 16) (h : l.position i = l.position j) : i = j := by
  have hi' : i / 16 < l.pages.length := by omega
  have hj' : j / 16 < l.pages.length := by omega
  unfold Lane.position at h
  rw [getD_of_lt _ hi', getD_of_lt _ hj'] at h
  have hpage : l.pages[i / 16] = l.pages[j / 16] := by omega
  have hindex := (List.getElem_inj hn).1 hpage
  omega

/-- A row's positions lie in the general pages. -/
theorem Lane.position_lt {l : Lane} (hp : ∀ p ∈ l.pages, p < 192) {i : Nat} (hi : i < l.pages.length * 16) :
    l.position i < 192 * 16 := by
  have hi' : i / 16 < l.pages.length := by omega
  unfold Lane.position
  rw [getD_of_lt _ hi']
  have := hp _ (List.getElem_mem hi')
  omega

/-- The tag place of an offset below the slab size does not depend on the geometry. -/
theorem tagPlace_of_lt {s : State} (l : Lane) (rows rows' : Nat) {offset : Nat} (h : offset < s.slabBlocks) :
    s.tagPlace l rows offset = s.tagPlace l rows' offset := by
  rw [State.tagPlace, State.tagPlace, dataTagPlace, dataTagPlace, if_pos h, if_pos h]

/-! ## Fill rows, pad and parity (R116, R117) -/

section
variable {s : State} {n : Nat}

theorem rowSpan_add_unit {w u : Nat} (hw : 2 ≤ w) : rowSpan w u + u = w * u := by
  obtain ⟨d, rfl⟩ : ∃ d, w = d + 1 := ⟨w - 1, by omega⟩
  rw [rowSpan, Nat.add_sub_cancel, Nat.succ_mul]

/-- Zeros with their tags, and parity of zeros. -/
theorem stageFill_stages (hn : (s.lane n).pages.Nodup)
    (hlen : (s.lane n).pages.length * 16 = (s.rowSet (s.lane n)).width * (s.rowSet (s.lane n)).unit)
    (hw : 2 ≤ (s.rowSet (s.lane n)).width) :
    ∃ m, stageFill n s = s.stagedAs m s.me.counters
      ∧ (∀ i < rowSpan (s.rowSet (s.lane n)).width (s.rowSet (s.lane n)).unit, Memory.read m ((s.lane n).position i)
          = taggedBlock 0 (s.tagPlace (s.lane n) (s.rowSet (s.lane n)).rows (s.rowBase (s.lane n) + i)))
      ∧ (∀ b < (s.rowSet (s.lane n)).unit,
          Memory.read m ((s.lane n).position (rowSpan (s.rowSet (s.lane n)).width (s.rowSet (s.lane n)).unit + b))
            = taggedBlock 0 (parityTagPlace (s.writtenPlace (s.lane n)).set (s.lane n).row))
      ∧ ∀ q, (∀ i < (s.rowSet (s.lane n)).width * (s.rowSet (s.lane n)).unit, q ≠ (s.lane n).position i) →
          Memory.read m q = s.staged q := by
  have hspan := rowSpan_add_unit (u := (s.rowSet (s.lane n)).unit) hw
  have inj {i j : Nat} (hi : i < (s.rowSet (s.lane n)).width * (s.rowSet (s.lane n)).unit)
      (hj : j < (s.rowSet (s.lane n)).width * (s.rowSet (s.lane n)).unit) (h : (s.lane n).position i = (s.lane n).position j) :
      i = j := Lane.position_injective hn (hlen ▸ hi) (hlen ▸ hj) h
  obtain ⟨m1, h1, hin1, hout1⟩ := forEach_lays (s := s) (pos := fun i => (s.lane n).position i)
    (blk := fun i t => taggedBlock 0 (t.tagPlace (s.lane n) (s.rowSet (s.lane n)).rows (t.rowBase (s.lane n) + i)))
    (l := List.range (rowSpan (s.rowSet (s.lane n)).width (s.rowSet (s.lane n)).unit))
    (fun i hi j hj h => inj (by rw [List.mem_range] at hi; omega) (by rw [List.mem_range] at hj; omega) h) fun _ _ _ _ _ => rfl
  obtain ⟨m2, h2, hin2, hout2⟩ := forEach_lays (s := s.stagedAs m1 s.me.counters)
    (pos := fun b => (s.lane n).position (rowSpan (s.rowSet (s.lane n)).width (s.rowSet (s.lane n)).unit + b))
    (blk := fun _ t => taggedBlock 0 (parityTagPlace (t.writtenPlace (s.lane n)).set (s.lane n).row))
    (l := List.range (s.rowSet (s.lane n)).unit)
    (fun i hi j hj h => Nat.add_left_cancel
      (inj (by rw [List.mem_range] at hi; omega) (by rw [List.mem_range] at hj; omega) h)) fun _ _ _ _ _ => rfl
  refine ⟨m2, ?_, fun i hi => ?_, fun b hb => hin2 b (List.mem_range.2 hb), fun q hq => ?_⟩
  · unfold stageFill
    dsimp only
    rw [h1]
    exact h2
  · rw [hout2 _ fun b hb h => ?_]
    · exact hin1 i (List.mem_range.2 hi)
    · rw [List.mem_range] at hb
      have := inj (by omega) (by omega) h
      omega
  · rw [hout2 q fun b hb => hq _ (by rw [List.mem_range] at hb; omega)]
    exact hout1 q fun i hi => hq i (by rw [List.mem_range] at hi; omega)

theorem xorData_congr {t : State} {positions : List Nat} (h : ∀ p ∈ positions, t.staged p = s.staged p) :
    t.xorData positions = s.xorData positions := by
  unfold State.xorData
  generalize (0 : BlockData) = d
  induction positions generalizing d with
  | nil => rfl
  | cons p rest ih =>
    rw [List.foldl_cons, List.foldl_cons, h p List.mem_cons_self]
    exact ih (fun q hq => h q (List.mem_cons_of_mem _ hq)) _

/-- The parity of a row's block: the exclusive-or of the blocks of its data units. -/
def State.rowParity (s : State) (n b : Nat) : BlockData :=
  s.xorData ((List.range ((s.rowSet (s.lane n)).width - 1)).map
    (fun j => (s.lane n).position (j * (s.rowSet (s.lane n)).unit + b)))

theorem dataOffset_lt {w u k b : Nat} (hk : k < w - 1) (hb : b < u) : k * u + b < rowSpan w u := by
  have hstep : (k + 1) * u ≤ (w - 1) * u := Nat.mul_le_mul_right u hk
  rw [Nat.succ_mul] at hstep
  rw [rowSpan]
  omega

/-- Pad and parity of a row that has been read. -/
theorem stageParity_stagePad_stages (hn : (s.lane n).pages.Nodup)
    (hlen : (s.lane n).pages.length * 16 = (s.rowSet (s.lane n)).width * (s.rowSet (s.lane n)).unit)
    (hw : 2 ≤ (s.rowSet (s.lane n)).width) :
    ∃ m, stageParity n (stagePad n s) = s.stagedAs m s.me.counters
      ∧ (∀ i < rowSpan (s.rowSet (s.lane n)).width (s.rowSet (s.lane n)).unit, s.slabBlocks ≤ s.rowBase (s.lane n) + i →
          Memory.read m ((s.lane n).position i)
            = taggedBlock 0 (s.tagPlace (s.lane n) (s.rowSet (s.lane n)).rows (s.rowBase (s.lane n) + i)))
      ∧ (∀ i < rowSpan (s.rowSet (s.lane n)).width (s.rowSet (s.lane n)).unit, s.rowBase (s.lane n) + i < s.slabBlocks →
          Memory.read m ((s.lane n).position i) = s.staged ((s.lane n).position i))
      ∧ (∀ b < (s.rowSet (s.lane n)).unit,
          Memory.read m ((s.lane n).position (rowSpan (s.rowSet (s.lane n)).width (s.rowSet (s.lane n)).unit + b))
            = taggedBlock ((s.stagedAs m s.me.counters).rowParity n b)
                (parityTagPlace (s.writtenPlace (s.lane n)).set (s.lane n).row))
      ∧ ∀ q, (∀ i < (s.rowSet (s.lane n)).width * (s.rowSet (s.lane n)).unit, q ≠ (s.lane n).position i) →
          Memory.read m q = s.staged q := by
  have hspan := rowSpan_add_unit (u := (s.rowSet (s.lane n)).unit) hw
  have inj {i j : Nat} (hi : i < (s.rowSet (s.lane n)).width * (s.rowSet (s.lane n)).unit)
      (hj : j < (s.rowSet (s.lane n)).width * (s.rowSet (s.lane n)).unit) (h : (s.lane n).position i = (s.lane n).position j) :
      i = j := Lane.position_injective hn (hlen ▸ hi) (hlen ▸ hj) h
  have padded {i : Nat} (hi : i ∈ (List.range (rowSpan (s.rowSet (s.lane n)).width (s.rowSet (s.lane n)).unit)).filter
      (fun i => decide (s.slabBlocks ≤ s.rowBase (s.lane n) + i))) :
      i < rowSpan (s.rowSet (s.lane n)).width (s.rowSet (s.lane n)).unit ∧ s.slabBlocks ≤ s.rowBase (s.lane n) + i := by
    rw [List.mem_filter, List.mem_range, decide_eq_true_eq] at hi
    exact hi
  have data_ne {b p : Nat} (hb : b < (s.rowSet (s.lane n)).unit)
      (hp : p ∈ (List.range ((s.rowSet (s.lane n)).width - 1)).map
        (fun j => (s.lane n).position (j * (s.rowSet (s.lane n)).unit + b))) :
      ∀ j ∈ List.range (s.rowSet (s.lane n)).unit,
        p ≠ (s.lane n).position (rowSpan (s.rowSet (s.lane n)).width (s.rowSet (s.lane n)).unit + j) := by
    intro j hj h
    obtain ⟨k, hk, rfl⟩ := List.mem_map.1 hp
    rw [List.mem_range] at hj hk
    have hlt := dataOffset_lt hk hb
    have := inj (by omega) (by omega) h
    omega
  obtain ⟨m1, h1, hin1, hout1⟩ := forEach_lays (s := s) (pos := fun i => (s.lane n).position i)
    (blk := fun i t => taggedBlock 0 (t.tagPlace (s.lane n) (s.rowSet (s.lane n)).rows (t.rowBase (s.lane n) + i)))
    (l := (List.range (rowSpan (s.rowSet (s.lane n)).width (s.rowSet (s.lane n)).unit)).filter
      (fun i => decide (s.slabBlocks ≤ s.rowBase (s.lane n) + i)))
    (fun i hi j hj h => inj (by have := (padded hi).1; omega) (by have := (padded hj).1; omega) h) fun _ _ _ _ _ => rfl
  obtain ⟨m2, h2, hin2, hout2⟩ := forEach_lays (s := s.stagedAs m1 s.me.counters)
    (pos := fun b => (s.lane n).position (rowSpan (s.rowSet (s.lane n)).width (s.rowSet (s.lane n)).unit + b))
    (blk := fun b t => taggedBlock (t.xorData ((List.range ((s.rowSet (s.lane n)).width - 1)).map
        (fun j => (s.lane n).position (j * (s.rowSet (s.lane n)).unit + b))))
      (parityTagPlace (t.writtenPlace (s.lane n)).set (s.lane n).row))
    (l := List.range (s.rowSet (s.lane n)).unit)
    (fun i hi j hj h => Nat.add_left_cancel
      (inj (by rw [List.mem_range] at hi; omega) (by rw [List.mem_range] at hj; omega) h)) fun b hb m c hm => by
        refine congrArg (fun d => taggedBlock d _) (xorData_congr fun p hp => ?_)
        rw [List.mem_range] at hb
        exact hm p (data_ne hb hp)
  have unmoved {i : Nat} (hi : i < rowSpan (s.rowSet (s.lane n)).width (s.rowSet (s.lane n)).unit) :
      Memory.read m2 ((s.lane n).position i) = Memory.read m1 ((s.lane n).position i) := hout2 _ fun b hb h => by
    rw [List.mem_range] at hb
    have := inj (by omega) (by omega) h
    omega
  refine ⟨m2, ?_, fun i hi hpad => ?_, fun i hi hdata => ?_, fun b hb => ?_, fun q hq => ?_⟩
  · unfold stageParity stagePad
    dsimp only
    rw [h1]
    exact h2
  · rw [unmoved hi]
    exact hin1 i (by rw [List.mem_filter, List.mem_range, decide_eq_true_eq]; exact ⟨hi, hpad⟩)
  · rw [unmoved hi]
    refine hout1 _ fun j hj h => ?_
    obtain ⟨hj, hpad⟩ := padded hj
    have := inj (by omega) (by omega) h
    omega
  · exact (hin2 b (List.mem_range.2 hb)).trans (congrArg (fun d => taggedBlock d _)
      (xorData_congr (s := s.stagedAs m2 s.me.counters) (t := s.stagedAs m1 s.me.counters) fun p hp =>
        (hout2 p (data_ne hb hp)).symm))
  · rw [hout2 q fun b hb => hq _ (by rw [List.mem_range] at hb; omega)]
    exact hout1 q fun i hi => hq i (by have := (padded hi).1; omega)

end

end Sys2Proof.Machine
end

section
/-! PROOFS. Lost units: rebuilt from the other units of their source row, or laid as poison (R114 to R116). -/

namespace Sys2Proof.Machine

section
variable {s : State} {n unit : Nat}

/-- The unit length of the home set of a lane's slab. -/
def State.homeUnit (s : State) (n : Nat) : Nat := (s.set (s.homePlace (s.lane n)).set).unit

/-- An offset lies in the part of a lane's row that is read. -/
@[reducible] def State.inRow (s : State) (n offset : Nat) : Prop := s.rowBase (s.lane n) ≤ offset ∧ offset < s.rowStop (s.lane n)

/-- The data of a block of a lost unit, from the recovery pages. -/
def State.rebuiltData (s : State) (n unit i : Nat) : BlockData :=
  s.xorData ((List.range (s.survivors (s.lane n) unit).length).map (fun k => recoveryPosition (s.homeUnit n) k i))

/-- The tag place of a block of a lost unit. -/
def State.rebuiltPlace (s : State) (n unit i : Nat) : TagPlace :=
  s.tagPlace (s.lane n) (s.set (s.homePlace (s.lane n)).set).rows (unit * s.homeUnit n + i)

/-- The Damage List holds an offset of a lane's slab. -/
def State.damaged (s : State) (n offset : Nat) : Bool :=
  damageCovers (s.laneVolume (s.lane n)) (s.vlb (s.lane n).slab offset) s.me.damage

/-- The block that a rebuilt offset gets in the row. -/
def State.rebuiltRow (s : State) (n unit i : Nat) : Block :=
  if s.damaged n (unit * s.homeUnit n + i) = true then
    poisonBlock (s.tagPlace (s.lane n) (s.rowSet (s.lane n)).rows (unit * s.homeUnit n + i))
  else taggedBlock (s.rebuiltData n unit i) (s.rebuiltPlace n unit i)

/-- The place in the row's pages of a block of a lost unit. -/
def State.rowPosition (s : State) (n offset : Nat) : Nat := (s.lane n).position (offset - s.rowBase (s.lane n))

theorem poisonOffset_layBlock (p : Nat) (b : Block) (o : Nat) (t : State) :
    poisonOffset n o (t.layBlock p b) = (t.layBlock p b).layBlock (t.rowPosition n o)
      (poisonBlock (t.tagPlace (t.lane n) (t.rowSet (t.lane n)).rows o)) := rfl

/-- One block of a lost unit rebuilt. -/
theorem rebuildBlock_eq (i : Nat) (t : State) :
    rebuildBlock n unit i t =
      let laid := t.layBlock (rebuiltPosition i) (taggedBlock (t.rebuiltData n unit i) (t.rebuiltPlace n unit i))
      if laid.rowBase (t.lane n) ≤ unit * t.homeUnit n + i ∧ unit * t.homeUnit n + i < laid.rowStop (t.lane n) then
        if damageCovers (laid.laneVolume (t.lane n)) (laid.vlb (t.lane n).slab (unit * t.homeUnit n + i)) laid.me.damage = true then
          (poisonOffset n (unit * t.homeUnit n + i) laid).onMe
            (fun m => { m with counters := { m.counters with poisonedBlocks := bump m.counters.poisonedBlocks } })
        else laid.layBlock ((t.lane n).position (unit * t.homeUnit n + i - laid.rowBase (t.lane n)))
          (taggedBlock (t.rebuiltData n unit i) (t.rebuiltPlace n unit i))
      else laid := rfl

/-- The units read for a reconstruction are fewer than the source row has. -/
theorem length_survivors_lt (hw : 2 ≤ (s.set (s.homePlace (s.lane n)).set).width) :
    (s.survivors (s.lane n) unit).length < (s.set (s.homePlace (s.lane n)).set).width := by
  have hd : 0 < (s.set (s.homePlace (s.lane n)).set).width - 1 := by omega
  have hfew : (s.otherUnits (s.lane n) unit).length < (s.set (s.homePlace (s.lane n)).set).width - 1 := by
    refine Nat.lt_of_lt_of_eq (List.length_filter_lt_length_iff_exists.2 ⟨unit, List.mem_map.2
      ⟨unit % ((s.set (s.homePlace (s.lane n)).set).width - 1), List.mem_range.2 (Nat.mod_lt _ hd), ?_⟩, ?_⟩) ?_
    · rw [Nat.mul_comm]
      exact Nat.div_add_mod _ _
    · rw [decide_eq_false (Classical.not_not.2 rfl), Bool.false_and]
      exact Bool.false_ne_true
    · rw [List.length_map, List.length_range]
  rw [State.survivors, List.length_append, List.length_map, List.length_singleton]
  omega

/-- The positions that a block of a lost unit is laid at. -/
def State.rebuiltAt (s : State) (n unit i q : Nat) : Prop :=
  q = rebuiltPosition i ∨ s.inRow n (unit * s.homeUnit n + i) ∧ q = s.rowPosition n (unit * s.homeUnit n + i)

theorem rowPosition_lt (hp : ∀ p ∈ (s.lane n).pages, p < 192)
    (hlen : (s.lane n).pages.length * 16 = (s.rowSet (s.lane n)).width * (s.rowSet (s.lane n)).unit)
    (hw : 2 ≤ (s.rowSet (s.lane n)).width) {o : Nat} (ho : s.inRow n o) : s.rowPosition n o < 192 * 16 := by
  refine Lane.position_lt hp ?_
  have hspan := rowSpan_add_unit (u := (s.rowSet (s.lane n)).unit) hw
  have hstop := Nat.lt_of_lt_of_le ho.2 (Nat.min_le_left _ _)
  omega

theorem rowPosition_injective (hn : (s.lane n).pages.Nodup)
    (hlen : (s.lane n).pages.length * 16 = (s.rowSet (s.lane n)).width * (s.rowSet (s.lane n)).unit)
    (hw : 2 ≤ (s.rowSet (s.lane n)).width) {o o' : Nat} (ho : s.inRow n o) (ho' : s.inRow n o')
    (h : s.rowPosition n o = s.rowPosition n o') : o = o' := by
  have hspan := rowSpan_add_unit (u := (s.rowSet (s.lane n)).unit) hw
  have hstop := Nat.lt_of_lt_of_le ho.2 (Nat.min_le_left _ _)
  have hstop' := Nat.lt_of_lt_of_le ho'.2 (Nat.min_le_left _ _)
  have hpos := Lane.position_injective hn (by omega) (by omega) h
  obtain ⟨hlow, -⟩ := ho
  obtain ⟨hlow', -⟩ := ho'
  omega

/-- The counters after a block of a lost unit. -/
def State.rebuiltCount (s : State) (n unit i : Nat) (c : MoveCounters) : MoveCounters :=
  if s.inRow n (unit * s.homeUnit n + i) ∧ s.damaged n (unit * s.homeUnit n + i) = true then
    { c with poisonedBlocks := bump c.poisonedBlocks }
  else c

/-- The memory with a block of a lost unit laid. -/
def State.rebuiltMemory (s : State) (n unit i : Nat) (m : List (Nat × Block)) : List (Nat × Block) :=
  let laid := Memory.write m (rebuiltPosition i) (taggedBlock (s.rebuiltData n unit i) (s.rebuiltPlace n unit i))
  if s.inRow n (unit * s.homeUnit n + i) then
    Memory.write laid (s.rowPosition n (unit * s.homeUnit n + i)) (s.rebuiltRow n unit i)
  else laid

theorem rebuildBlock_stagedAs {i : Nat} {m : List (Nat × Block)} {c : MoveCounters}
    (hd : (s.stagedAs m c).rebuiltData n unit i = s.rebuiltData n unit i) :
    rebuildBlock n unit i (s.stagedAs m c) = s.stagedAs (s.rebuiltMemory n unit i m) (s.rebuiltCount n unit i c) := by
  have hplace : (s.stagedAs m c).rebuiltPlace n unit i = s.rebuiltPlace n unit i := rfl
  rw [rebuildBlock_eq, hd, hplace]
  by_cases hrow : s.inRow n (unit * s.homeUnit n + i)
  · have hmemory : s.rebuiltMemory n unit i m = Memory.write
        (Memory.write m (rebuiltPosition i) (taggedBlock (s.rebuiltData n unit i) (s.rebuiltPlace n unit i)))
        (s.rowPosition n (unit * s.homeUnit n + i)) (s.rebuiltRow n unit i) := if_pos hrow
    by_cases hdam : s.damaged n (unit * s.homeUnit n + i) = true
    · have hcount : s.rebuiltCount n unit i c = { c with poisonedBlocks := bump c.poisonedBlocks } := if_pos ⟨hrow, hdam⟩
      rw [hmemory, hcount, State.rebuiltRow, if_pos hdam]
      refine (if_pos ?_).trans ((if_pos ?_).trans ?_)
      · exact hrow
      · exact hdam
      · have hpoison : (s.stagedAs m c).tagPlace ((s.stagedAs m c).lane n) ((s.stagedAs m c).rowSet ((s.stagedAs m c).lane n)).rows
            (unit * (s.stagedAs m c).homeUnit n + i)
            = s.tagPlace (s.lane n) (s.rowSet (s.lane n)).rows (unit * s.homeUnit n + i) := rfl
        rw [poisonOffset_layBlock, hpoison]
        generalize poisonBlock _ = poison
        rfl
    · have hcount : s.rebuiltCount n unit i c = c := if_neg fun h => hdam h.2
      rw [hmemory, hcount, State.rebuiltRow, if_neg hdam]
      refine (if_pos ?_).trans ((if_neg ?_).trans ?_)
      · exact hrow
      · exact hdam
      · generalize taggedBlock _ _ = rebuilt
        rfl
  · have hmemory : s.rebuiltMemory n unit i m
        = Memory.write m (rebuiltPosition i) (taggedBlock (s.rebuiltData n unit i) (s.rebuiltPlace n unit i)) := if_neg hrow
    have hcount : s.rebuiltCount n unit i c = c := if_neg fun h => hrow h.1
    rw [hmemory, hcount]
    refine (if_neg ?_).trans ?_
    · exact hrow
    · rfl

/-- What a block of a lost unit leaves at each position. -/
theorem rebuiltMemory_reads {i : Nat} {m : List (Nat × Block)} (hlow : s.inRow n (unit * s.homeUnit n + i) →
      s.rowPosition n (unit * s.homeUnit n + i) < 192 * 16) :
    (∀ q, s.rebuiltAt n unit i q → Memory.read (s.rebuiltMemory n unit i m) q
        = if q = rebuiltPosition i then taggedBlock (s.rebuiltData n unit i) (s.rebuiltPlace n unit i) else s.rebuiltRow n unit i)
      ∧ ∀ q, ¬s.rebuiltAt n unit i q → Memory.read (s.rebuiltMemory n unit i m) q = Memory.read m q := by
  have hapart : s.inRow n (unit * s.homeUnit n + i) → rebuiltPosition i ≠ s.rowPosition n (unit * s.homeUnit n + i) := fun h => by
    have := hlow h
    unfold rebuiltPosition
    omega
  unfold State.rebuiltMemory
  dsimp only
  by_cases hrow : s.inRow n (unit * s.homeUnit n + i)
  · rw [if_pos hrow]
    refine ⟨fun q hq => ?_, fun q hq => ?_⟩
    · rcases hq with rfl | ⟨-, rfl⟩
      · rw [Memory.read_write_other _ _ (hapart hrow), Memory.read_write_same, if_pos rfl]
      · rw [Memory.read_write_same, if_neg (hapart hrow).symm]
    · obtain ⟨hne, hout⟩ := not_or.1 hq
      rw [Memory.read_write_other _ _ fun h => hout ⟨hrow, h⟩, Memory.read_write_other _ _ hne]
  · rw [if_neg hrow]
    refine ⟨fun q hq => ?_, fun q hq => ?_⟩
    · obtain rfl := hq.resolve_right fun h => hrow h.1
      rw [Memory.read_write_same, if_pos rfl]
    · exact Memory.read_write_other _ _ fun h => hq (Or.inl h)

/-- A lost unit rebuilt: its blocks in the row and in the last recovery pages, and the counters. -/
theorem rebuildUnit_stages (hn : (s.lane n).pages.Nodup) (hp : ∀ p ∈ (s.lane n).pages, p < 192)
    (hlen : (s.lane n).pages.length * 16 = (s.rowSet (s.lane n)).width * (s.rowSet (s.lane n)).unit)
    (hw : 2 ≤ (s.rowSet (s.lane n)).width) (hh : 2 ≤ (s.set (s.homePlace (s.lane n)).set).width)
    (hh' : (s.set (s.homePlace (s.lane n)).set).width ≤ 16) (hu : s.homeUnit n ≤ 64) :
    ∃ m, rebuildUnit n unit s = s.stagedAs m
        { (List.range (s.homeUnit n)).foldl (fun c i => s.rebuiltCount n unit i c) s.me.counters with
          reconstructions := bump
            ((List.range (s.homeUnit n)).foldl (fun c i => s.rebuiltCount n unit i c) s.me.counters).reconstructions }
      ∧ (∀ i < s.homeUnit n, s.inRow n (unit * s.homeUnit n + i) →
          Memory.read m (s.rowPosition n (unit * s.homeUnit n + i)) = s.rebuiltRow n unit i)
      ∧ ∀ q, (∀ i < s.homeUnit n, ¬s.rebuiltAt n unit i q) → Memory.read m q = s.staged q := by
  have low {o : Nat} (ho : s.inRow n o) : s.rowPosition n o < 192 * 16 := rowPosition_lt hp hlen hw ho
  have sep : ∀ i ∈ List.range (s.homeUnit n), ∀ j ∈ List.range (s.homeUnit n), ∀ q,
      s.rebuiltAt n unit i q → s.rebuiltAt n unit j q → i = j := by
    intro i hi j hj q hqi hqj
    unfold State.rebuiltAt rebuiltPosition at hqi hqj
    rcases hqi with hqi | ⟨hrow, hqi⟩ <;> rcases hqj with hqj | ⟨hrow', hqj⟩
    · omega
    · have := low hrow'
      omega
    · have := low hrow
      omega
    · have := rowPosition_injective hn hlen hw hrow hrow' (hqi.symm.trans hqj)
      omega
  have unread : ∀ i ∈ List.range (s.homeUnit n), ∀ m c,
      (∀ q, (∀ j ∈ List.range (s.homeUnit n), ¬s.rebuiltAt n unit j q) → Memory.read m q = s.staged q) →
      (s.stagedAs m c).rebuiltData n unit i = s.rebuiltData n unit i := fun i hi m c hm => by
    refine xorData_congr (s := s) (t := s.stagedAs m c) fun p hp => hm p fun j hj hat => ?_
    obtain ⟨k, hk, rfl⟩ := List.mem_map.1 hp
    have hk' : k + 1 ≤ 15 := by
      have hless : (s.survivors (s.lane n) unit).length < _ := length_survivors_lt hh
      have hread : k < (s.survivors (s.lane n) unit).length := List.mem_range.1 hk
      omega
    have hfar : k * s.homeUnit n + i < 15 * 64 := by
      have := Nat.mul_le_mul hk' hu
      rw [List.mem_range] at hi
      rw [Nat.succ_mul] at this
      omega
    unfold State.rebuiltAt rebuiltPosition recoveryPosition Config.recoveryFirstPage at hat
    rcases hat with hat | ⟨hrow, hat⟩
    · change _ * 16 + k * s.homeUnit n + i = _ at hat
      omega
    · have := low hrow
      omega
  obtain ⟨m, hm, hin, hout⟩ := forEach_stages sep fun i hi m c hm =>
    ⟨_, rebuildBlock_stagedAs (unread i hi m c hm), rebuiltMemory_reads low⟩
  refine ⟨m, ?_, fun i hi hrow => ?_, fun q hq => hout q fun i hi => hq i (List.mem_range.1 hi)⟩
  · unfold rebuildUnit
    dsimp only
    rw [show (s.set (s.homePlace (s.lane n)).set).unit = s.homeUnit n from rfl, hm]
    rfl
  · refine (hin i (List.mem_range.2 hi) _ (Or.inr ⟨hrow, rfl⟩)).trans (if_neg ?_)
    have := low hrow
    unfold rebuiltPosition
    omega

/-! ## A lost unit laid as poison (R115, R116) -/

theorem filter_range'_interval (a u lo hi : Nat) :
    (List.range' a u).filter (fun o => decide (lo ≤ o) && decide (o < hi))
      = List.range' (max lo a) (min hi (a + u) - max lo a) := by
  induction u with
  | zero =>
    have hnone : min hi (a + 0) - max lo a = 0 := by omega
    rw [hnone]
    rfl
  | succ u ih =>
    rw [List.range'_concat, List.filter_append, ih, Nat.one_mul]
    by_cases hin : lo ≤ a + u ∧ a + u < hi
    · have hlen : min hi (a + (u + 1)) - max lo a = (min hi (a + u) - max lo a) + 1 := by omega
      have hlast : max lo a + 1 * (min hi (a + u) - max lo a) = a + u := by omega
      rw [hlen, List.range'_concat, hlast, List.filter_cons_of_pos (by simpa using hin), List.filter_nil]
    · have hlen : min hi (a + (u + 1)) - max lo a = min hi (a + u) - max lo a := by omega
      rw [hlen, List.filter_cons_of_neg (by simpa using hin), List.filter_nil, List.append_nil]

/-- The first offset of a lost unit in the row. -/
def State.lostFirst (s : State) (n unit : Nat) : Nat := max (s.rowBase (s.lane n)) (unit * s.homeUnit n)

/-- How many offsets of a lost unit are in the row. -/
def State.lostCount (s : State) (n unit : Nat) : Nat :=
  min (s.rowStop (s.lane n)) (unit * s.homeUnit n + s.homeUnit n) - s.lostFirst n unit

theorem unitOffsets_eq : s.unitOffsets (s.lane n) unit = List.range' (s.lostFirst n unit) (s.lostCount n unit) := by
  refine Eq.trans (congrArg (List.filter _) ?_) (filter_range'_interval (unit * s.homeUnit n) (s.homeUnit n) _ _)
  rw [List.range'_eq_map_range]
  rfl

theorem mem_unitOffsets {o : Nat} :
    o ∈ s.unitOffsets (s.lane n) unit ↔ s.inRow n o ∧ unit * s.homeUnit n ≤ o ∧ o < unit * s.homeUnit n + s.homeUnit n := by
  rw [unitOffsets_eq, List.mem_range'_1, State.lostCount, State.lostFirst]
  omega

/-- The state with a lost unit's offsets counted and noted as damage. -/
def State.unitNoted (s : State) (n unit : Nat) : State :=
  (s.onMe (fun m => { m with counters := { m.counters with
    poisonedBlocks := min (m.counters.poisonedBlocks + s.lostCount n unit) 4294967295 } })).setLane n
      { s.lane n with work := { (s.lane n).work with
        damage := damageInsert
          ⟨s.laneVolume (s.lane n), s.vlb (s.lane n).slab (s.lostFirst n unit), s.lostCount n unit,
            if (s.set (s.homePlace (s.lane n)).set).state = .failed then .salvage else .sourceLost⟩
          (forgetDamage (s.vlb (s.lane n).slab (s.lostFirst n unit)) (s.lostCount n unit) (s.lane n).work.damage) } }

/-- Every offset of a lost unit in the row laid as poison. -/
theorem forEach_poisonOffset_stages (hn : (s.lane n).pages.Nodup)
    (hlen : (s.lane n).pages.length * 16 = (s.rowSet (s.lane n)).width * (s.rowSet (s.lane n)).unit)
    (hw : 2 ≤ (s.rowSet (s.lane n)).width) :
    ∃ m, forEach (poisonOffset n) (s.unitOffsets (s.lane n) unit) s = s.stagedAs m s.me.counters
      ∧ (∀ o ∈ s.unitOffsets (s.lane n) unit, Memory.read m (s.rowPosition n o)
          = poisonBlock (s.tagPlace (s.lane n) (s.rowSet (s.lane n)).rows o))
      ∧ ∀ q, (∀ o ∈ s.unitOffsets (s.lane n) unit, q ≠ s.rowPosition n o) → Memory.read m q = s.staged q := by
  obtain ⟨m, hm, hin, hout⟩ := forEach_stages (f := poisonOffset n) (s := s) (l := s.unitOffsets (s.lane n) unit)
    (touch := fun o q => q = s.rowPosition n o) (count := fun _ c => c)
    (out := fun o _ => poisonBlock (s.tagPlace (s.lane n) (s.rowSet (s.lane n)).rows o))
    (fun o ho o' ho' q hq hq' => rowPosition_injective hn hlen hw (mem_unitOffsets.1 ho).1 (mem_unitOffsets.1 ho').1
      (hq.symm.trans hq'))
    fun o ho m c hm => ⟨Memory.write m (s.rowPosition n o) (poisonBlock (s.tagPlace (s.lane n) (s.rowSet (s.lane n)).rows o)),
      rfl, fun q hq => hq ▸ Memory.read_write_same m _ _, fun q hq => Memory.read_write_other m _ hq⟩
  refine ⟨m, ?_, fun o ho => hin o ho _ rfl, hout⟩
  rw [hm, foldl_keeps]

theorem poisonUnit_none (h : s.lostCount n unit = 0) : poisonUnit n unit s = s := by
  have hnil : s.unitOffsets (s.lane n) unit = [] := by
    rw [unitOffsets_eq, h]
    rfl
  unfold poisonUnit
  dsimp only
  rw [hnil]

theorem poisonUnit_some (h : 1 ≤ s.lostCount n unit) {m : List (Nat × Block)}
    (hm : forEach (poisonOffset n) (s.unitOffsets (s.lane n) unit) s = s.stagedAs m s.me.counters) :
    poisonUnit n unit s = { s.unitNoted n unit with sp := { s.sp with memory := m } } := by
  obtain ⟨k, hk⟩ := Nat.exists_eq_add_of_le' h
  have hcons : s.unitOffsets (s.lane n) unit = s.lostFirst n unit :: List.range' (s.lostFirst n unit + 1) k := by
    rw [unitOffsets_eq, hk]
    rfl
  rw [hcons] at hm
  unfold poisonUnit
  dsimp only
  rw [hcons]
  dsimp only
  rw [hm, List.length_range', ← hk, noteDamage]
  dsimp only
  rw [lane_onLane_same, onLane_onLane]
  rfl

theorem foldl_rebuiltCount_reconstructions (l : List Nat) (c : MoveCounters) :
    (l.foldl (fun c i => s.rebuiltCount n unit i c) c).reconstructions = c.reconstructions := by
  induction l generalizing c with
  | nil => rfl
  | cons i rest ih =>
    rw [List.foldl_cons, ih, State.rebuiltCount]
    split <;> rfl

end

/-- Settles O59: the tag by its parts; the blocks laid, stage by stage. -/
theorem tagCheckOutcomes : Obligations.TagCheckOutcomes := by
  constructor
  · intro b p data guard placed
    have hgood : checkTag b p = .good ↔ guard = guardOf b.data ∧ placed :=
      (checkTag_good_iff b p).trans (eq_tagBits_iff b.tag _ p)
    have hpoisoned : checkTag b p = .poisoned ↔ guard = ~~~(guardOf b.data) ∧ placed :=
      (checkTag_poisoned_iff b p).trans (eq_tagBits_iff b.tag _ p)
    refine ⟨hgood, hpoisoned, ?_, checkTag_taggedBlock data p, rfl, checkTag_poisonBlock p, rfl⟩
    rw [checkTag_corrupt_iff, Ne, Ne, hgood, hpoisoned, ← not_or, or_and_right]
  intro s n l e h span base stop at' volume vlb tag parity only hn hp hlen hw hjob filled assembled
  obtain ⟨mf, hf, hfdata, hfparity, hfout⟩ := stageFill_stages (s := s) (n := n) hn hlen hw
  obtain ⟨ma, ha, hapad, hakept, haparity, haout⟩ := stageParity_stagePad_stages (s := s) (n := n) hn hlen hw
  have hfilled : filled = s.stagedAs mf s.me.counters := hf
  have hassembled : assembled = s.stagedAs ma s.me.counters := ha
  rw [hfilled, hassembled]
  refine ⟨hfdata, hfparity, fun q hq => hfout q fun i hi h => hq ⟨i, hi, h⟩, rfl, hapad, hakept, fun b hb => ?_,
    fun q hq => haout q fun i hi h => hq ⟨i, hi, h⟩, rfl, ?_⟩
  · refine (haparity b hb).trans (congrArg (fun d => taggedBlock d parity) ?_)
    rw [State.rowParity, State.xorData, List.foldl_map]
    rfl
  intro unit hh hh' hu hu' mine others data rebuilt poisoned first count cause
  obtain ⟨mr, hr, hrin, hrout⟩ := rebuildUnit_stages (s := s) (n := n) (unit := unit) hn hp hlen hw hh hh' hu'
  have hrebuilt : rebuilt = s.stagedAs mr _ := hr
  have inRow {o : Nat} (ho : mine o) : s.inRow n o := ho.2.2
  have hlost : s.lostCount n unit = count := by
    change min (s.rowStop l) (unit * h.unit + h.unit) - _ = min stop ((unit + 1) * h.unit) - _
    rw [Nat.succ_mul]
    rfl
  have htag {o : Nat} (ho : mine o) (rows : Nat) : s.tagPlace l rows o = tag o :=
    tagPlace_of_lt l rows e.rows (Nat.lt_of_lt_of_le (inRow ho).2 (Nat.min_le_right _ _))
  refine ⟨fun o ho => ?_, fun q hq => ?_, ?_, ?_, ?_⟩
  · obtain ⟨hlow, hhigh, hrow⟩ := ho
    rw [Nat.succ_mul] at hhigh
    have hoffset : unit * s.homeUnit n + (o - unit * h.unit) = o := Nat.add_sub_cancel' hlow
    have hblock : o % h.unit = o - unit * h.unit := by
      rw [← Nat.mod_eq_of_lt (show o - unit * h.unit < h.unit by omega)]
      conv =>
        lhs
        rw [← Nat.sub_add_cancel hlow, Nat.add_mul_mod_self_right]
    have hdata : s.rebuiltData n unit (o - unit * h.unit) = data o := by
      have hlength : (s.survivors (s.lane n) unit).length = others.length + 1 := by
        rw [State.survivors, List.length_append, List.length_map]
        rfl
      rw [State.rebuiltData, State.xorData, List.foldl_map, hlength, ← hblock]
      rfl
    have hread := hrin (o - unit * h.unit) (by change _ < h.unit; omega) (by rw [hoffset]; exact hrow)
    rw [hrebuilt]
    refine Eq.trans ?_ (hread.trans ?_)
    · rw [hoffset]
      rfl
    · rw [State.rebuiltRow, State.rebuiltPlace, hoffset]
      have ho : mine o := ⟨hlow, by rw [Nat.succ_mul]; exact hhigh, hrow⟩
      exact ite_congr rfl (fun _ => congrArg poisonBlock (htag ho e.rows))
        fun _ => congr (congrArg taggedBlock hdata) (htag ho h.rows)
  · rw [hrebuilt]
    refine hrout q fun i hi hat => hq ?_
    rcases hat with hat | ⟨hrow, hat⟩
    · refine Or.inr ?_
      have hi' : i < h.unit := hi
      unfold rebuiltPosition at hat
      omega
    · exact Or.inl ⟨unit * h.unit + i, ⟨Nat.le_add_right _ _, by rw [Nat.succ_mul]; exact Nat.add_lt_add_left hi _, hrow⟩, hat⟩
  · rw [hrebuilt]
    exact congrArg bump (foldl_rebuiltCount_reconstructions _ _)
  · rw [hrebuilt]
    rfl
  obtain ⟨mp, hpoison, hpin, hpout⟩ := forEach_poisonOffset_stages (s := s) (n := n) (unit := unit) hn hlen hw
  have mine_iff {o : Nat} : o ∈ s.unitOffsets (s.lane n) unit ↔ mine o := by
    refine mem_unitOffsets.trans ⟨fun ⟨hrow, hlow, hhigh⟩ => ⟨hlow, ?_, hrow⟩, fun ⟨hlow, hhigh, hrow⟩ => ⟨hrow, hlow, ?_⟩⟩
    · rw [Nat.succ_mul]
      exact hhigh
    · rw [Nat.succ_mul] at hhigh
      exact hhigh
  by_cases hcount : count = 0
  · have hnone : poisoned = s := poisonUnit_none (hlost.trans hcount)
    have nobody {o : Nat} (ho : mine o) : False := by
      obtain ⟨hlow, hhigh, hbase, hstop⟩ := ho
      change min stop ((unit + 1) * h.unit) - max base (unit * h.unit) = 0 at hcount
      omega
    refine ⟨fun o ho => (nobody ho).elim, fun q _ => by rw [hnone], fun h => by omega, fun _ => hnone⟩
  · have hsome : poisoned = { s.unitNoted n unit with sp := { s.sp with memory := mp } } :=
      poisonUnit_some (hlost ▸ Nat.one_le_iff_ne_zero.2 hcount) hpoison
    rw [hsome]
    refine ⟨fun o ho => ?_, fun q hq => hpout q fun o ho h => hq ⟨o, mine_iff.1 ho, h⟩, fun _ => ⟨?_, ?_⟩,
      fun h => absurd h hcount⟩
    · exact (hpin o (mine_iff.2 ho)).trans (congrArg poisonBlock (htag ho e.rows))
    · refine (lane_setLane_same n _ _).trans ?_
      rw [hlost]
      rfl
    · change { s.me.counters with poisonedBlocks := min (s.me.counters.poisonedBlocks + s.lostCount n unit) 4294967295 } = _
      rw [hlost]

end Sys2Proof.Machine
end

section
/-! PROOFS. COMMAND_TIMEOUT (R132, R135, R136), and what the owner of a command that did not end GOOD does (R113, R114, R119). -/

namespace Sys2Proof.Machine

/-! ## An entry's command completes (R131, R135) -/

/-- The fault of a completion at a block. -/
def Cmd.faultAt (c : Cmd) (kind : FaultKind) (dbn : Nat) : FaultOffer :=
  { kind := kind, member := some c.member, dbn := some dbn, lane := c.owner.lane?, slab := c.context.map Prod.fst,
    row := c.context.map Prod.snd, storeBlock := none }

/-- The list of free places of the label buffer once a command has given its place back. -/
def State.placesFreed (s : State) (c : Cmd) : List Nat :=
  match c.pages with
  | .label (some p) => s.dp.labelFree ++ [p]
  | _ => s.dp.labelFree

theorem freeEntry_frees (e : Nat) (c : Cmd) (s : State) :
    freeEntry e c s = { s with dp := { s.dp with
      ring := tableWrite (RingEntry.free 0) s.dp.ring e (RingEntry.free (s.ring e).generation),
      freeOrder := s.dp.freeOrder ++ [e], labelFree := s.placesFreed c } } := freeLabelPlace_free c _

/-- A counted failure: the run rises, stopping at 3, where the Placement Map is told. -/
theorem countFailure_eq (id : Nat) (s : State) :
    countFailure id s = { s with
      dp := { s.dp with errorRuns := tableWrite 0 s.dp.errorRuns id (min 3 (s.errorRun id + 1)) },
      agenda := s.agenda ++ if min 3 (s.errorRun id + 1) = 3 then [.memberCause id] else [] } := by
  unfold countFailure
  dsimp only
  split
  · rfl
  · rw [List.append_nil]
    rfl

theorem completeEntry_eq {e : Nat} {c : Cmd} {s : State} (h : (s.ring e).cmd = some c) (status : CmdStatus) (first : Nat)
    (counted : Bool) :
    completeEntry e status first counted s = offerCompletionFault c status first (updateRun c status counted
      ((freeEntry e c s).post (.completed ⟨c, status, first, (s.ring e).mismatch, s.labelRead c⟩))) := by
  rw [completeEntry, h]

/-- The state in which an entry has timed out, before the waiting commands are served. -/
def State.timedOut (s : State) (e : Nat) (c : Cmd) : State :=
  { s with
    agenda := s.agenda ++ .completed ⟨c, .timeout, 0, (s.ring e).mismatch, s.labelRead c⟩
      :: (if min 3 (s.errorRun c.member + 1) = 3 then [.memberCause c.member] else []),
    dp := { s.dp with
      ring := tableWrite (RingEntry.free 0) s.dp.ring e (RingEntry.free (s.ring e).generation),
      freeOrder := s.dp.freeOrder ++ [e], labelFree := s.placesFreed c,
      errorRuns := tableWrite 0 s.dp.errorRuns c.member (min 3 (s.errorRun c.member + 1)),
      counters := { s.dp.counters with timeouts := min (s.dp.counters.timeouts + 1) 4294967295 },
      sent := s.dp.sent ++ [.cancel e (s.ring e).generation] } }

theorem timeOutEntry_eq {e : Nat} {c : Cmd} {s : State} (h : (s.ring e).cmd = some c) :
    timeOutEntry e s = serveCommands (State.offerFault (c.faultAt .driveTimeout c.dbn) (s.timedOut e c)) := by
  refine congrArg serveCommands ((completeEntry_eq (s := State.send (.cancel e (s.ring e).generation)
    (s.onDp (fun d => { d with counters := { d.counters with timeouts := bump d.counters.timeouts } }))) h .timeout 0 true).trans ?_)
  refine congrArg (State.offerFault (c.faultAt .driveTimeout c.dbn)) ?_
  rw [updateRun, countFailure_eq, freeEntry_frees]
  exact congrArg (fun a => { s.timedOut e c with agenda := a }) (List.append_assoc _ _ _)

/-! ## A lane's command completes -/

/-- A lane's record with one command less to wait for. -/
def Lane.answered (l : Lane) : Lane := { l with commands := l.commands - 1 }

section
variable {u : State} {n : Nat} {c : Completion}

theorem takeCompletion_lane (ho : c.cmd.owner = .lane n) : takeCompletion c u = laneCompleted n c u := by
  rw [takeCompletion, ho]

theorem countCompleted_eq (n : Nat) (u : State) : countCompleted n u = u.setLane n (u.lane n).answered := rfl

theorem laneCompleted_run {unit : Nat} (hu : c.cmd.use = .run unit) (hs : (u.lane n).state = .reading) :
    laneCompleted n c u = runCompleted n unit c (u.setLane n (u.lane n).answered) := by
  unfold laneCompleted
  rw [hu]
  exact if_pos hs

theorem laneCompleted_rebuild {v : Option Nat} (hu : c.cmd.use = .rebuild v) (hs : (u.lane n).state = .recovering) :
    laneCompleted n c u = rebuildCompleted n v c (u.setLane n (u.lane n).answered) := by
  unfold laneCompleted
  rw [hu]
  exact if_pos hs

theorem laneCompleted_write {position : Nat} (hu : c.cmd.use = .write position) (hw : (u.lane n).writes = true) :
    laneCompleted n c u = writeCompleted n position c (u.setLane n (u.lane n).answered) := by
  unfold laneCompleted
  rw [hu]
  exact if_pos hw

theorem laneCompleted_verify {position : Nat} (hu : c.cmd.use = .verify position) (hw : (u.lane n).writes = true) :
    laneCompleted n c u = verifyCompleted n position c (u.setLane n (u.lane n).answered) := by
  unfold laneCompleted
  rw [hu]
  exact if_pos hw

/-- What a lane does once its reads have ended: nothing while it waits for more, the commit check of a BROKEN watch, or what comes
next. -/
def State.readOn (u : State) (n : Nat) (i : Internal) (t : State) : State :=
  { t with agenda := t.agenda ++
      (if (u.lane n).commands ≤ 1 then [if (u.lane n).broken then .commitCheck n else i] else []) }

theorem readOn_eq {i : Internal} {t : State} (hc : (t.lane n).commands = (u.lane n).commands - 1)
    (hb : (t.lane n).broken = (u.lane n).broken) :
    (if (t.lane n).commands = 0 then t.post (if (t.lane n).broken then .commitCheck n else i) else t) = u.readOn n i t := by
  rw [State.readOn, hc, hb]
  by_cases h : (u.lane n).commands ≤ 1
  · rw [if_pos (Nat.sub_eq_zero_of_le h), if_pos h]
    rfl
  · rw [if_neg (by omega), if_neg h, List.append_nil]

theorem loseUnit_setLane (n unit : Nat) (l : Lane) (u : State) :
    loseUnit n unit (u.setLane n l) = u.setLane n { l with work := { l.work with lost := insertRising unit l.work.lost } } :=
  onLane_setLane n _ l u

/-- A source read that did not end GOOD loses its unit (R113). -/
theorem runCompleted_failed {unit : Nat} (hs : c.status ≠ .good) :
    runCompleted n unit c (u.setLane n (u.lane n).answered)
      = u.readOn n (.settleLost n) (u.setLane n { (u.lane n).answered with
          work := { (u.lane n).work with lost := insertRising unit (u.lane n).work.lost } }) := by
  unfold runCompleted
  dsimp only
  rw [if_neg hs, loseUnit_setLane]
  refine readOn_eq ?_ ?_ <;> rw [lane_setLane_same] <;> rfl

/-- The row's work once a unit read for a reconstruction does not stand (R114). -/
def RowWork.failedSurvivor (w : RowWork) : Option Nat → RowWork
  | .none => { w with parityBad := true }
  | .some v => { w with badUnits := insertRising v w.badUnits }

theorem failSurvivor_setLane (n : Nat) (v : Option Nat) (l : Lane) (u : State) :
    failSurvivor n v (u.setLane n l) = u.setLane n { l with work := l.work.failedSurvivor v } := by
  refine (onLane_setLane n _ l u).trans ?_
  cases v <;> rfl

/-- The end of a read of a reconstruction. -/
theorem rebuildOn_eq {t : State} (hc : (t.lane n).commands = (u.lane n).commands - 1)
    (hb : (t.lane n).broken = (u.lane n).broken) {told : State}
    (h : told = if (t.lane n).commands = 0 then (if (t.lane n).broken then t.post (.commitCheck n) else finishRebuild n t) else t) :
    (2 ≤ (u.lane n).commands → told = t)
      ∧ ((u.lane n).commands ≤ 1 → (u.lane n).broken = true → told = t.post (.commitCheck n))
      ∧ ((u.lane n).commands ≤ 1 → (u.lane n).broken = false → told = finishRebuild n t) := by
  rw [hc, hb] at h
  refine ⟨fun hmore => h.trans (if_neg (by omega)), fun hlast hbroken => h.trans ?_, fun hlast hwhole => h.trans ?_⟩
  · rw [if_pos (Nat.sub_eq_zero_of_le hlast), if_pos hbroken]
  · rw [if_pos (Nat.sub_eq_zero_of_le hlast), if_neg (by rw [hwhole]; exact Bool.false_ne_true)]

/-- A read of a reconstruction that did not end GOOD has lost its unit (R114). -/
theorem rebuildCompleted_failed {v : Option Nat} (hs : c.status ≠ .good) :
    rebuildCompleted n v c (u.setLane n (u.lane n).answered) =
      let t := u.setLane n { (u.lane n).answered with work := (u.lane n).work.failedSurvivor v }
      if (t.lane n).commands = 0 then (if (t.lane n).broken then t.post (.commitCheck n) else finishRebuild n t) else t := by
  unfold rebuildCompleted
  dsimp only
  rw [if_neg hs, failSurvivor_setLane]
  rfl

end

section
variable {u : State} {n position : Nat} {c : Completion}

/-! ## A unit's write or read-back fails (R119) -/

theorem rowProgress_waits {t : State} (hw : (t.lane n).writes = true) (ha : (t.lane n).work.again = false)
    (hb : (t.lane n).broken = false) (hu : (t.lane n).work.unsettled ≠ []) : rowProgress n t = t := by
  unfold rowProgress
  dsimp only
  rw [if_pos hw, ha, if_neg Bool.false_ne_true, hb, if_neg Bool.false_ne_true, if_neg hu]

theorem rowProgress_again {t : State} (hw : (t.lane n).writes = true) (ha : (t.lane n).work.again = true) :
    rowProgress n t = if (t.lane n).commands = 0 then t.post (.rowAgain n) else t := by
  unfold rowProgress
  dsimp only
  rw [if_pos hw, if_pos ha]

theorem rowProgress_away {t : State} (hw : (t.lane n).writes = false) : rowProgress n t = t :=
  if_neg (by rw [hw]; exact Bool.false_ne_true)

theorem DriveOnly.lane {s t : State} (h : DriveOnly s t) (m : Nat) : t.lane m = s.lane m := by
  obtain ⟨d, p, a, rfl⟩ := h
  rfl

theorem writeCompleted_failed (hs : c.status ≠ .good) (u : State) :
    writeCompleted n position c u = rowProgress n (unitFailed n position c.cmd u) :=
  congrArg (rowProgress n) (if_neg hs)

theorem verifyCompleted_failed (hs : c.status ≠ .good) (u : State) :
    verifyCompleted n position c u = rowProgress n (unitFailed n position c.cmd u) :=
  congrArg (rowProgress n) (if_neg fun h => hs h.1)

theorem unitFailed_first {cmd : Cmd} (hm : (u.member cmd.member).state ≠ .failed)
    (hf : position ∉ (u.lane n).work.failedOnce) : unitFailed n position cmd u = firstFailure n position u := by
  unfold unitFailed
  dsimp only
  rw [if_neg hm, if_neg (mt List.contains_iff_mem.1 hf)]

theorem unitFailed_second {cmd : Cmd} (hm : (u.member cmd.member).state ≠ .failed)
    (hf : position ∈ (u.lane n).work.failedOnce) : unitFailed n position cmd u = secondFailure n cmd u := by
  unfold unitFailed
  dsimp only
  rw [if_neg hm, if_pos (List.contains_iff_mem.2 hf)]

/-- The state in which a lane writes a unit again. -/
def State.rewriting (u : State) (n position : Nat) (l : Lane) : State :=
  { u with me := { u.me with
    lanes := tableWrite Lane.idle u.me.lanes n
      { l with work := { l.work with failedOnce := l.work.failedOnce ++ [position] } },
    counters := { u.me.counters with verifyRewrites := min (u.me.counters.verifyRewrites + 1) 4294967295 } } }

theorem rewriting_lane (u : State) (n position : Nat) (l : Lane) :
    (u.rewriting n position l).lane n = { l with work := { l.work with failedOnce := l.work.failedOnce ++ [position] } } :=
  lane_setLane_same n _ u

/-- The first failure of a unit: its write is handed over again, and the lane waits for as many commands as before (R119). -/
theorem firstFailure_answered {l : Lane} (hi : l.mayIssue = true) (hc : 1 ≤ l.commands) :
    firstFailure n position (u.setLane n l.answered)
      = handOver (u.unitCmd n l (.write position) .write position) (u.rewriting n position l) := by
  let m : Lane := { l.answered with work := { l.work with failedOnce := l.work.failedOnce ++ [position] } }
  let v : State := u.onMe fun m => { m with
    counters := { m.counters with verifyRewrites := bump m.counters.verifyRewrites } }
  let t : State := v.setLane n m
  have ht : firstFailure n position (u.setLane n l.answered)
      = if (t.lane n).mayIssue then handOverAll n [t.unitCmd n (t.lane n) (.write position) .write position] t else t := by
    unfold firstFailure
    rw [onLane_setLane]
    rfl
  have hm : t.lane n = m := lane_setLane_same n m u
  have hback : ({ m with commands := m.commands + 1 } : Lane)
      = { l with work := { l.work with failedOnce := l.work.failedOnce ++ [position] } } :=
    congrArg (fun k => ({ m with commands := k } : Lane)) (Nat.sub_add_cancel hc)
  have hlanes : t.onLane n (fun l => { l with commands := l.commands + 1 }) = u.rewriting n position l :=
    (onLane_setLane n _ m v).trans (congrArg (fun k => v.setLane n k) hback)
  rw [ht, hm, if_pos (show m.mayIssue = true from hi)]
  exact congrArg (handOver (u.unitCmd n l (.write position) .write position)) hlanes

/-- The state in which the verify error of a unit is counted and faulted. -/
def State.verifyFaulted (u : State) (n : Nat) (c : Cmd) : State :=
  countFailure c.member (State.offerFault (laneFault .verifyMismatch n c c.dbn) u)

theorem verifyFaulted_lane (u : State) (n m : Nat) (c : Cmd) : (u.verifyFaulted n c).lane m = u.lane m := by
  obtain ⟨p, hp⟩ := offerFault_eq (laneFault .verifyMismatch n c c.dbn) u
  rw [State.verifyFaulted, countFailure_eq, hp]
  rfl

theorem secondFailure_move {cmd : Cmd} (h : (u.lane n).moves = true) :
    secondFailure n cmd u = abortLane n .targetVerify (u.verifyFaulted n cmd) :=
  if_pos (show ((u.verifyFaulted n cmd).lane n).moves = true by rw [verifyFaulted_lane, h])

theorem secondFailure_fill {cmd : Cmd} (h : (u.lane n).moves = false) :
    secondFailure n cmd u
      = (u.verifyFaulted n cmd).setLane n { u.lane n with work := { (u.lane n).work with again := true } } := by
  refine (if_neg (show ¬((u.verifyFaulted n cmd).lane n).moves = true by rw [verifyFaulted_lane, h]; exact Bool.false_ne_true)).trans ?_
  refine congrArg (fun l => (u.verifyFaulted n cmd).setLane n l)
    (congrArg (fun l : Lane => { l with work := { l.work with again := true } }) ?_)
  exact verifyFaulted_lane u n n cmd

/-- A lane that begins to abort is in ABORTING. -/
theorem abortLane_state (n : Nat) (cause : AbortCause) (s : State) : ((abortLane n cause s).lane n).state = .aborting := by
  let w := abandonRow n (s.onLane n (fun l => { l with state := .aborting, cause := some cause }))
  have hlane : (w.lane n).state = .aborting := by
    rw [(abandonRow_abandoned n _).lane, lane_onLane_same]
    rfl
  have hposted : ∀ (b : Bool) (i : Internal) (t : State), (if b then t.post i else t).lane n = t.lane n := fun b i t => by
    cases b <;> rfl
  obtain ⟨m, j, a, hq⟩ := JournalOnly.queueRecord (.lane n) (.jobAbort (s.lane n).slab)
    (if (s.lane n).lockout then (dropWorks n Work.isFront w).post (.reevaluate (s.lane n).slab) else dropWorks n Work.isFront w)
  have habort : abortLane n cause s = queueRecord (.lane n) (.jobAbort (s.lane n).slab)
    (if (s.lane n).lockout then (dropWorks n Work.isFront w).post (.reevaluate (s.lane n).slab) else dropWorks n Work.isFront w) :=
    rfl
  rw [habort, hq]
  exact (congrArg Lane.state (hposted _ _ _)).trans hlane

theorem abortLane_writes (n : Nat) (cause : AbortCause) (s : State) : ((abortLane n cause s).lane n).writes = false := by
  rw [Lane.writes, abortLane_state]
  rfl

end

/-- A unit whose write or read-back has not ended GOOD, at a lane that may write it again (R119). -/
theorem unitFailed_answered {u : State} {n position : Nat} {c : Cmd} (hw : (u.lane n).writes = true)
    (hm : (u.member c.member).state ≠ .failed) (hp : position ∈ (u.lane n).work.unsettled) (hb : (u.lane n).broken = false)
    (ha : (u.lane n).work.again = false) (hc : 1 ≤ (u.lane n).commands) :
    let told := rowProgress n (unitFailed n position c (u.setLane n (u.lane n).answered))
    let faulted := (u.setLane n (u.lane n).answered).verifyFaulted n c
    let again := faulted.setLane n { (u.lane n).answered with work := { (u.lane n).work with again := true } }
    (position ∉ (u.lane n).work.failedOnce →
        told = handOver (u.unitCmd n (u.lane n) (.write position) .write position) (u.rewriting n position (u.lane n)))
      ∧ (position ∈ (u.lane n).work.failedOnce →
          ((u.lane n).moves = true → told = abortLane n .targetVerify faulted)
            ∧ ((u.lane n).moves = false →
                told = if (u.lane n).commands = 1 then again.post (.rowAgain n) else again)) := by
  intro told faulted again
  have hlane : (u.setLane n (u.lane n).answered).lane n = (u.lane n).answered := lane_setLane_same n _ u
  have hmember : ((u.setLane n (u.lane n).answered).member c.member).state ≠ .failed := hm
  have hissue : (u.lane n).mayIssue = true := by
    rw [Lane.mayIssue, hb, ha]
    rfl
  refine ⟨fun hf => ?_, fun hf => ⟨fun hmoves => ?_, fun hmoves => ?_⟩⟩
  · have hfirst : unitFailed n position c (u.setLane n (u.lane n).answered) = _ :=
      (unitFailed_first hmember (by rw [hlane]; exact hf)).trans (firstFailure_answered hissue hc)
    have hkept := (DriveOnly.handOver (u.unitCmd n (u.lane n) (.write position) .write position)
      (u.rewriting n position (u.lane n))).lane n
    rw [rewriting_lane] at hkept
    refine (congrArg (rowProgress n) hfirst).trans (rowProgress_waits ?_ ?_ ?_ ?_) <;> rw [hkept]
    · exact hw
    · exact ha
    · exact hb
    · exact List.ne_nil_of_mem hp
  · have hsecond : unitFailed n position c (u.setLane n (u.lane n).answered) = abortLane n .targetVerify faulted :=
      (unitFailed_second hmember (by rw [hlane]; exact hf)).trans (secondFailure_move (by rw [hlane]; exact hmoves))
    exact (congrArg (rowProgress n) hsecond).trans (rowProgress_away (abortLane_writes n _ _))
  · have hsecond : unitFailed n position c (u.setLane n (u.lane n).answered) = again := by
      refine (unitFailed_second hmember (by rw [hlane]; exact hf)).trans ((secondFailure_fill (by rw [hlane]; exact hmoves)).trans ?_)
      rw [hlane]
      rfl
    have hagain : again.lane n = { (u.lane n).answered with work := { (u.lane n).work with again := true } } :=
      lane_setLane_same n _ faulted
    refine (congrArg (rowProgress n) hsecond).trans ((rowProgress_again ?_ ?_).trans ?_)
    · rw [hagain]
      exact hw
    · rw [hagain]
    · rw [hagain]
      have hlast : ((u.lane n).commands - 1 = 0) = ((u.lane n).commands = 1) := propext (by omega)
      exact ite_congr hlast (fun _ => rfl) fun _ => rfl

/-! ## An admission's and a start-up check's command (R33, R164) -/

theorem onPm_offerNotice (f : PlacementMap → PlacementMap) (x : Notice) (s : State) :
    (s.offerNotice x).onPm f = (s.onPm f).offerNotice x := by
  obtain ⟨m, hm⟩ := offerNotice_eq x s
  rw [offerNotice_of_mp (s := s) (t := s.onPm f) x rfl, hm]
  rfl

theorem joinCompleted_failed {u : State} {c : Completion} {tag : ReqTag} {q : Nat} {verified durable : Bool}
    (hb : u.pm.busy = some (.joining tag c.cmd.member (some q) verified durable)) (hs : c.status ≠ .good) :
    joinCompleted c u = joinFail tag c.cmd.member { u.member c.cmd.member with state := .present } u := by
  unfold joinCompleted
  rw [hb]
  dsimp only
  rw [if_pos rfl, if_pos hs]

theorem joinFail_open {u : State} {tag : ReqTag} {id : Nat} {m : Member} (hj : (u.member id).state = .joining)
    (hm : m.state ≠ .joining) (ho : u.journalOpen) :
    joinFail tag id m u =
      (State.withRecord .pm (.member id .unadmitted) (some tag)
        (State.offerNotice (.memberState id .joining m.state)
          { u with pm := { u.pm with
            members := tableWrite Member.absent u.pm.members id m,
            busy := some (.joinFailed tag id) } })).post
        (.recordQueued ⟨u.jc.nextSeq, .member id .unadmitted, .pm, some tag⟩) := by
  have hchange : setBusy (some (.joinFailed tag id)) (changeMember id m u)
      = State.offerNotice (.memberState id .joining m.state)
          { u with pm := { u.pm with
            members := tableWrite Member.absent u.pm.members id m,
            busy := some (.joinFailed tag id) } } := by
    rw [changeMember_moves (by rw [hj]; exact hm.symm), hj]
    exact onPm_offerNotice (fun p => { p with busy := some (.joinFailed tag id) }) _ (u.setMember id m)
  unfold joinFail pmWork
  rw [hchange]
  obtain ⟨p, hp⟩ := offerNotice_eq (.memberState id .joining m.state)
    { u with pm := { u.pm with members := tableWrite Member.absent u.pm.members id m, busy := some (.joinFailed tag id) } }
  rw [hp]
  exact queueWork_open (by exact ho) rfl

theorem checkCompleted_failed {u : State} {c : Completion} (hs : c.status ≠ .good) :
    checkCompleted c u = memberCause c.cmd.member
      { u with pm := { u.pm with checks := u.pm.checks.filter (fun k => k ≠ c.cmd.member) } } :=
  if_neg fun h => hs h.1

/-- A member without bands, with no command in the Drive Port, fails in start-up. -/
theorem failMember_bare {u : State} {id : Nat} {reply : Option ReqTag} (hbands : (u.member id).bands = [])
    (he : u.entriesWhere (fun c => decide (c.member = id)) = []) (hw : u.dp.waiting = []) (hl : u.dp.labelWait = [])
    (hp : u.part = .starting) :
    failMember id reply u = State.offerNotice (.memberState id (u.member id).state .failed)
      { u with pm := { u.pm with
        members := tableWrite Member.absent u.pm.members id { u.member id with state := .failed },
        held := u.pm.held ++ [id] } } := by
  have hchanged : u.failChanged id = [] := by rw [State.failChanged, hbands]; rfl
  let t : State := u.setMember id { u.member id with state := .failed }
  have hdown : u.memberDown id = State.offerNotice (.memberState id (u.member id).state .failed) t := by
    rw [offerNotice_of_mp (s := u) (t := t) _ rfl, State.memberDown, State.failNotices, hchanged, hbands, List.map_nil, List.map_nil,
      List.append_nil]
    rfl
  have hend : endCommands (fun c => decide (c.member = id)) (u.memberDown id) = u.memberDown id := by
    have hentries : (u.memberDown id).entriesWhere (fun c => decide (c.member = id)) = [] := he
    rw [endCommands, hentries]
    exact serveCommands_none (s := u.memberDown id) hw hl
  rw [failMember_eq reply (by rw [hbands]; exact List.nodup_nil), hend, recordFailure_starting (s := u.memberDown id) hp, hdown]
  exact onPm_offerNotice (fun p => { p with held := p.held ++ [id] }) _ t

/-- Settles O49: COMMAND_TIMEOUT by whether it is due; then what the owner does, by the owner and the use of its command. -/
theorem commandTimesOut : Obligations.CommandTimesOut := by
  refine ⟨fun s e hs => ⟨fun h => ?_, fun c hc hdue => ?_⟩, fun u c mismatch b n ho => ?_,
    fun u c mismatch b tag q verified durable ho hbusy hj hopen => ?_, fun u c mismatch b ho hp hup hbands he hw hl => ?_⟩
  · refine if_neg fun hdue => ?_
    rcases h with h | h
    · exact absurd hdue.1 (by rw [h]; exact Bool.false_ne_true)
    · exact absurd hdue.2 (Nat.not_le.2 h)
  · intro run ended
    have hended : State.offerFault (c.faultAt .driveTimeout c.dbn) (s.timedOut e c) = ended := by
      rw [State.timedOut, show s.agenda = [] from hs]
      rfl
    have hexec : exec (.commandTimeout e) s = .next (finish s (serveCommands ended)) := by
      refine (if_pos ⟨by rw [hc]; rfl, hdue⟩).trans (congrArg (conclude s) ?_)
      rw [← hended]
      exact timeOutEntry_eq hc
    refine ⟨hexec, fun hwait hlabel => hexec.trans (congrArg (fun t => Host.Outcome.next (finish s t)) ?_)⟩
    obtain ⟨m, hm⟩ := offerFault_eq (c.faultAt .driveTimeout c.dbn) (s.timedOut e c)
    rw [← hended, hm]
    exact serveCommands_none hwait hlabel
  · intro l told left goOn
    let done : Completion := ⟨c, .timeout, 0, mismatch, b⟩
    have htold : told = laneCompleted n done u := takeCompletion_lane (c := done) ho
    have hbad : done.status ≠ .good := nofun
    refine ⟨fun unit huse hstate => ?_, fun v huse hstate => ?_, fun position huse hwrites hm hpos hb ha hcmds => ?_⟩
    · exact htold.trans ((laneCompleted_run (c := done) huse hstate).trans (runCompleted_failed hbad))
    · intro failed
      have hfailed : u.setLane n { (u.lane n).answered with work := (u.lane n).work.failedSurvivor v } = failed := by
        cases v <;> rfl
      have hrebuild := (laneCompleted_rebuild (c := done) huse hstate).trans (rebuildCompleted_failed hbad)
      rw [hfailed] at hrebuild
      refine rebuildOn_eq (u := u) (n := n) (t := failed) ?_ ?_ (htold.trans hrebuild) <;>
        rw [← hfailed, lane_setLane_same] <;> rfl
    · have hprogress : told = rowProgress n (unitFailed n position c (u.setLane n (u.lane n).answered)) := by
        rcases huse with huse | huse
        · exact htold.trans ((laneCompleted_write (c := done) huse hwrites).trans (writeCompleted_failed hbad _))
        · exact htold.trans ((laneCompleted_verify (c := done) huse hwrites).trans (verifyCompleted_failed hbad _))
      have hunit := unitFailed_answered hwrites hm hpos hb ha hcmds
      rw [← hprogress] at hunit
      exact hunit
  · have hfail := joinCompleted_failed (c := ⟨c, .timeout, 0, mismatch, b⟩) hbusy nofun
    refine Eq.trans ?_ (hfail.trans (joinFail_open hj nofun hopen))
    show takeCompletion _ u = _
    rw [takeCompletion, ho]
  · have hcheck : handle (.completed ⟨c, .timeout, 0, mismatch, b⟩) u = checkCompleted ⟨c, .timeout, 0, mismatch, b⟩ u := by
      show takeCompletion _ u = _
      rw [takeCompletion, ho]
    refine hcheck.trans ((checkCompleted_failed (c := ⟨c, .timeout, 0, mismatch, b⟩) CmdStatus.noConfusion).trans ((if_pos hup).trans ?_))
    exact failMember_bare (reply := none) (u := { u with pm := { u.pm with checks := u.pm.checks.filter (fun k => k ≠ c.member) } })
      hbands he hw hl hp

end Sys2Proof.Machine
end

section
/-! PROOFS. What the Drive Port, the journal and a row given up post; a lane's abort (R85); and CANCEL_JOB (R76, R84, R92). -/

namespace Sys2Proof.Machine

/-! ## What a change posts -/

/-- A change posts only exchanges that pass a test. -/
def Posts (P : Internal → Prop) (s t : State) : Prop := ∃ a, t.agenda = s.agenda ++ a ∧ ∀ i ∈ a, P i

namespace Posts

variable {P : Internal → Prop} {s t u : State}

theorem of_agenda (h : t.agenda = s.agenda) : Posts P s t :=
  ⟨[], by rw [h, List.append_nil], fun _ hi => absurd hi List.not_mem_nil⟩

theorem trans (h : Posts P s t) (h' : Posts P t u) : Posts P s u := by
  obtain ⟨a, ha, hp⟩ := h
  obtain ⟨b, hb, hp'⟩ := h'
  exact ⟨a ++ b, by rw [hb, ha, List.append_assoc], fun i hi => (List.mem_append.1 hi).elim (hp i) (hp' i)⟩

theorem mono {Q : Internal → Prop} (h : Posts P s t) (hq : ∀ i, P i → Q i) : Posts Q s t := by
  obtain ⟨a, ha, hp⟩ := h
  exact ⟨a, ha, fun i hi => hq i (hp i hi)⟩

theorem post {i : Internal} (h : P i) (s : State) : Posts P s (s.post i) :=
  ⟨[i], rfl, fun _ hk => List.mem_singleton.1 hk ▸ h⟩

theorem forEach {α : Type} {f : α → State → State} (hf : ∀ x s, Posts P s (f x s)) (l : List α) (s : State) :
    Posts P s (Machine.forEach f l s) := by
  induction l generalizing s with
  | nil => exact of_agenda rfl
  | cons x rest ih => exact (hf x s).trans (ih (f x s))

theorem offerFault (o : FaultOffer) (s : State) : Posts P s (s.offerFault o) := by
  obtain ⟨m, hm⟩ := offerFault_eq o s
  exact of_agenda (by rw [hm])

theorem offerNotice (n : Notice) (s : State) : Posts P s (s.offerNotice n) := by
  obtain ⟨m, hm⟩ := offerNotice_eq n s
  exact of_agenda (by rw [hm])

/-- What stood on the agenda stays there. -/
theorem keeps (h : Posts P s t) {i : Internal} (hi : i ∈ s.agenda) : i ∈ t.agenda := by
  obtain ⟨a, ha, -⟩ := h
  rw [ha]
  exact List.mem_append_left a hi

theorem or_old (h : Posts P s t) {i : Internal} (hi : i ∈ t.agenda) : i ∈ s.agenda ∨ P i := by
  obtain ⟨a, ha, hp⟩ := h
  rw [ha] at hi
  exact (List.mem_append.1 hi).imp id (hp i)

end Posts

/-- The exchange of a completion. -/
def Internal.isCompletion : Internal → Prop
  | .completed _ => True
  | _ => False

/-- The exchanges of the journal as it takes a record. -/
def Internal.ofJournal : Internal → Prop
  | .recordQueued _ => True
  | .freeze _ => True
  | _ => False

/-- An exchange that evaluates no deferred MAP. -/
def Internal.evaluatesNone (i : Internal) : Prop := ∀ g, i ≠ .reevaluate g

/-! ## The Drive Port posts completions (R131, R133, R134) -/

section

theorem freeLabelPlace_posts {P : Internal → Prop} (c : Cmd) (s : State) : Posts P s (freeLabelPlace c s) := by
  obtain ⟨free, hfree⟩ := freeLabelPlace_eq c s
  exact Posts.of_agenda (by rw [hfree])

theorem completeUnissued_posts (c : Cmd) (s : State) : Posts Internal.isCompletion s (completeUnissued c s) := by
  have hfault := Posts.offerFault (P := Internal.isCompletion) (c.faultAt .driveNoDevice c.dbn)
    ((freeLabelPlace c s).post (.completed ⟨c, .noDevice, 0, false, none⟩))
  exact ((freeLabelPlace_posts c s).trans (Posts.post (i := .completed ⟨c, .noDevice, 0, false, none⟩) trivial _)).trans hfault

theorem issue_posts {P : Internal → Prop} (e : Nat) (c : Cmd) (s : State) : Posts P s (issue e c s) := Posts.of_agenda rfl

theorem accept_posts (c : Cmd) (s : State) : Posts Internal.isCompletion s (accept c s) := by
  unfold accept
  split
  · split
    · exact completeUnissued_posts c s
    · split
      · exact issue_posts _ c s
      · exact Posts.of_agenda rfl
  · exact Posts.of_agenda rfl

theorem takeLabelPlace_posts (p : Nat) (rest : List Nat) (c : Cmd) (s : State) :
    Posts Internal.isCompletion s (takeLabelPlace p rest c s) := by
  have haccept := accept_posts { c with pages := .label (some p) } (s.onDp (fun d => { d with
    labelFree := rest, labels := tableWrite Block.zero d.labels p (c.labelBlock.getD Block.zero) }))
  exact haccept

theorem serveRing_posts (n : Nat) (s : State) : Posts Internal.isCompletion s (serveRing n s) := by
  induction n generalizing s with
  | zero => exact Posts.of_agenda rfl
  | succ n ih =>
    rw [serveRing]
    split
    · extract_lets u
      have hu : Posts Internal.isCompletion s u := Posts.of_agenda rfl
      refine (hu.trans ?_).trans (ih _)
      split
      · exact completeUnissued_posts _ _
      · exact issue_posts _ _ _
    · exact Posts.of_agenda rfl

theorem serveLabels_posts (n : Nat) (s : State) : Posts Internal.isCompletion s (serveLabels n s) := by
  induction n generalizing s with
  | zero => exact Posts.of_agenda rfl
  | succ n ih =>
    rw [serveLabels]
    split
    · next p rest c more _ _ =>
      exact (Posts.of_agenda (t := s.onDp _) rfl).trans ((takeLabelPlace_posts p rest c _).trans (ih _))
    · exact Posts.of_agenda rfl

theorem serveCommands_posts (s : State) : Posts Internal.isCompletion s (serveCommands s) := by
  unfold serveCommands
  split
  · exact (serveRing_posts _ s).trans (serveLabels_posts _ _)
  · exact Posts.of_agenda rfl

theorem cancelEntry_posts {P : Internal → Prop} (e : Nat) (s : State) : Posts P s (cancelEntry e s) := by
  unfold cancelEntry
  split
  · exact Posts.of_agenda rfl
  · exact Posts.of_agenda (by rw [freeEntry_frees]; rfl)

theorem cancelCommands_posts (p : Cmd → Bool) (s : State) : Posts Internal.isCompletion s (cancelCommands p s) := by
  obtain ⟨free, hfree⟩ := withdraw_eq p s
  have hwithdraw : Posts Internal.isCompletion s (withdraw p s) := Posts.of_agenda (by rw [hfree])
  exact (hwithdraw.trans (Posts.forEach cancelEntry_posts _ _)).trans (serveCommands_posts _)

/-- A row given up posts completions and what it grants to other lanes. -/
theorem abandonRow_posts (n : Nat) (s : State) :
    Posts (fun i => i.isCompletion ∨ i.grants) s (abandonRow n s) := by
  obtain ⟨p, lanes, order, a, hform, hgrants⟩ := (rowLeft_left n ((cancelCommands (ofLane n) s).onLane n Lane.rowCleared)).form
  have hleft : Posts (fun i => i.isCompletion ∨ i.grants) (cancelCommands (ofLane n) s) (abandonRow n s) := by
    rw [abandonRow_eq]
    exact ⟨a, by rw [hform]; rfl, fun i hi => Or.inr (hgrants i hi)⟩
  exact ((cancelCommands_posts (ofLane n) s).mono fun i hi => Or.inl hi).trans hleft

/-! ## The journal as it takes a record (R148, R150, R151) -/

/-- A change of the journal that keeps its room wait list, and posts only what the journal posts. -/
def KeepsRoom (s t : State) : Prop := t.jc.roomWait = s.jc.roomWait ∧ Posts Internal.ofJournal s t

namespace KeepsRoom

theorem trans {s t u : State} (h : KeepsRoom s t) (h' : KeepsRoom t u) : KeepsRoom s u := ⟨h'.1.trans h.1, h.2.trans h'.2⟩

theorem of_eq {s t : State} (hr : t.jc.roomWait = s.jc.roomWait) (ha : t.agenda = s.agenda) : KeepsRoom s t :=
  ⟨hr, Posts.of_agenda ha⟩

theorem post {i : Internal} (h : i.ofJournal) (s : State) : KeepsRoom s (s.post i) := ⟨rfl, Posts.post h s⟩

theorem offerNotice (n : Notice) (s : State) : KeepsRoom s (s.offerNotice n) := by
  obtain ⟨m, hm⟩ := offerNotice_eq n s
  rw [hm]
  exact of_eq rfl rfl

theorem openNext (s : State) : KeepsRoom s (openNext s) := by
  unfold Machine.openNext
  split
  · exact of_eq rfl rfl
  · next h _ =>
    split
    · split
      · exact post (i := .freeze _) trivial s
      · next b _ =>
        split
        · have hmove : KeepsRoom s (moveHead h b s) := by
            unfold moveHead
            split <;> exact of_eq rfl rfl
          refine hmove.trans ?_
          unfold compactionCheck
          split
          · exact (of_eq (t := (moveHead h b s).onJc _) rfl rfl).trans (offerNotice _ _)
          · exact of_eq rfl rfl
        · exact of_eq rfl rfl
        all_goals exact post (i := .freeze _) trivial s
    · exact of_eq rfl rfl

theorem imageDue (s : State) : KeepsRoom s (imageDue s) := by
  unfold Machine.imageDue
  split
  · unfold nextImageRecord
    extract_lets built
    have hbuilt : KeepsRoom s built := by
      unfold built
      split <;> exact of_eq rfl rfl
    refine hbuilt.trans ?_
    split
    · exact of_eq rfl rfl
    · split
      · exact of_eq rfl rfl
      · exact post (i := .freeze _) trivial _
  · exact of_eq rfl rfl

theorem eraseOldest (s : State) : KeepsRoom s (eraseOldest s) := by
  unfold Machine.eraseOldest
  split <;> exact of_eq rfl rfl

theorem programRecord (r : Record) (s : State) : KeepsRoom s (programRecord r s) := by
  unfold Machine.programRecord
  split <;> exact of_eq rfl rfl

theorem kickStore (s : State) : KeepsRoom s (kickStore s) := by
  unfold Machine.kickStore
  split
  · refine ((openNext s).trans (imageDue _)).trans ?_
    dsimp only
    split
    · split
      · exact eraseOldest _
      · exact programRecord _ _
    · exact eraseOldest _
  · exact of_eq rfl rfl

end KeepsRoom

/-- A record that no request waits for is numbered, or waits at the head of the room wait list where no number is left. -/
theorem enterRecord_unasked (owner : JOwner) (body : RecordBody) (s : State) :
    enterRecord owner ⟨body, none⟩ s = if s.jc.nextSeq ≤ Config.sequenceMax then numberRecord owner ⟨body, none⟩ s
      else (s.onJc (fun j => { j with roomWait := (owner, [⟨body, none⟩]) :: j.roomWait })).post (.freeze .sequenceEnd) := by
  unfold enterRecord
  split
  · cases body <;> rfl
  · rfl

theorem mem_waitFurther {owner : JOwner} {w : Work} {l : List (JOwner × List Work)} {e : JOwner × List Work}
    (he : e ∈ waitFurther owner w l) {v : Work} (hv : v ∈ e.2) :
    (e.1 = owner ∧ v = w) ∨ ∃ e' ∈ l, e.1 = e'.1 ∧ v ∈ e'.2 := by
  induction l with
  | nil =>
    obtain rfl := List.mem_singleton.1 he
    exact Or.inl ⟨rfl, List.mem_singleton.1 hv⟩
  | cons e' rest ih =>
    obtain ⟨o, ws⟩ := e'
    rw [waitFurther] at he
    by_cases ho : o = owner
    · rw [if_pos ho] at he
      rcases List.mem_cons.1 he with rfl | he
      · rcases List.mem_append.1 hv with hv | hv
        · exact Or.inr ⟨(o, ws), List.mem_cons_self, rfl, hv⟩
        · exact Or.inl ⟨ho, List.mem_singleton.1 hv⟩
      · exact Or.inr ⟨e, List.mem_cons_of_mem _ he, rfl, hv⟩
    · rw [if_neg ho] at he
      rcases List.mem_cons.1 he with rfl | he
      · exact Or.inr ⟨(o, ws), List.mem_cons_self, rfl, hv⟩
      · rcases ih he with h | ⟨e', he', heq⟩
        · exact Or.inl h
        · exact Or.inr ⟨e', List.mem_cons_of_mem _ he', heq⟩

theorem waitFurther_has (owner : JOwner) (w : Work) (l : List (JOwner × List Work)) :
    ∃ e ∈ waitFurther owner w l, e.1 = owner ∧ w ∈ e.2 := by
  induction l with
  | nil => exact ⟨(owner, [w]), List.mem_singleton.2 rfl, rfl, List.mem_singleton.2 rfl⟩
  | cons e rest ih =>
    obtain ⟨o, ws⟩ := e
    rw [waitFurther]
    by_cases ho : o = owner
    · rw [if_pos ho]
      exact ⟨_, List.mem_cons_self, ho, List.mem_append_right _ (List.mem_singleton.2 rfl)⟩
    · rw [if_neg ho]
      obtain ⟨e, he, h⟩ := ih
      exact ⟨e, List.mem_cons_of_mem _ he, h⟩

/-- A record queued that no request waits for: who waits for room afterwards, and what is posted. -/
theorem queueRecord_room (owner : JOwner) (body : RecordBody) (s : State) :
    (∀ e ∈ (queueRecord owner body s).jc.roomWait, ∀ w ∈ e.2,
        (e.1 = owner ∧ w = ⟨body, none⟩) ∨ ∃ e' ∈ s.jc.roomWait, e.1 = e'.1 ∧ w ∈ e'.2)
      ∧ Posts Internal.ofJournal s (queueRecord owner body s) := by
  have hkept : ∀ e ∈ s.jc.roomWait, ∀ w ∈ e.2,
      (e.1 = owner ∧ w = ⟨body, none⟩) ∨ ∃ e' ∈ s.jc.roomWait, e.1 = e'.1 ∧ w ∈ e'.2 :=
    fun e he w hw => Or.inr ⟨e, he, rfl, hw⟩
  unfold queueRecord queueWork
  split
  · split
    · have hkick := KeepsRoom.kickStore (enterRecord owner ⟨body, none⟩ s)
      rw [hkick.1]
      by_cases hn : s.jc.nextSeq ≤ Config.sequenceMax
      · rw [enterRecord_unasked, if_pos hn] at hkick ⊢
        exact ⟨hkept, (Posts.post (s := s.onJc _) (i := .recordQueued _) trivial).trans hkick.2⟩
      · rw [enterRecord_unasked, if_neg hn] at hkick ⊢
        refine ⟨fun e he w hw => ?_, (Posts.post (s := s.onJc _) (i := .freeze .sequenceEnd) trivial).trans hkick.2⟩
        rcases List.mem_cons.1 he with rfl | he
        · exact Or.inl ⟨rfl, List.mem_singleton.1 hw⟩
        · exact hkept e he w hw
    · exact ⟨fun e he w hw => mem_waitFurther he hw, Posts.of_agenda rfl⟩
  · exact ⟨hkept, Posts.of_agenda rfl⟩

theorem queueRecord_inactive {owner : JOwner} {body : RecordBody} {s : State} (h : s.jc.active = false) :
    queueRecord owner body s = s := if_neg (by rw [h]; exact Bool.false_ne_true)

end

end Sys2Proof.Machine
end

section
/-! PROOFS. A cause reaches a lane: its abort, and its abandoned claim (R76, R84, R85); CANCEL_JOB (R92). -/

namespace Sys2Proof.Machine

/-! ## An abort begins (R85) -/

/-- The state of an abort ahead of its JOB_ABORT record. -/
def abortReady (n : Nat) (cause : AbortCause) (s : State) : State :=
  let w := dropWorks n Work.isFront (abandonRow n (s.onLane n (fun l => { l with state := .aborting, cause := some cause })))
  if (s.lane n).lockout then w.post (.reevaluate (s.lane n).slab) else w

theorem abortLane_eq (n : Nat) (cause : AbortCause) (s : State) :
    abortLane n cause s = queueRecord (.lane n) (.jobAbort (s.lane n).slab) (abortReady n cause s) := rfl

/-- A lane's record once its abort has begun. -/
def Lane.aborted (l : Lane) (cause : AbortCause) : Lane :=
  { l with
    state := .aborting, cause := some cause, commands := 0, pages := [], watch := none, lockout := false, backoffEnd := none,
    work := RowWork.none }

/-- What an abort ahead of its record leaves. -/
structure AbortReady (n : Nat) (cause : AbortCause) (s t : State) : Prop where
  form : ∃ d m p lanes order a room, t = { s with
    dp := d, mp := m, sp := p, me := { s.me with lanes := lanes, tokenOrder := order }, agenda := a,
    jc := { s.jc with roomWait := room } }
  lane : t.lane n = (s.lane n).aborted cause
  ring : tableWf (RingEntry.free 0) s.dp.ring = true → t.entriesWhere (ofLane n) = []
  waiting : ∀ c ∈ t.dp.waiting, c.owner ≠ .lane n
  tokens : n ∉ t.me.tokenOrder
  noRecovery : n ∉ t.sp.recoveryWait
  recovery : s.sp.recoveryLeft t.sp n
  passed : ∀ m rest, s.sp.holder = some n → s.sp.recoveryWait = m :: rest → .recoveryGranted m ∈ t.agenda
  waits : ∀ e ∈ t.sp.waiting, e.1 ≠ n
  free : s.sp.waiting = [] → t.sp.free = (s.lane n).pages.foldr insertRising s.sp.free
  room : ∀ e ∈ t.jc.roomWait, ∃ e' ∈ s.jc.roomWait, e.1 = e'.1 ∧ (∀ w ∈ e.2, w ∈ e'.2)
    ∧ (e.1 = .lane n → ∀ w ∈ e.2, w.isFront = false)
  released : (s.lane n).lockout = true → .reevaluate (s.lane n).slab ∈ t.agenda
  evaluated : ∀ g, .reevaluate g ∈ t.agenda → .reevaluate g ∈ s.agenda ∨ ((s.lane n).lockout = true ∧ g = (s.lane n).slab)

/-- A row given up, with its FRONT dropped and its lockout released. -/
theorem abortReady_of {n : Nat} {cause : AbortCause} {s r t : State}
    (hleft : RowAbandoned n (s.onLane n (fun l => { l with state := .aborting, cause := some cause })) r)
    (hposts : Posts (fun i => i.isCompletion ∨ i.grants) (s.onLane n (fun l => { l with state := .aborting, cause := some cause })) r)
    (ht : t = if (s.lane n).lockout then (dropWorks n Work.isFront r).post (.reevaluate (s.lane n).slab)
      else dropWorks n Work.isFront r) : AbortReady n cause s t := by
  have hu : (s.onLane n (fun l => { l with state := .aborting, cause := some cause })).lane n
      = { s.lane n with state := .aborting, cause := some cause } := lane_onLane_same n _ s
  obtain ⟨d, m, p, lanes, order, a, hform⟩ := hleft.form
  obtain ⟨room, hroom, hkept⟩ := dropWorks_form n Work.isFront r
  have hready : ∃ b, t = { r with jc := { r.jc with roomWait := room }, agenda := r.agenda ++ b }
      ∧ ((s.lane n).lockout = true → .reevaluate (s.lane n).slab ∈ b)
      ∧ ∀ i ∈ b, (s.lane n).lockout = true ∧ i = .reevaluate (s.lane n).slab := by
    rw [hroom] at ht
    by_cases hl : (s.lane n).lockout = true
    · exact ⟨[.reevaluate (s.lane n).slab], ht.trans (if_pos hl), fun _ => List.mem_singleton.2 rfl,
        fun i hi => ⟨hl, List.mem_singleton.1 hi⟩⟩
    · exact ⟨[], ht.trans ((if_neg hl).trans (by rw [List.append_nil])), fun h => absurd h hl,
        fun _ h => absurd h List.not_mem_nil⟩
  obtain ⟨b, rfl, hreleased, honly⟩ := hready
  have hjc : r.jc = s.jc := by rw [hform]; rfl
  refine ⟨⟨d, m, p, lanes, order, r.agenda ++ b, room, by rw [hform]; rfl⟩, hleft.lane.trans (by rw [hu]; rfl), hleft.ring,
    hleft.waiting, hleft.tokens, hleft.noRecovery, hleft.recovery,
    fun m rest hm hrest => List.mem_append_left b (hleft.passed m rest hm hrest), hleft.waits,
    fun h => (hleft.free h).trans (by rw [hu]; rfl), fun e he => ?_, fun h => List.mem_append_right _ (hreleased h), fun g hg => ?_⟩
  · obtain ⟨e', he', heq, hin, hno, -⟩ := hkept e he
    rw [hjc] at he'
    exact ⟨e', he', heq, hin, hno⟩
  · rcases List.mem_append.1 hg with hg | hg
    · rcases hposts.or_old hg with h | h | h
      · exact Or.inl h
      · exact h.elim
      · exact h.elim
    · obtain ⟨hl, heq⟩ := honly _ hg
      cases heq
      exact Or.inr ⟨hl, rfl⟩

theorem abortReady_ready (n : Nat) (cause : AbortCause) (s : State) : AbortReady n cause s (abortReady n cause s) :=
  abortReady_of (abandonRow_abandoned n _) (abandonRow_posts n _) rfl

/-- The journal after the abort's record, by whether it takes records and has room. -/
theorem abortReady_open {n : Nat} {cause : AbortCause} {s t : State} (h : AbortReady n cause s t) (ho : s.journalOpen) :
    t.journalOpen := by
  obtain ⟨d, m, p, lanes, order, a, room, hform⟩ := h.form
  obtain ⟨hw, hr, he, hn, hs⟩ := ho
  have hempty : t.jc.roomWait = [] := List.eq_nil_iff_forall_not_mem.2 fun e hm => by
    obtain ⟨e', he', -⟩ := h.room e hm
    rw [he] at he'
    exact absurd he' List.not_mem_nil
  refine ⟨?_, ?_, hempty, ?_, hs.imp (fun h => ?_) fun h => (headSpent_eq ?_ ?_ ?_).trans h⟩ <;> rw [hform]
  · exact hw
  · exact hr
  · exact hn
  · exact h

/-! ## An abandoned claim (R76) -/

section
variable {q : Place} {s : State}

/-- A target that no grant names, given up and then left by its lane: its slot is FREE. -/
theorem releaseSlot_left (hs : (s.slot q).state = .draining) (hr : (s.slot q).refs = 0) :
    (s.releaseSlot q).slot q = Slot.free
      ∧ (s.releaseSlot q).set q.set = { s.set q.set with freeCount := (s.set q.set).freeCount + 1 } :=
  (writeSlot_drained (by rw [hs]; nofun) (by rw [hs]; nofun)).1 ⟨hs, hr, rfl⟩

theorem releaseSlot_free (hs : s.slot q = Slot.free) :
    (s.releaseSlot q).slot q = Slot.free ∧ (s.releaseSlot q).set q.set = s.set q.set := by
  have hdrained : ({ s.slot q with lane := none } : Slot).drained = Slot.free := by
    rw [hs]
    exact drained_kept fun h => nomatch (h.1 : SlotState.free = .draining)
  rw [State.releaseSlot, hdrained]
  exact ⟨writeSlot_slot_same _ s rfl, writeSlot_set_kept (by rw [hs]) _⟩

/-- A home left by a lane keeps the sets and the other slots. -/
theorem releaseSlot_home_kept (h : (s.slot q).state = .home) :
    (s.releaseSlot q).slot q = { s.slot q with lane := none }
      ∧ (∀ q', slotKey q' ≠ slotKey q → (s.releaseSlot q).slot q' = s.slot q') ∧ ∀ k, (s.releaseSlot q).set k = s.set k := by
  refine ⟨?_, fun q' hq => writeSlot_slot_other _ s hq, fun k => ?_⟩ <;> rw [releaseSlot_home h]
  · exact tableRead_tableWrite_same Slot.free s.pm.slots (slotKey q) _
  · rfl

end

/-- A claim's slots given up: the target is left, then both lane holds are cleared. -/
def leaveClaim (home place : Place) (s : State) : State := (State.releaseSlot home (s.leavePlace place)).releaseSlot place

theorem leaveClaim_slots {home place : Place} {s : State} (hkey : slotKey place ≠ slotKey home)
    (ht : (s.slot place).state = .target) (hr : (s.slot place).refs = 0) (hh : (s.slot home).state = .home) :
    (leaveClaim home place s).slot place = Slot.free
      ∧ (leaveClaim home place s).slot home = { s.slot home with lane := none }
      ∧ (leaveClaim home place s).set place.set
          = { s.set place.set with freeCount := (s.set place.set).freeCount + 1 } := by
  have hleft := writeSlot_drained (q := place) (v := { s.slot place with state := .draining }) (s := s) (by rw [ht]; nofun) nofun
  have hhome : (s.leavePlace place).slot home = s.slot home := writeSlot_slot_other _ s hkey.symm
  obtain ⟨hslot, hothers, hsets⟩ := releaseSlot_home_kept (s := s.leavePlace place) (q := home) (by rw [hhome, hh])
  have hcleared : (leaveClaim home place s).slot home = { s.slot home with lane := none } := by
    rw [← hhome, ← hslot]
    exact writeSlot_slot_other _ _ hkey.symm
  by_cases hl : (s.slot place).lane = none
  · obtain ⟨hfree, hset⟩ := hleft.1 ⟨rfl, hr, hl⟩
    obtain ⟨hfree', hset'⟩ := releaseSlot_free (s := State.releaseSlot home (s.leavePlace place)) (q := place)
      ((hothers place hkey).trans hfree)
    exact ⟨hfree', hcleared, hset'.trans ((hsets _).trans hset)⟩
  · obtain ⟨hkept, hset⟩ := hleft.2 fun h => hl h.2.2
    have hstill : (State.releaseSlot home (s.leavePlace place)).slot place = { s.slot place with state := .draining } :=
      (hothers place hkey).trans hkept
    obtain ⟨hfree', hset'⟩ := releaseSlot_left (s := State.releaseSlot home (s.leavePlace place)) (q := place)
      (by rw [hstill]) (by rw [hstill]; exact hr)
    refine ⟨hfree', hcleared, hset'.trans ?_⟩
    rw [hsets, show (s.leavePlace place).set place.set = s.set place.set from hset]

/-- Giving up a claim changes slots and sets alone. -/
theorem leaveClaim_form (home place : Place) (s : State) :
    ∃ slots sets, leaveClaim home place s = { s with pm := { s.pm with slots := slots, sets := sets } } := by
  obtain ⟨_, _, h⟩ := writeSlot_slots_sets place { s.slot place with state := .draining }.drained s
  obtain ⟨_, _, h'⟩ := writeSlot_slots_sets home { (s.leavePlace place).slot home with lane := none }.drained (s.leavePlace place)
  obtain ⟨slots, sets, h''⟩ := writeSlot_slots_sets place
    { (State.releaseSlot home (s.leavePlace place)).slot place with lane := none }.drained (State.releaseSlot home (s.leavePlace place))
  refine ⟨slots, sets, h''.trans ?_⟩
  rw [State.releaseSlot, h', State.leavePlace, h]

theorem writeSlot_setLane (p : Place) (v : Slot) (n : Nat) (l : Lane) (s : State) :
    (s.setLane n l).writeSlot p v = (s.writeSlot p v).setLane n l := by
  have hslot : (s.setLane n l).slot p = s.slot p := rfl
  unfold State.writeSlot
  dsimp only
  rw [hslot]
  split
  · rfl
  · split <;> rfl

/-- An abandoned claim of a lane without pages, with a cause: its slots are given up, the lane is IDLE, the job is removed. -/
theorem abandonClaim_removes {u : State} {n : Nat} {cause : AbortCause} {j : Job} {place : Place} (hj : (u.lane n).job = some j)
    (ht : (u.lane n).target = some place) (hp : (u.lane n).pages = []) :
    abandonClaim n (some cause) u = removeJob j cause
      ((leaveClaim (u.slab j.slab).home place (dropWorks n (fun _ => true) u)).setLane n Lane.idle) := by
  have hslab : (u.lane n).slab = j.slab := by rw [Lane.slab, hj]; rfl
  let w := dropWorks n (fun _ => true) u
  have hlane : ((w.leavePlace place).lane n).pages = [] := by
    obtain ⟨slots, sets, h⟩ := writeSlot_slots_sets place { w.slot place with state := .draining }.drained w
    rw [State.leavePlace, h]
    exact hp
  have hidle : laneToIdle n [(u.slab j.slab).home, place] (w.leavePlace place)
      = (leaveClaim (u.slab j.slab).home place w).setLane n Lane.idle := by
    rw [laneToIdle_emptied _ hlane]
    exact (congrArg (State.releaseSlot place) (writeSlot_setLane _ _ n Lane.idle _)).trans (writeSlot_setLane _ _ n Lane.idle _)
  unfold abandonClaim
  dsimp only
  rw [hj, ht]
  refine congrArg (removeJob j cause) (Eq.trans ?_ hidle)
  rw [State.heldPlaces, State.homePlace, hslab, ht]

theorem removeJob_eq (j : Job) (cause : AbortCause) (s : State) :
    removeJob j cause s = State.offerNotice (.jobAborted (s.slab j.slab).volume (s.volumeSlab j.slab) j.slab j.kind cause 0)
      { s with
        pm := { s.pm with slabs := tableWrite Slab.unused s.pm.slabs j.slab { s.slab j.slab with mark := false } },
        me := { s.me with counters := { s.me.counters with jobsRemoved := bump s.me.counters.jobsRemoved } } } := by
  let t : State := { s with
    pm := { s.pm with slabs := tableWrite Slab.unused s.pm.slabs j.slab { s.slab j.slab with mark := false } },
    me := { s.me with counters := { s.me.counters with jobsRemoved := bump s.me.counters.jobsRemoved } } }
  have hslab : t.slab j.slab = { s.slab j.slab with mark := false } := tableRead_tableWrite_same Slab.unused s.pm.slabs j.slab _
  have hoffer : removeJob j cause s = t.offerNotice (.jobAborted (t.slab j.slab).volume
    (j.slab - (t.volume (t.slab j.slab).volume).base) j.slab j.kind cause 0) := rfl
  rw [hoffer, hslab]
  rfl

theorem abandonedClaim {u : State} {n : Nat} {cause : AbortCause} {j : Job} {place : Place} (hj : (u.lane n).job = some j)
    (ht : (u.lane n).target = some place) (hp : (u.lane n).pages = [])
    (hkey : slotKey place ≠ slotKey (u.slab j.slab).home) (hstate : (u.slot place).state = .target)
    (hrefs : (u.slot place).refs = 0) (hhome : (u.slot (u.slab j.slab).home).state = .home) :
    let home := (u.slab j.slab).home
    let told := abandonClaim n (some cause) u
    told.lane n = Lane.idle ∧ told.slot place = Slot.free ∧ told.slot home = { u.slot home with lane := none }
      ∧ told.set place.set = { u.set place.set with freeCount := (u.set place.set).freeCount + 1 }
      ∧ told.me.jobs = u.me.jobs ∧ told.slab j.slab = { u.slab j.slab with mark := false }
      ∧ told.mp = (u.offerNotice (.jobAborted (u.slab j.slab).volume
          (j.slab - (u.volume (u.slab j.slab).volume).base) j.slab j.kind cause 0)).mp := by
  intro home told
  obtain ⟨room, hroom, -⟩ := dropWorks_form n (fun _ => true) u
  have htold : told = removeJob j cause ((leaveClaim home place (dropWorks n (fun _ => true) u)).setLane n Lane.idle) :=
    abandonClaim_removes hj ht hp
  rw [hroom] at htold
  obtain ⟨hfree, hcleared, hset⟩ := leaveClaim_slots (s := { u with jc := { u.jc with roomWait := room } }) hkey hstate hrefs hhome
  obtain ⟨slots, sets, hform⟩ := leaveClaim_form home place { u with jc := { u.jc with roomWait := room } }
  rw [hform] at htold hfree hcleared hset
  have heq := htold.trans ((removeJob_eq j cause _).trans (offerNotice_of_mp (s := u) _ (by rfl)))
  rw [heq]
  exact ⟨lane_setLane_same n Lane.idle u, hfree, hcleared, hset, rfl,
    tableRead_tableWrite_same Slab.unused u.pm.slabs j.slab _, rfl⟩

/-! ## A cause reaches a lane (R84) -/

section
variable {u : State} {n : Nat} {cause : AbortCause}

theorem takeCause_refused (h : (u.lane n).state = .idle ∨ (u.lane n).state = .finishing ∨ (u.lane n).state = .aborting) :
    takeCause n cause u = u := by
  unfold takeCause
  rcases h with h | h | h <;> simp only [h]

theorem takeCause_claiming (h : (u.lane n).state = .claiming) :
    takeCause n cause u = if (u.lane n).cause.isSome then u
      else if (u.lane n).beginQueued then u.setLane n { u.lane n with cause := some cause }
      else abandonClaim n (some cause) u := by
  conv =>
    lhs
    unfold takeCause
    simp only [h]
  rfl

theorem takeCause_aborts (hi : (u.lane n).state ≠ .idle) (hf : (u.lane n).state ≠ .finishing)
    (ha : (u.lane n).state ≠ .aborting) (hc : (u.lane n).state ≠ .claiming) : takeCause n cause u = abortLane n cause u := by
  unfold takeCause
  dsimp only
  split
  case h_1 h => exact absurd h hc
  case h_2 h => exact absurd h hi
  case h_3 h => exact absurd h hf
  case h_4 h => exact absurd h ha
  all_goals rfl

theorem takesCause_iff (l : Lane) : l.takesCause = true ↔
    ¬(l.state = .finishing ∨ l.state = .aborting ∨ (l.state = .claiming ∧ l.cause ≠ none)) ∧ l.state ≠ .idle := by
  unfold Lane.takesCause
  split
  case h_1 h => simp [h]
  case h_2 h => simp [h]
  case h_3 h => simp [h]
  case h_4 h => simp [h]
  case h_5 hc hi hf ha => exact iff_of_true rfl ⟨fun h => h.elim hf fun h => h.elim ha fun h => hc h.1, hi⟩

/-- The abort of a lane: what it leaves of the lane, the pools and the journal (R66, R85, R111). -/
theorem abortedLane_of {t : State} (ht : AbortReady n cause u t) :
    let l := u.lane n
    let told := queueRecord (.lane n) (.jobAbort l.slab) t
    told.lane n = l.aborted cause
      ∧ (tableWf (RingEntry.free 0) u.dp.ring = true → told.entriesWhere (fun c => decide (c.owner = .lane n)) = [])
      ∧ (∀ c ∈ told.dp.waiting, c.owner ≠ .lane n) ∧ n ∉ told.me.tokenOrder
      ∧ n ∉ told.sp.recoveryWait
      ∧ (u.sp.holder ≠ some n → told.sp.holder = u.sp.holder
          ∧ told.sp.recoveryWait = u.sp.recoveryWait.filter (fun k => k ≠ n))
      ∧ (u.sp.holder = some n → u.sp.recoveryWait = [] → told.sp.holder = none ∧ told.sp.recoveryWait = [])
      ∧ (∀ m rest, u.sp.holder = some n → u.sp.recoveryWait = m :: rest → told.sp.holder = some m
          ∧ told.sp.recoveryWait = rest.filter (fun k => k ≠ n) ∧ .recoveryGranted m ∈ told.agenda)
      ∧ (n ∉ u.sp.recoveryWait → told.sp.holder ≠ some n)
      ∧ (l.lockout = true → .reevaluate l.slab ∈ told.agenda)
      ∧ (∀ g, .reevaluate g ∈ told.agenda → .reevaluate g ∈ u.agenda ∨ (l.lockout = true ∧ g = l.slab))
      ∧ (∀ e ∈ told.jc.roomWait, e.1 = .lane n → ∀ w ∈ e.2, ∀ g value, w.body ≠ .front g value)
      ∧ (u.jc.active = true → u.jc.hasRoom = false → told.jc.queue = u.jc.queue
          ∧ ∃ e ∈ told.jc.roomWait, e.1 = .lane n ∧ ⟨.jobAbort l.slab, none⟩ ∈ e.2)
      ∧ (u.jc.active = false → told.jc.queue = u.jc.queue
          ∧ ∀ e ∈ told.jc.roomWait, ∃ e' ∈ u.jc.roomWait, e.1 = e'.1 ∧ ∀ w ∈ e.2, w ∈ e'.2)
      ∧ (∀ e ∈ told.sp.waiting, e.1 ≠ n)
      ∧ (u.sp.waiting = [] → told.sp.free = l.pages.foldr insertRising u.sp.free)
      ∧ told.me.jobs = u.me.jobs ∧ told.pm = u.pm ∧ told.gu = u.gu ∧ told.part = u.part
      ∧ (u.journalOpen → told.jc.queue = u.jc.queue ++ [⟨u.jc.nextSeq, .jobAbort l.slab, .lane n, none⟩]
          ∧ told.jc.nextSeq = u.jc.nextSeq + 1) := by
  intro l told
  obtain ⟨d, m, p, lanes, order, a, room, hform⟩ := ht.form
  have hjc : t.jc = { u.jc with roomWait := room } := congrArg State.jc hform
  have htold : told = queueRecord (.lane n) (.jobAbort l.slab) t := rfl
  obtain ⟨m', j', a', honly⟩ := JournalOnly.queueRecord (.lane n) (.jobAbort l.slab) t
  obtain ⟨hroom, hposts⟩ := queueRecord_room (.lane n) (.jobAbort l.slab) t
  have hdp : told.dp = t.dp := by rw [htold, honly]
  have hsp : told.sp = t.sp := by rw [htold, honly]
  have hme : told.me = t.me := by rw [htold, honly]
  have hpm : told.pm = u.pm := by
    rw [htold, honly]
    exact (congrArg State.pm hform :)
  have hgu : told.gu = u.gu := by
    rw [htold, honly]
    exact (congrArg State.gu hform :)
  have hpart : told.part = u.part := by
    rw [htold, honly]
    exact (congrArg State.part hform :)
  have hjobs : t.me.jobs = u.me.jobs := (congrArg (fun s : State => s.me.jobs) hform :)
  have hqueue : t.jc.queue = u.jc.queue := by rw [hjc]
  have hlane : told.lane n = t.lane n := by rw [State.lane, State.lane, hme]
  have hentries : told.entriesWhere (ofLane n) = t.entriesWhere (ofLane n) := by rw [State.entriesWhere, State.entriesWhere, hdp]
  obtain ⟨hother, hlast, hnext⟩ := ht.recovery
  rw [hlane, hdp, hme, hsp]
  refine ⟨ht.lane, fun h => hentries.trans (ht.ring h), ht.waiting, ht.tokens, ht.noRecovery, hother, hlast,
    fun m rest h h' => ?_, fun h => ?_, fun h => hposts.keeps (ht.released h), fun g hg => ?_, fun e he hn w hw g value hfront => ?_,
    fun hactive hfull => ?_, fun hinactive => ?_, ht.waits, ht.free, hjobs, hpm, hgu, hpart, fun hopen => ?_⟩
  · obtain ⟨hm, hw⟩ := hnext m rest h h'
    exact ⟨hm, hw, hposts.keeps (ht.passed m rest h h')⟩
  · by_cases hh : u.sp.holder = some n
    · cases hwait : u.sp.recoveryWait with
      | nil =>
        obtain ⟨hnone, -⟩ := hlast hh hwait
        rw [hnone]
        nofun
      | cons m rest =>
        obtain ⟨hm, -⟩ := hnext m rest hh hwait
        rw [hm]
        rintro ⟨⟩
        exact h (by rw [hwait]; exact List.mem_cons_self)
    · rw [(hother hh).1]
      exact hh
  · exact (hposts.or_old hg).elim (ht.evaluated g) fun h => h.elim
  · have hno : w.isFront = false := by
      rcases hroom e he w hw with ⟨-, rfl⟩ | ⟨e', he', heq, hw'⟩
      · rfl
      · obtain ⟨-, -, -, -, hdropped⟩ := ht.room e' he'
        exact hdropped (heq ▸ hn) w hw'
    rw [Work.isFront, hfront] at hno
    cases hno
  · have hwaits : told = t.onJc (fun j => { j with roomWait := waitFurther (.lane n) ⟨.jobAbort l.slab, none⟩ j.roomWait }) :=
      queueWork_waits (by rw [hjc]; exact hactive) (by rw [hjc]; exact hfull)
    rw [hwaits]
    exact ⟨hqueue, waitFurther_has _ _ _⟩
  · have hsame : told = t := queueRecord_inactive (by rw [hjc]; exact hinactive)
    rw [hsame]
    refine ⟨hqueue, fun e he => ?_⟩
    obtain ⟨e', he', heq, hin, -⟩ := ht.room e he
    exact ⟨e', he', heq, hin⟩
  · have hrecord : told = _ := queueRecord_open (abortReady_open ht hopen)
    obtain ⟨op, hop, -⟩ := started_form t.now
      { t.jc with queue := t.jc.queue ++ [⟨t.jc.nextSeq, .jobAbort l.slab, .lane n, none⟩], nextSeq := t.jc.nextSeq + 1 }
    have hjournal : told.jc = { t.jc with
        queue := t.jc.queue ++ [⟨t.jc.nextSeq, .jobAbort l.slab, .lane n, none⟩], nextSeq := t.jc.nextSeq + 1, op := op } := by
      rw [hrecord]
      exact hop
    rw [hjournal, hjc]
    exact ⟨rfl, rfl⟩

end

/-! ## CANCEL_JOB (R92) -/

theorem serveCancelJob_refuses (s : State) (tag : ReqTag) (p : List Byte) :
    let v := byteAt p 0
    let e := s.volume v
    let k := fieldAt p 2 2
    (4 ≤ v → serveCancelJob tag p s = s.refuse tag .badField)
      ∧ (v < 4 → e.state ≠ .online → serveCancelJob tag p s = s.refuse tag .wrongState)
      ∧ (v < 4 → e.state = .online → e.count ≤ k → serveCancelJob tag p s = s.refuse tag .outOfRange)
      ∧ (v < 4 → e.state = .online → k < e.count → (s.slab (e.base + k)).mark = false →
          serveCancelJob tag p s = s.refuse tag .notFound)
      ∧ (v < 4 → e.state = .online → k < e.count → (s.slab (e.base + k)).mark = true →
          serveCancelJob tag p s = cancelSlab tag (e.base + k) s) := by
  intro v e k
  have hserve : serveCancelJob tag p s = if 4 ≤ v then s.refuse tag .badField
      else if e.state ≠ .online then s.refuse tag .wrongState
      else if e.count ≤ k then s.refuse tag .outOfRange
      else if (s.slab (e.base + k)).mark = false then s.refuse tag .notFound
      else cancelSlab tag (e.base + k) s := rfl
  rw [hserve]
  refine ⟨fun h => if_pos h, fun h h' => ?_, fun h h' hk => ?_, fun h h' hk hm => ?_, fun h h' hk hm => ?_⟩ <;>
    rw [if_neg (Nat.not_le.2 h)]
  · exact if_pos h'
  · rw [if_neg (Classical.not_not.2 h'), if_pos hk]
  · rw [if_neg (Classical.not_not.2 h'), if_neg (Nat.not_le.2 hk), if_pos hm]
  · rw [if_neg (Classical.not_not.2 h'), if_neg (Nat.not_le.2 hk), if_neg (by rw [hm]; exact Bool.noConfusion)]

theorem cancelSlab_waiting {s : State} {tag : ReqTag} {g : Nat} {j : Job} (h : s.me.jobs.find? (fun j => j.slab = g) = some j) :
    cancelSlab tag g s = if j.kind = .fill then s.refuse tag .wrongState else cancelWaiting tag j s := by
  rw [cancelSlab, h]

theorem cancelSlab_unknown {s : State} {tag : ReqTag} {g : Nat} (h : s.me.jobs.find? (fun j => j.slab = g) = none)
    (hl : s.laneOf g = none) : cancelSlab tag g s = s.refuse tag .notFound := by
  rw [cancelSlab, h, hl]

theorem cancelSlab_lane {s : State} {tag : ReqTag} {g n : Nat} (h : s.me.jobs.find? (fun j => j.slab = g) = none)
    (hl : s.laneOf g = some n) :
    cancelSlab tag g s = if (s.lane n).moves then cancelInLane tag n s else s.refuse tag .wrongState := by
  rw [cancelSlab, h, hl]

theorem find_slab {l : List Job} {g : Nat} {j : Job} (h : l.find? (fun j => j.slab = g) = some j) : j.slab = g :=
  of_decide_eq_true (List.find?_some (p := fun j : Job => decide (j.slab = g)) h)

theorem moves_of {l : Lane} {j : Job} (hj : l.job = some j) (hk : j.kind = .move) : l.moves = true := by
  rw [Lane.moves, hj]
  exact decide_eq_true (congrArg some hk)

theorem not_moves_of {l : Lane} {j : Job} (hj : l.job = some j) (hk : j.kind = .fill) : l.moves = false := by
  rw [Lane.moves, hj]
  exact decide_eq_false fun h => nomatch hk.symm.trans (Option.some.inj h)

/-- A state without a waiting job and with every lane IDLE. -/
theorem jobsIdle_iff (s : State) : s.jobsIdle = true ↔ s.me.jobs = [] ∧ ∀ n < 4, (s.lane n).state = .idle := by
  rw [State.jobsIdle, Bool.and_eq_true, List.isEmpty_iff, List.all_eq_true]
  refine and_congr Iff.rfl ⟨fun h n hn => of_decide_eq_true (h n (List.mem_range.2 hn)),
    fun h n hn => decide_eq_true (h n (List.mem_range.1 hn))⟩

/-- A waiting MOVE job without a retained target leaves the list (R92, R94). -/
theorem cancelWaiting_leaves {s : State} {tag : ReqTag} {j : Job} (hs : s.quiet) (hw : s.me.jobs ≠ []) (hr : j.retained = none) :
    let t : State := State.answer tag .ok .empty
      { s with
        me := { s.me with jobs := removeFirst j s.me.jobs },
        pm := { s.pm with slabs := tableWrite Slab.unused s.pm.slabs j.slab { s.slab j.slab with mark := false } } }
    let ends : Prop := removeFirst j s.me.jobs = [] ∧ ∀ n < 4, (s.lane n).state = .idle
    (ends → conclude s (cancelWaiting tag j s) = .next (t.offerNotice .jobsIdle))
      ∧ (¬ends → conclude s (cancelWaiting tag j s) = .next t) := by
  intro t ends
  have hwaiting : cancelWaiting tag j s = t := if_pos (by rw [hr]; rfl)
  obtain ⟨m, hm⟩ := answer_eq tag .ok .empty { s with
    me := { s.me with jobs := removeFirst j s.me.jobs },
    pm := { s.pm with slabs := tableWrite Slab.unused s.pm.slabs j.slab { s.slab j.slab with mark := false } } }
  have ht : t = _ := hm
  have hfinish : finish s t = offerIdle s t := finish_idle (by rw [ht]; exact hs) (by rw [ht]) (by rw [ht])
  have hbefore : s.jobsIdle = false := jobsIdle_of_jobs hw
  have hafter : t.jobsIdle = true ↔ ends := by
    rw [jobsIdle_iff, ht]
    rfl
  have hconclude : conclude s (cancelWaiting tag j s) = .next (if t.jobsIdle then t.offerNotice .jobsIdle else t) := by
    rw [conclude, hwaiting, hfinish, offerIdle, hbefore, Bool.not_false, Bool.and_true]
  rw [hconclude]
  exact ⟨fun h => by rw [if_pos (hafter.2 h)], fun h => by rw [if_neg (mt hafter.1 h)]⟩

/-- Settles O41: the request stage by stage; then what the cause does to the lane, by the state in which it reaches it. -/
theorem jobCancelled : Obligations.JobCancelled := by
  refine ⟨fun s tag p hserves => ?_, fun u n cause => ?_⟩
  · intro v e k g refused
    have hs : s.quiet := hserves.1
    have hexec : exec (.cancelJob tag) s = conclude s (serveCancelJob tag p s) := takeRequest_serves hserves
    have hrefused (r : Result) (h : serveCancelJob tag p s = s.refuse tag r) : refused r := by
      refine hexec.trans ?_
      rw [h]
      exact congrArg Host.Outcome.next (finish_refuse hs tag r)
    obtain ⟨hform, hstate, hrange, hmark, hserve⟩ := serveCancelJob_refuses s tag p
    refine ⟨fun h => hrefused _ (hform h), fun h h' => hrefused _ (hstate h h'), fun h h' hk => hrefused _ (hrange h h' hk),
      fun h h' hk hm => hrefused _ (hmark h h' hk hm), fun h h' hk hm j hj => ?_, fun h h' hk hm hno => ?_⟩
    · have hslab : j.slab = g := find_slab hj
      have hcancel := (hserve h h' hk hm).trans (cancelSlab_waiting (g := g) hj)
      have hmove (hkind : j.kind = .move) : serveCancelJob tag p s = cancelWaiting tag j s :=
        hcancel.trans (if_neg (by rw [hkind]; nofun))
      refine ⟨fun hkind => hrefused _ (hcancel.trans (if_pos hkind)), fun hkind hr => ?_, fun hkind hr hcause => ?_,
        fun hkind hr hcause => ?_⟩
      · have hleaves := cancelWaiting_leaves (tag := tag) hs (fun hnil => by rw [hnil] at hj; cases hj) hr
        rw [hslab, ← hmove hkind, ← hexec] at hleaves
        exact hleaves
      · refine hrefused _ ((hmove hkind).trans ?_)
        rw [cancelWaiting, if_neg (by rw [Option.isNone_iff_eq_none]; exact hr), if_pos (Option.isSome_iff_ne_none.2 hcause)]
      · have hmarked : serveCancelJob tag p s = State.answer tag .ok .empty (s.markJob g .cancelled) := by
          rw [hmove hkind, cancelWaiting, if_neg (by rw [Option.isNone_iff_eq_none]; exact hr), hcause,
            if_neg (by exact Bool.false_ne_true), hslab]
        obtain ⟨m, hm⟩ := answer_eq tag .ok .empty (s.markJob g .cancelled)
        have hmp := congrArg State.mp (answer_of_mp (s := s) (t := s.markJob g .cancelled) tag .ok .empty rfl)
        refine ⟨State.answer tag .ok .empty (s.markJob g .cancelled), hexec.trans ?_, ?_, ?_, hmp⟩
        · rw [hmarked]
          refine next_finish rfl ?_ ?_ ?_ ?_ <;> rw [hm]
          · exact hs
          · rfl
          · rfl
          · have hjobs : s.me.jobs ≠ [] := fun hnil => by rw [hnil] at hj; cases hj
            rw [jobsIdle_of_jobs hjobs]
            exact jobsIdle_of_jobs (mt List.map_eq_nil_iff.1 hjobs)
        · rw [hm]
          exact List.map_congr_left fun i _ => rfl
        · rw [hm]
          rfl
    · have hnone : s.me.jobs.find? (fun j => j.slab = g) = none :=
        List.find?_eq_none.2 fun j hj => by simpa using hno j hj
      refine ⟨fun hl => hrefused _ ((hserve h h' hk hm).trans (cancelSlab_unknown hnone hl)), fun n j hl hj => ?_⟩
      intro l ends
      have hlane := (hserve h h' hk hm).trans (cancelSlab_lane (g := g) hnone hl)
      have hmove (hkind : j.kind = .move) : serveCancelJob tag p s
          = if l.takesCause then takeCause n .cancelled (s.answer tag .ok .empty) else s.refuse tag .wrongState :=
        hlane.trans (if_pos (moves_of hj hkind))
      refine ⟨fun hkind => hrefused _ (hlane.trans (if_neg (by rw [not_moves_of hj hkind]; exact Bool.false_ne_true))),
        fun hkind hends => hrefused _ ((hmove hkind).trans (if_neg fun ht => ((takesCause_iff l).1 ht).1 hends)),
        fun hkind hends hidle => ?_, fun hkind hstate hcause hqueued => ?_⟩
      · refine hexec.trans (congrArg (conclude s) ((hmove hkind).trans (if_pos ((takesCause_iff l).2 ⟨hends, hidle⟩))))
      · have htakes : l.takesCause = true := (takesCause_iff l).2 ⟨fun hends => by
          rcases hends with h | h | ⟨-, h⟩
          · exact nomatch hstate.symm.trans h
          · exact nomatch hstate.symm.trans h
          · exact h hcause, by rw [hstate]; nofun⟩
        obtain ⟨m, hm⟩ := answer_eq tag .ok .empty s
        have hkept : takeCause n .cancelled (s.answer tag .ok .empty)
            = State.answer tag .ok .empty (s.setLane n { l with cause := some .cancelled }) := by
          rw [answer_of_mp (s := s) (t := s.setLane n { l with cause := some .cancelled }) tag .ok .empty rfl, hm,
            takeCause_claiming (u := { s with mp := m }) (n := n) hstate, if_neg (by
              rw [show (State.lane { s with mp := m } n).cause = none from hcause]; exact Bool.false_ne_true)]
          exact if_pos hqueued
        refine hexec.trans ((congrArg (conclude s) ((hmove hkind).trans ((if_pos htakes).trans hkept))).trans ?_)
        obtain ⟨m', hm'⟩ := answer_eq tag .ok .empty (s.setLane n { l with cause := some .cancelled })
        rw [hm']
        refine next_finish rfl hs rfl rfl ?_
        have hset : (s.setLane n { l with cause := some .cancelled }).lane n = { l with cause := some .cancelled } :=
          lane_setLane_same n _ s
        refine jobsIdle_of_lane (s := s) (t := { s.setLane n { l with cause := some .cancelled } with mp := m' }) (n := n) rfl
          (fun m hm => lane_setLane_other _ s hm) (fun h => ?_) (by rw [hstate]; nofun)
        exact nomatch hstate.symm.trans ((congrArg Lane.state hset).symm.trans h)
  · intro l told given
    refine ⟨takeCause_refused, fun hc hcause => ?_, fun hc hcause hq => ?_, fun j place hc hcause hq hj ht hp => ?_,
      fun hi hf ha hc => ?_⟩
    · exact (takeCause_claiming hc).trans (if_pos (Option.isSome_iff_ne_none.2 hcause))
    · exact (takeCause_claiming hc).trans ((if_neg (by rw [hcause]; exact Bool.false_ne_true)).trans (if_pos hq))
    · have hclaim : told = abandonClaim n (some cause) u := (takeCause_claiming hc).trans
        ((if_neg (by rw [hcause]; exact Bool.false_ne_true)).trans (if_neg (by rw [hq]; exact Bool.false_ne_true)))
      intro home hkey hstate hrefs hhome
      rw [hclaim]
      exact abandonedClaim hj ht hp hkey hstate hrefs hhome
    · have habort : told = abortLane n cause u := takeCause_aborts hi hf ha hc
      rw [habort]
      exact abortedLane_of (abortReady_ready n cause u)

end Sys2Proof.Machine
end

section
/-! PROOFS. The management bus: a transaction that ends without a good answer, and the loss of a shelf (R138, R143, R145). -/

namespace Sys2Proof.Machine

/-! ## The next poll (R139) -/

/-- The bus once a transaction has ended: the next address is polled, or the round has ended. -/
def ShelfMonitor.goesOn (address now : Nat) (m : ShelfMonitor) : ShelfMonitor :=
  if address < 15 then
    { m with transaction := some (address + 1, now), abandoned := false,
             counters := { m.counters with polls := min (m.counters.polls + 1) 4294967295 } }
  else { m with transaction := none }

theorem nextPoll_eq (address : Nat) (s : State) :
    nextPoll address s = { s with sm := s.sm.goesOn address s.clock.now } := by
  unfold nextPoll ShelfMonitor.goesOn
  by_cases h : address < 15
  · rw [if_pos (show address + 1 < Config.shelfCount from Nat.succ_lt_succ h), if_pos h]
    rfl
  · rw [if_neg (show ¬address + 1 < Config.shelfCount from fun h' => h (Nat.lt_of_succ_lt_succ h')), if_neg h]
    rfl

/-! ## BAY_CHANGE (R142, R143, R145) -/

/-- A bay change counted and noticed. -/
def State.bayNoticed (s : State) (id : Nat) (old new : Bay) : State :=
  State.offerNotice (.bayChange id old new)
    { s with sm := { s.sm with counters := { s.sm.counters with
      bayChanges := min (s.sm.counters.bayChanges + 1) 4294967295 } } }

theorem offerBayChange_eq (id : Nat) (old new : Bay) (s : State) : offerBayChange id old new s = s.bayNoticed id old new := rfl

theorem bayNoticed_form (s : State) (id : Nat) (old new : Bay) :
    s.bayNoticed id old new = { s with
      mp := (s.offerNotice (.bayChange id old new)).mp,
      sm := { s.sm with counters := { s.sm.counters with
        bayChanges := min (s.sm.counters.bayChanges + 1) 4294967295 } } } := offerNotice_of_mp (s := s) _ rfl

theorem bayNoticed_agenda (s : State) (a : List Internal) (id : Nat) (old new : Bay) :
    State.bayNoticed { s with agenda := a } id old new = { s.bayNoticed id old new with agenda := a } := by
  rw [bayNoticed_form s]
  exact offerNotice_of_mp (s := s) _ rfl

/-- A list of bays of a shelf, each counted and noticed as cleared. -/
def baysCleared (address : Nat) (held : List Bay) (l : List Nat) (s : State) : State :=
  l.foldl (fun t i => t.bayNoticed (16 * address + i) (held.getD i Bay.cleared) Bay.cleared) s

theorem baysCleared_form (address : Nat) (held : List Bay) (l : List Nat) (s : State) :
    ∃ m c, baysCleared address held l s = { s with mp := m, sm := { s.sm with counters := c } } := by
  induction l generalizing s with
  | nil => exact ⟨s.mp, s.sm.counters, rfl⟩
  | cons i rest ih =>
    obtain ⟨m, c, h⟩ := ih (s.bayNoticed (16 * address + i) (held.getD i Bay.cleared) Bay.cleared)
    refine ⟨m, c, h.trans ?_⟩
    rw [bayNoticed_form]

theorem baysCleared_agenda (address : Nat) (held : List Bay) (l : List Nat) (s : State) (a : List Internal) :
    baysCleared address held l { s with agenda := a } = { baysCleared address held l s with agenda := a } := by
  induction l generalizing s with
  | nil => rfl
  | cons i rest ih =>
    refine (congrArg (baysCleared address held rest)
      (bayNoticed_agenda s a (16 * address + i) (held.getD i Bay.cleared) Bay.cleared)).trans ?_
    exact ih _

/-- Whether a bay's record was not clear. -/
def bayHeld (held : List Bay) (i : Nat) : Bool := (held.getD i Bay.cleared).occupied || (held.getD i Bay.cleared).ready

theorem loseBay_eq (address : Nat) (held : List Bay) (i : Nat) (s : State) :
    loseBay address held i s = { baysCleared address held (if bayHeld held i then [i] else []) s with
      agenda := s.agenda ++ [.driveGone (16 * address + i)] } := by
  have hlose : loseBay address held i s = if bayHeld held i then
      (s.post (.driveGone (address * 16 + i))).bayNoticed (address * 16 + i) (held.getD i Bay.cleared) Bay.cleared
    else s.post (.driveGone (address * 16 + i)) := rfl
  rw [hlose, Nat.mul_comm address 16]
  by_cases h : bayHeld held i = true
  · rw [if_pos h, if_pos h]
    exact bayNoticed_agenda s _ _ _ _
  · rw [if_neg h, if_neg h]
    rfl

/-- The bays of a lost shelf: each reported gone, each that was not clear noticed. -/
theorem forEach_loseBay (address : Nat) (held : List Bay) (l : List Nat) (s : State) :
    forEach (loseBay address held) l s = { baysCleared address held (l.filter (bayHeld held)) s with
      agenda := s.agenda ++ l.map (fun i => .driveGone (16 * address + i)) } := by
  induction l generalizing s with
  | nil => exact (congrArg (fun a => { s with agenda := a }) (List.append_nil s.agenda)).symm
  | cons i rest ih =>
    have hfirst : baysCleared address held ((i :: rest).filter (bayHeld held)) s
        = baysCleared address held (rest.filter (bayHeld held))
            (baysCleared address held (if bayHeld held i then [i] else []) s) := by
      by_cases h : bayHeld held i = true
      · rw [List.filter_cons_of_pos h, if_pos h]
        rfl
      · rw [List.filter_cons_of_neg h, if_neg h]
        rfl
    rw [forEach, loseBay_eq, ih, baysCleared_agenda, hfirst, List.map_cons, List.append_assoc]
    rfl

/-! ## A miss (R143) -/

/-- The bus once a shelf is LOST. -/
def ShelfMonitor.lost (m : ShelfMonitor) (address : Nat) (e : Shelf) : ShelfMonitor :=
  { m with
    counters := { m.counters with shelvesLost := min (m.counters.shelvesLost + 1) 4294967295 },
    shelves := tableWrite Shelf.unseen m.shelves address
      { e with state := .lost, misses := 3, bays := List.replicate 16 Bay.cleared } }

/-- The notices of a lost shelf. -/
def State.shelfGone (s : State) (address : Nat) : State :=
  baysCleared address (s.shelf address).bays ((List.range 16).filter (bayHeld (s.shelf address).bays))
    (State.offerNotice (.shelfLost address ((s.shelf address).bays.filter Bay.present).length)
      { s with sm := s.sm.lost address (s.shelf address) })

theorem shelfGone_form (s : State) (address : Nat) :
    ∃ m c, s.shelfGone address = { s with mp := m, sm := { s.sm.lost address (s.shelf address) with counters := c } } := by
  obtain ⟨m, c, h⟩ := baysCleared_form address (s.shelf address).bays ((List.range 16).filter (bayHeld (s.shelf address).bays))
    (State.offerNotice (.shelfLost address ((s.shelf address).bays.filter Bay.present).length)
      { s with sm := s.sm.lost address (s.shelf address) })
  obtain ⟨m', hm'⟩ := offerNotice_eq (.shelfLost address ((s.shelf address).bays.filter Bay.present).length)
    { s with sm := s.sm.lost address (s.shelf address) }
  refine ⟨m, c, h.trans ?_⟩
  rw [hm']

theorem loseShelf_eq (address : Nat) (s : State) :
    loseShelf address s = { s.shelfGone address with
      agenda := s.agenda ++ (List.range 16).map (fun i => .driveGone (16 * address + i)) } := by
  have hlose : loseShelf address s = forEach (loseBay address (s.shelf address).bays) (List.range 16)
    (State.offerNotice (.shelfLost address ((s.shelf address).bays.filter Bay.present).length)
      { s with sm := s.sm.lost address (s.shelf address) }) := rfl
  obtain ⟨m', hm'⟩ := offerNotice_eq (.shelfLost address ((s.shelf address).bays.filter Bay.present).length)
    { s with sm := s.sm.lost address (s.shelf address) }
  have hagenda : (State.offerNotice (.shelfLost address ((s.shelf address).bays.filter Bay.present).length)
      { s with sm := s.sm.lost address (s.shelf address) }).agenda = s.agenda := by rw [hm']
  rw [hlose, forEach_loseBay, hagenda]
  rfl

theorem loseShelf_quiet {address : Nat} {s : State} (h : s.quiet) :
    loseShelf address s = { s.shelfGone address with
      agenda := (List.range 16).map (fun i => .driveGone (16 * address + i)) } :=
  (loseShelf_eq address s).trans (congrArg (fun a => { s.shelfGone address with
    agenda := a ++ (List.range 16).map (fun i => Internal.driveGone (16 * address + i)) }) h)

theorem takeMiss_down {s : State} {address : Nat} (h : (s.shelf address).state ≠ .up) : takeMiss address s = s := by
  unfold takeMiss
  dsimp only
  split
  · rfl
  · rfl
  · next hup => exact absurd hup h

theorem takeMiss_up {s : State} {address : Nat} (h : (s.shelf address).state = .up) :
    takeMiss address s = if 2 ≤ (s.shelf address).misses then loseShelf address s
      else s.setShelf address { s.shelf address with misses := (s.shelf address).misses + 1 } := by
  unfold takeMiss
  dsimp only
  rw [h]

theorem driveGone_absent {s : State} {id : Nat} (h : (s.member id).state = .absent ∨ (s.member id).state = .failed) :
    driveGone id s = s := by
  unfold driveGone
  dsimp only
  rcases h with h | h <;> rw [h]

/-- A transaction that ends with a miss: what follows, by the state of the shelf. -/
theorem endPoll_missed {s u : State} {address : Nat} {c : ShelfCounters} (hs : s.quiet)
    (hu : u = { s with sm := { s.sm with counters := c } }) :
    let done := conclude s (nextPoll address (takeMiss address u))
    ((s.shelf address).state ≠ .up → done = .next { s with sm := u.sm.goesOn address s.clock.now })
      ∧ ((s.shelf address).state = .up → (s.shelf address).misses < 2 →
          done = .next { s with
            sm := ShelfMonitor.goesOn address s.clock.now { u.sm with
              shelves := tableWrite Shelf.unseen s.sm.shelves address
                { s.shelf address with misses := (s.shelf address).misses + 1 } } })
      ∧ ((s.shelf address).state = .up → 2 ≤ (s.shelf address).misses →
          let told := u.shelfGone address
          done = .next (finish s { told with
              agenda := (List.range 16).map (fun i => .driveGone (16 * address + i)),
              sm := told.sm.goesOn address s.clock.now })
            ∧ ((∀ i, i < 16 → (s.member (16 * address + i)).state = .absent ∨ (s.member (16 * address + i)).state = .failed) →
                done = .next { told with sm := told.sm.goesOn address s.clock.now })) := by
  subst hu
  intro done
  refine ⟨fun hdown => ?_, fun hup hfew => ?_, fun hup hthird => ?_⟩
  · refine (congrArg (conclude s) ((congrArg (nextPoll address) (takeMiss_down (s := { s with sm := { s.sm with counters := c } }) hdown)).trans (nextPoll_eq address _))).trans ?_
    exact conclude_quiet hs rfl rfl rfl
  · refine (congrArg (conclude s) ((congrArg (nextPoll address) ((takeMiss_up (s := { s with sm := { s.sm with counters := c } }) hup).trans (if_neg (Nat.not_le.2 hfew)))).trans
      (nextPoll_eq address _))).trans ?_
    exact conclude_quiet hs rfl rfl rfl
  · intro told
    have hlost : takeMiss address { s with sm := { s.sm with counters := c } }
        = { told with agenda := (List.range 16).map (fun i => .driveGone (16 * address + i)) } := by
      refine ((takeMiss_up (s := { s with sm := { s.sm with counters := c } }) hup).trans (if_pos hthird)).trans (loseShelf_quiet hs)
    obtain ⟨m, c', hform⟩ := shelfGone_form { s with sm := { s.sm with counters := c } } address
    have htold : told = _ := hform
    have hclock : told.clock = s.clock := by rw [htold]
    have hdone : done = .next (finish s { told with
        agenda := (List.range 16).map (fun i => .driveGone (16 * address + i)), sm := told.sm.goesOn address s.clock.now }) := by
      rw [← hclock]
      exact congrArg (conclude s) ((congrArg (nextPoll address) hlost).trans (nextPoll_eq address _))
    refine ⟨hdone, fun hnone => hdone.trans (congrArg Host.Outcome.next ?_)⟩
    have hquiet : told.agenda = [] := by
      rw [htold]
      exact hs
    refine (finish_still (t := { told with sm := told.sm.goesOn address s.clock.now }) ?_ (fun i hi => ?_) ?_ ?_ ?_).trans
      (cleared_eq hquiet)
    · rw [List.length_map, List.length_range]
      decide
    · obtain ⟨k, hk, rfl⟩ := List.mem_map.1 hi
      refine driveGone_absent ?_
      rw [htold]
      exact hnone k (List.mem_range.1 hk)
    · exact hclock
    · rw [htold]
    · exact jobsIdle_of_me (by rw [htold])

theorem execStatePollEnd_waiting {s : State} {address start : Nat} (h : s.sm.transaction = some (address, start))
    (a : PollAnswer) : exec (.statePollEnd a) s
      = conclude s (endPoll address (judgeAnswer a (decide (s.clock.now ≤ start + 5000))) s) := by
  show execStatePollEnd a s = _
  unfold execStatePollEnd
  rw [h]
  rfl

theorem execStatePollEnd_none {s : State} (h : s.sm.transaction = none) (a : PollAnswer) : exec (.statePollEnd a) s = .next s := by
  show execStatePollEnd a s = _
  unfold execStatePollEnd
  rw [h]

theorem execTransactionLimit_waiting {s : State} {address start : Nat} (h : s.sm.transaction = some (address, start)) :
    exec .transactionLimit s
      = if start + 5000 ≤ s.clock.now then conclude s (endPoll address .unanswered s) else .next s := by
  show execTransactionLimit s = _
  unfold execTransactionLimit
  rw [h]
  rfl

theorem judgeAnswer_unanswered {answer : List Byte} {inTime : Bool} (h : answer.length ≠ 114 ∨ inTime = false) :
    judgeAnswer (.bytes answer) inTime = .unanswered := by
  refine if_neg fun hboth => ?_
  obtain ⟨hl, ht⟩ := hboth
  rcases h with h | h
  · exact h hl
  · exact Bool.false_ne_true (h.symm.trans ht)

theorem judgeAnswer_whole {answer : List Byte} {inTime : Bool} (h : answer.length = 114) (ht : inTime = true) :
    judgeAnswer (.bytes answer) inTime
      = if answer.getD 113 0 = complementSum (answer.take 113) then .good (answerOf answer) else .badCheck := if_pos ⟨h, ht⟩

/-- Settles O52: each way to miss counts, and then the miss is taken by the state of the shelf. -/
theorem shelvesMissed : Obligations.ShelvesMissed := by
  refine ⟨fun s _ hnone => ?_, fun s address start hs htrans => ?_⟩
  · show execTransactionLimit s = _
    unfold execTransactionLimit
    rw [hnone]
  · intro e goOn missed unanswered
    have hmissed (c : Instr) (j : PollJudgement) (counters : ShelfCounters) (hexec : exec c s = conclude s (endPoll address j s))
        (hj : takeJudgement address j s = takeMiss address { s with sm := { s.sm with counters := counters } }) :
        missed c counters := by
      have hdone : exec c s = conclude s (nextPoll address (takeMiss address { s with sm := { s.sm with counters := counters } })) :=
        hexec.trans (congrArg (fun t => conclude s (nextPoll address t)) hj)
      have hpoll := endPoll_missed (address := address) (c := counters) hs rfl
      rw [← hdone] at hpoll
      exact hpoll
    have hunanswered (c : Instr) (hexec : exec c s = conclude s (endPoll address .unanswered s)) : missed c unanswered :=
      hmissed c _ _ hexec rfl
    refine ⟨hunanswered _ (execStatePollEnd_waiting htrans .noAck), fun answer h => hunanswered _ ?_, fun answer hl ht hsum => ?_,
      fun hdue => hunanswered _ ((execTransactionLimit_waiting htrans).trans (if_pos hdue)),
      fun hearly => (execTransactionLimit_waiting htrans).trans (if_neg (Nat.not_le.2 hearly))⟩
    · rw [execStatePollEnd_waiting htrans, judgeAnswer_unanswered (h.imp id fun h => decide_eq_false (Nat.not_le.2 h))]
    · refine hmissed _ .badCheck _ ?_ rfl
      rw [execStatePollEnd_waiting htrans, judgeAnswer_whole hl (decide_eq_true ht), if_neg hsum]

end Sys2Proof.Machine
end

section
/-! PROOFS. A good answer on the management bus: the changes of bays, and the reports to the Placement Map (R29, R30, R138 to R142). -/

namespace Sys2Proof.Machine

/-! ## Changed bays (R142) -/

/-- The reports of a changed bay: gone, then appeared. -/
def bayReports (id : Nat) (old new : Bay) : List Internal :=
  (if old.present then [.driveGone id] else [])
    ++ (if new.present then [.driveAppeared id new.capacity new.formatOk] else [])

theorem reportBay_eq (id : Nat) (old new : Bay) (s : State) :
    reportBay id old new s = { s with agenda := s.agenda ++ bayReports id old new } := by
  unfold reportBay bayReports
  cases old.present <;> cases new.present
  · exact (congrArg (fun a => { s with agenda := a }) (List.append_nil s.agenda)).symm
  · rfl
  · rfl
  · exact congrArg (fun a => { s with agenda := a }) (List.append_assoc s.agenda [.driveGone id] _)

/-- Whether a bay's record has changed so that it is noticed. -/
def bayDiffers (held bays : List Bay) (i : Nat) : Bool :=
  let old := held.getD i Bay.cleared
  let new := bays.getD i Bay.cleared
  if old.present || new.present then
    decide (old.present ≠ new.present ∨ old.capacity ≠ new.capacity ∨ old.formatOk ≠ new.formatOk)
  else decide (old.occupied ≠ new.occupied ∨ old.ready ≠ new.ready)

theorem bayChanged_eq (held bays : List Bay) (i : Nat) :
    bayChanged (held.getD i Bay.cleared) (bays.getD i Bay.cleared) = bayDiffers held bays i := by
  unfold bayChanged bayDiffers
  dsimp only
  split
  · rw [Bool.decide_or, Bool.decide_or, Bool.or_assoc]
  · rw [Bool.decide_or]

theorem bayDiffers_same {held bays : List Bay} {i : Nat} (h : held.getD i Bay.cleared = bays.getD i Bay.cleared) :
    bayDiffers held bays i = false := by
  unfold bayDiffers
  dsimp only
  rw [h]
  split <;> simp

/-- A changed bay reported, counted and noticed. -/
def State.bayTaken (s : State) (address : Nat) (held bays : List Bay) (i : Nat) : State :=
  let old := held.getD i Bay.cleared
  let new := bays.getD i Bay.cleared
  State.offerNotice (.bayChange (16 * address + i) old new)
    { s with
      agenda := s.agenda ++ bayReports (16 * address + i) old new,
      sm := { s.sm with counters := { s.sm.counters with
        bayChanges := min (s.sm.counters.bayChanges + 1) 4294967295 } } }

theorem compareBay_eq (address : Nat) (held bays : List Bay) (i : Nat) (s : State) :
    compareBay address held bays i s = if bayDiffers held bays i then s.bayTaken address held bays i else s := by
  unfold compareBay
  dsimp only
  rw [bayChanged_eq, reportBay_eq, Nat.mul_comm address 16]
  rfl

/-- The changed bays, one after another. -/
def State.baysTaken (s : State) (address : Nat) (held bays : List Bay) (l : List Nat) : State :=
  l.foldl (fun t i => t.bayTaken address held bays i) s

theorem forEach_compareBay (address : Nat) (held bays : List Bay) (l : List Nat) (s : State) :
    forEach (compareBay address held bays) l s = s.baysTaken address held bays (l.filter (bayDiffers held bays)) := by
  induction l generalizing s with
  | nil => rfl
  | cons i rest ih =>
    rw [forEach, compareBay_eq, ih]
    by_cases h : bayDiffers held bays i = true
    · rw [if_pos h, List.filter_cons_of_pos h]
      rfl
    · rw [if_neg h, List.filter_cons_of_neg h]

theorem bayTaken_form (s : State) (address : Nat) (held bays : List Bay) (i : Nat) :
    ∃ m, s.bayTaken address held bays i = { s with
      mp := m, agenda := s.agenda ++ bayReports (16 * address + i) (held.getD i Bay.cleared) (bays.getD i Bay.cleared),
      sm := { s.sm with counters := { s.sm.counters with
        bayChanges := min (s.sm.counters.bayChanges + 1) 4294967295 } } } :=
  ⟨_, offerNotice_of_mp (s := s) _ rfl⟩

theorem baysTaken_form (s : State) (address : Nat) (held bays : List Bay) (l : List Nat) :
    ∃ m a c, s.baysTaken address held bays l = { s with mp := m, agenda := a, sm := { s.sm with counters := c } } := by
  induction l generalizing s with
  | nil => exact ⟨s.mp, s.agenda, s.sm.counters, rfl⟩
  | cons i rest ih =>
    obtain ⟨m', h'⟩ := bayTaken_form s address held bays i
    obtain ⟨m, a, c, h⟩ := ih (s.bayTaken address held bays i)
    refine ⟨m, a, c, h.trans ?_⟩
    rw [h']

/-! ## A good answer (R141) -/

/-- The entry of a shelf that has answered. -/
def State.shelfAnswered (s : State) (address : Nat) (a : ShelfAnswer) : State :=
  { s with sm := { s.sm with
    shelves := tableWrite Shelf.unseen s.sm.shelves address
      { state := .up, misses := 0, faulted := a.faulted, bays := a.bays, lastGood := some s.clock.now } } }

/-- With SHELF_UP where the shelf was not up, or its condition changes. -/
def State.shelfTold (s : State) (address : Nat) (a : ShelfAnswer) : State :=
  if (s.shelf address).state = .up ∧ (s.shelf address).faulted = a.faulted then s.shelfAnswered address a
  else State.offerNotice (.shelfUp address a.faulted (a.bays.filter Bay.present).length) (s.shelfAnswered address a)

theorem shelfTold_form (s : State) (address : Nat) (a : ShelfAnswer) :
    ∃ m, s.shelfTold address a = { s.shelfAnswered address a with mp := m } := by
  unfold State.shelfTold
  split
  · exact ⟨s.mp, rfl⟩
  · exact ⟨_, offerNotice_of_mp (s := s) _ rfl⟩

theorem takeAnswer_eq (address : Nat) (a : ShelfAnswer) (s : State) :
    takeAnswer address a s = (s.shelfTold address a).baysTaken address (s.shelf address).bays a.bays
      ((List.range 16).filter (bayDiffers (s.shelf address).bays a.bays)) :=
  forEach_compareBay address (s.shelf address).bays a.bays (List.range 16) (s.shelfTold address a)

/-- STATE_POLL_END with a good answer. -/
theorem execStatePollEnd_good {s : State} {address start : Nat} {answer : List Byte}
    (h : s.sm.transaction = some (address, start)) (ht : s.clock.now ≤ start + 5000) (hl : answer.length = 114)
    (hc : answer.getD 113 0 = complementSum (answer.take 113)) :
    let told := (s.shelfTold address (answerOf answer)).baysTaken address (s.shelf address).bays (answerOf answer).bays
      ((List.range 16).filter (bayDiffers (s.shelf address).bays (answerOf answer).bays))
    exec (.statePollEnd (.bytes answer)) s = .next (finish s { told with sm := told.sm.goesOn address s.clock.now }) := by
  intro told
  obtain ⟨m, a, c, hform⟩ := baysTaken_form (s.shelfTold address (answerOf answer)) address (s.shelf address).bays
    (answerOf answer).bays ((List.range 16).filter (bayDiffers (s.shelf address).bays (answerOf answer).bays))
  obtain ⟨m', hm'⟩ := shelfTold_form s address (answerOf answer)
  have hclock : told.clock = s.clock := by
    rw [show told = _ from hform, hm']
    rfl
  rw [execStatePollEnd_waiting h, judgeAnswer_whole hl (decide_eq_true ht), if_pos hc, ← hclock, ← nextPoll_eq]
  exact congrArg (fun t => conclude s (nextPoll address t)) (takeAnswer_eq address (answerOf answer) s)

/-! ## Reports of drives (R29, R30) -/

section
variable {u : State} {id : Nat}

theorem driveGone_present (h : (u.member id).state = .present) : driveGone id u = changeMember id Member.absent u := by
  unfold driveGone
  dsimp only
  rw [h]

theorem driveGone_joining {tag : ReqTag} {q : Option Nat} {verified durable : Bool} (h : (u.member id).state = .joining)
    (hb : u.pm.busy = some (.joining tag id q verified durable)) :
    driveGone id u = endCommands (fun c => decide (c.member = id) && decide (c.owner = .admission))
      (joinFail tag id Member.absent u) := by
  have htag : u.joiningTag id = some tag := by
    unfold State.joiningTag
    rw [hb]
    exact if_pos rfl
  unfold driveGone
  dsimp only
  rw [h]
  dsimp only
  rw [htag]

theorem driveGone_up (h : (u.member id).state = .available ∨ (u.member id).state = .active) :
    driveGone id u = failMember id none u := by
  unfold driveGone
  dsimp only
  rcases h with h | h <;> rw [h]

theorem driveAppeared_absent (capacity : Nat) (formatOk : Bool) (h : (u.member id).state = .absent) :
    driveAppeared id capacity formatOk u
      = changeMember id { u.member id with state := .present, capacity := capacity, formatOk := formatOk } (u.setErrorRun id 0) := by
  unfold driveAppeared
  dsimp only
  rw [h]

theorem driveAppeared_present (capacity : Nat) (formatOk : Bool) (h : (u.member id).state = .present) :
    driveAppeared id capacity formatOk u = u.setMember id { u.member id with capacity := capacity, formatOk := formatOk } := by
  unfold driveAppeared
  dsimp only
  rw [h]

theorem driveAppeared_known (capacity : Nat) (formatOk : Bool) (ha : (u.member id).state ≠ .absent)
    (hp : (u.member id).state ≠ .present) : driveAppeared id capacity formatOk u = u := by
  unfold driveAppeared
  dsimp only
  split
  case h_1 h => exact absurd h ha
  case h_2 h => exact absurd h hp
  all_goals rfl

end

end Sys2Proof.Machine
end

section
/-! PROOFS. One bay of a shelf changes: what the Placement Map makes of the report (R29, R30, R33, R36, R142). -/

namespace Sys2Proof.Machine

/-! ## The end of a command whose exchanges do little -/

theorem settle_one_still {t u : State} {i : Internal} (n : Nat) (ha : t.agenda = [i]) (hu : handle i { t with agenda := [] } = u)
    (hstill : ∀ k ∈ u.agenda, handle k { u with agenda := [] } = { u with agenda := [] }) :
    ∃ a, settle (n + 1) t = { u with agenda := a } := by
  refine ⟨u.agenda.drop n, ?_⟩
  have hstep : settle (n + 1) t = settle n { u with agenda := u.agenda ++ [] } := by
    rw [settle, ha]
    dsimp only
    rw [hu]
  rw [hstep, List.append_nil]
  exact settle_still_drop n hstill

theorem finish_of_settle {s t w : State} (h : settle settleBound t = w) (hc : w.clock = s.clock) (hp : w.pending = s.pending)
    (hme : w.me = s.me) : finish s t = w := by
  rw [finish, h, offerIdle, jobsIdle_of_me hme, Bool.and_not_self, if_neg Bool.false_ne_true, closeStep, ← hc, ← hp]

theorem finish_one_still {s t u : State} {i : Internal} (ha : t.agenda = [i]) (hu : handle i { t with agenda := [] } = u)
    (hstill : ∀ k ∈ u.agenda, handle k { u with agenda := [] } = { u with agenda := [] }) (hc : u.clock = s.clock)
    (hp : u.pending = s.pending) (hme : u.me = s.me) : ∃ a, finish s t = { u with agenda := a } := by
  obtain ⟨n, hn⟩ := settleBound_succ
  obtain ⟨a, h⟩ := settle_one_still n ha hu hstill
  exact ⟨a, finish_of_settle (by rw [hn, h]) hc hp hme⟩

/-- Two exchanges, the first of which posts nothing. -/
theorem finish_two_still {s t u w : State} {i j : Internal} (ha : t.agenda = [i, j]) (hu : handle i { t with agenda := [] } = u)
    (hq : u.agenda = []) (hw : handle j u = w) (hstill : ∀ k ∈ w.agenda, handle k { w with agenda := [] } = { w with agenda := [] })
    (hc : w.clock = s.clock) (hp : w.pending = s.pending) (hme : w.me = s.me) : ∃ a, finish s t = { w with agenda := a } := by
  obtain ⟨n, hn⟩ : ∃ n, settleBound = n + 1 + 1 := ⟨999998, rfl⟩
  have hfirst : settle (n + 1 + 1) t = settle (n + 1) { u with agenda := [j] } := by
    rw [settle, ha]
    dsimp only
    rw [hu, hq]
    rfl
  obtain ⟨a, h⟩ := settle_one_still (t := { u with agenda := [j] }) n rfl
    ((congrArg (handle j) (cleared_eq hq)).trans hw) hstill
  exact ⟨a, finish_of_settle (by rw [hn, hfirst, h]) hc hp hme⟩

/-! ## A shelf of which one bay differs -/

theorem filter_range_one {p : Nat → Bool} {n i : Nat} (hi : i < n) (hp : p i = true) (ho : ∀ j, j < n → j ≠ i → p j = false) :
    (List.range n).filter p = [i] := by
  have hsub : (List.range n).filter p = (List.range n).filter (fun j => decide (j = i)) :=
    List.filter_congr fun j hj => by
      by_cases h : j = i
      · rw [h, hp]
        exact (decide_eq_true rfl).symm
      · rw [ho j (List.mem_range.1 hj) h]
        exact (decide_eq_false h).symm
  rw [hsub]
  have hcount : (List.range n).count i = 1 := List.count_range.trans (if_pos hi)
  rw [show (fun j => decide (j = i)) = (fun j => j == i) from funext fun _ => rfl, List.filter_beq, hcount]
  rfl

theorem entriesWhere_nil_of_imp {p q : Cmd → Bool} {s : State} (h : ∀ c, p c = true → q c = true)
    (hq : s.entriesWhere q = []) : s.entriesWhere p = [] := by
  have hnone : ∀ e ∈ s.dp.ring, ¬(e.2.cmd.map q).getD false = true := List.filter_eq_nil_iff.1 (List.map_eq_nil_iff.1 hq)
  refine List.map_eq_nil_iff.2 (List.filter_eq_nil_iff.2 fun e he hp => hnone e he ?_)
  cases hc : e.2.cmd with
  | none =>
    rw [hc] at hp
    cases hp
  | some c =>
    rw [hc] at hp
    exact h c hp

theorem goesOn_kept (m : ShelfMonitor) (address now : Nat) :
    (m.goesOn address now).shelves = m.shelves ∧ (m.goesOn address now).counters.bayChanges = m.counters.bayChanges := by
  unfold ShelfMonitor.goesOn
  split <;> exact ⟨rfl, rfl⟩

/-- A good answer of a shelf whose condition stays and of which one bay changes: the reports of that bay are taken. -/
theorem poll_one_bay {s : State} {address start : Nat} {answer : List Byte} {i : Nat} (hs : s.quiet)
    (h : s.sm.transaction = some (address, start)) (ht : s.clock.now ≤ start + 5000) (hl : answer.length = 114)
    (hc : answer.getD 113 0 = complementSum (answer.take 113)) (hi : i < 16) (hup : (s.shelf address).state = .up)
    (hfault : (s.shelf address).faulted = (answerOf answer).faulted)
    (ho : ∀ j, j < 16 → j ≠ i →
      (s.shelf address).bays.getD j Bay.cleared = (answerOf answer).bays.getD j Bay.cleared)
    (hd : bayDiffers (s.shelf address).bays (answerOf answer).bays i = true) :
    let old := (s.shelf address).bays.getD i Bay.cleared
    let new := (answerOf answer).bays.getD i Bay.cleared
    ∃ sm : ShelfMonitor, sm.shelves = (s.shelfAnswered address (answerOf answer)).sm.shelves
      ∧ sm.counters.bayChanges = min (s.sm.counters.bayChanges + 1) 4294967295
      ∧ exec (.statePollEnd (.bytes answer)) s = .next (finish s { s with
          mp := (s.offerNotice (.bayChange (16 * address + i) old new)).mp, sm := sm,
          agenda := bayReports (16 * address + i) old new }) := by
  intro old new
  have hfilter : (List.range 16).filter (bayDiffers (s.shelf address).bays (answerOf answer).bays) = [i] :=
    filter_range_one hi hd fun j hj hne => bayDiffers_same (ho j hj hne)
  let told := (s.shelfAnswered address (answerOf answer)).bayTaken address (s.shelf address).bays (answerOf answer).bays i
  have htold : told = { s.shelfAnswered address (answerOf answer) with
      mp := (s.offerNotice (.bayChange (16 * address + i) old new)).mp,
      agenda := s.agenda ++ bayReports (16 * address + i) old new,
      sm := { (s.shelfAnswered address (answerOf answer)).sm with
        counters := { s.sm.counters with bayChanges := min (s.sm.counters.bayChanges + 1) 4294967295 } } } :=
    offerNotice_of_mp (s := s) _ rfl
  have hexec := execStatePollEnd_good h ht hl hc
  rw [hfilter, show s.shelfTold address (answerOf answer) = s.shelfAnswered address (answerOf answer) from if_pos ⟨hup, hfault⟩]
    at hexec
  have hquiet : s.agenda = [] := hs
  rw [hquiet, List.nil_append] at htold
  obtain ⟨hshelves, hchanges⟩ := goesOn_kept told.sm address s.clock.now
  have hpoll : exec (.statePollEnd (.bytes answer)) s
      = .next (finish s { told with sm := told.sm.goesOn address s.clock.now }) := hexec
  refine ⟨told.sm.goesOn address s.clock.now, hshelves.trans ?_, hchanges.trans ?_,
    hpoll.trans (congrArg (fun t => Host.Outcome.next (finish s t)) ?_)⟩
  · rw [htold]
  · rw [htold]
  · generalize told.sm.goesOn address s.clock.now = m
    rw [htold]
    rfl

/-! ## What the Placement Map makes of one report -/

/-- A member that changes its state, with its notice told by any state with the same Message Port. -/
theorem changeMember_of_mp {r t : State} {id : Nat} {m : Member} {was now : MemberState} (hwas : (t.member id).state = was)
    (hnow : m.state = now) (hne : was ≠ now) (hmp : t.mp = r.mp) :
    changeMember id m t = { t with
      mp := (r.offerNotice (.memberState id was now)).mp,
      pm := { t.pm with members := tableWrite Member.absent t.pm.members id m } } := by
  subst hwas hnow
  rw [changeMember_moves hne]
  exact offerNotice_of_mp (s := r) _ hmp

section
variable {s v : State} {id : Nat} {x : Notice} {sm : ShelfMonitor}

/-- A drive appears at an ABSENT member (R29). -/
theorem appeared_absent (hv : v = { s with mp := (s.offerNotice x).mp, sm := sm })
    (hm : (s.member id).state = .absent) (capacity : Nat) (formatOk : Bool) :
    let entered : Member := { s.member id with state := .present, capacity := capacity, formatOk := formatOk }
    ∃ a, finish s { v with agenda := [.driveAppeared id capacity formatOk] } = { v with
      mp := ((s.offerNotice x).offerNotice (.memberState id .absent .present)).mp,
      dp := { s.dp with errorRuns := tableWrite 0 s.dp.errorRuns id 0 },
      pm := { s.pm with members := tableWrite Member.absent s.pm.members id entered }, agenda := a } := by
  intro entered
  subst hv
  have hhandle : handle (.driveAppeared id capacity formatOk) { s with mp := (s.offerNotice x).mp, sm := sm, agenda := [] }
      = { s with
        mp := ((s.offerNotice x).offerNotice (.memberState id .absent .present)).mp, sm := sm,
        dp := { s.dp with errorRuns := tableWrite 0 s.dp.errorRuns id 0 },
        pm := { s.pm with members := tableWrite Member.absent s.pm.members id entered }, agenda := [] } :=
    (driveAppeared_absent (u := { s with mp := (s.offerNotice x).mp, sm := sm, agenda := [] }) capacity formatOk hm).trans
      (changeMember_of_mp (r := s.offerNotice x) hm rfl (by nofun) rfl)
  exact finish_one_still (t := { s with
    mp := (s.offerNotice x).mp, sm := sm, agenda := [.driveAppeared id capacity formatOk] }) rfl hhandle
    (fun k hk => absurd hk List.not_mem_nil) rfl rfl rfl

/-- A PRESENT member's drive is exchanged (R29, R30). -/
theorem exchanged_present (hv : v = { s with mp := (s.offerNotice x).mp, sm := sm })
    (hm : (s.member id).state = .present) (capacity : Nat) (formatOk : Bool) :
    ∃ a, finish s { v with agenda := [.driveGone id, .driveAppeared id capacity formatOk] } = { v with
      mp := (((s.offerNotice x).offerNotice (.memberState id .present .absent)).offerNotice
        (.memberState id .absent .present)).mp,
      dp := { s.dp with errorRuns := tableWrite 0 s.dp.errorRuns id 0 },
      pm := { s.pm with
        members := tableWrite Member.absent s.pm.members id ⟨.present, capacity, formatOk, [], none⟩ }, agenda := a } := by
  subst hv
  let gone : State := { s with
    mp := ((s.offerNotice x).offerNotice (.memberState id .present .absent)).mp, sm := sm,
    pm := { s.pm with members := tableWrite Member.absent s.pm.members id Member.absent }, agenda := [] }
  have hgone : handle (.driveGone id) { s with mp := (s.offerNotice x).mp, sm := sm, agenda := [] } = gone :=
    (driveGone_present (u := { s with mp := (s.offerNotice x).mp, sm := sm, agenda := [] }) hm).trans
      (changeMember_of_mp (r := s.offerNotice x) hm rfl (by nofun) rfl)
  have hentry : gone.member id = Member.absent := tableRead_tableWrite_same Member.absent s.pm.members id Member.absent
  have happeared : handle (.driveAppeared id capacity formatOk) gone = { s with
      mp := (((s.offerNotice x).offerNotice (.memberState id .present .absent)).offerNotice
        (.memberState id .absent .present)).mp, sm := sm,
      dp := { s.dp with errorRuns := tableWrite 0 s.dp.errorRuns id 0 },
      pm := { s.pm with
        members := tableWrite Member.absent s.pm.members id ⟨.present, capacity, formatOk, [], none⟩ }, agenda := [] } := by
    rw [← tableWrite_tableWrite Member.absent s.pm.members id Member.absent]
    refine (driveAppeared_absent (u := gone) capacity formatOk (congrArg Member.state hentry)).trans ?_
    rw [hentry]
    exact changeMember_of_mp (r := (s.offerNotice x).offerNotice (.memberState id .present .absent))
      (congrArg Member.state hentry) rfl (by nofun) rfl
  exact finish_two_still (t := { s with
    mp := (s.offerNotice x).mp, sm := sm, agenda := [.driveGone id, .driveAppeared id capacity formatOk] }) rfl hgone rfl happeared
    (fun k hk => absurd hk List.not_mem_nil) rfl rfl rfl

/-- The Placement Map waits for the number of an admitting record alone. -/
theorem ownerQueued_pm {r : Record} {t : State} (ho : r.owner = .pm)
    (hb : ∀ id capacity formatOk, r.body ≠ .member id (.admission capacity formatOk)) : ownerQueued r t = t := by
  unfold ownerQueued
  rw [ho]
  dsimp only
  unfold pmQueued
  split
  · next heq => exact absurd heq (hb _ _ _)
  · rfl

/-- An AVAILABLE or ACTIVE member's drive goes, with no command and no lane that reacts (R36). -/
theorem gone_up (hv : v = { s with mp := (s.offerNotice x).mp, sm := sm })
    (hm : (s.member id).state = .available ∨ (s.member id).state = .active) (hr : s.part = .ready) (ho : s.journalOpen)
    (hn : ((s.member id).bands.map Band.set).Nodup) (hj : ∀ n, (s.lane n).job = none)
    (he : s.entriesWhere (fun c => decide (c.member = id)) = []) (hw : s.dp.waiting = []) (hl : s.dp.labelWait = []) :
    ∃ a, finish s { v with agenda := [.driveGone id] }
      = { (State.memberDown { v with agenda := [] } id).withRecord .pm (.member id .failed) none with agenda := a } := by
  subst hv
  let u : State := { s with mp := (s.offerNotice x).mp, sm := sm, agenda := [] }
  let r : Record := ⟨s.jc.nextSeq, .member id .failed, .pm, none⟩
  have hhandle : handle (.driveGone id) u = ((u.memberDown id).withRecord .pm (.member id .failed) none).post (.recordQueued r) :=
    (driveGone_up (u := u) hm).trans (failMember_quiet (u := u) hn he hw hl (by rw [show u.part = .ready from hr]; nofun) ho)
  refine finish_one_still (t := { s with mp := (s.offerNotice x).mp, sm := sm, agenda := [.driveGone id] }) rfl hhandle
    (u := ((u.memberDown id).withRecord .pm (.member id .failed) none).post (.recordQueued r)) (fun k hk => ?_) rfl rfl rfl
  rcases List.mem_append.1 (show k ∈ ([] ++ (u.failChanged id).map (fun k => Internal.setChanged k (u.enteredState k)))
    ++ [Internal.recordQueued r] from hk) with hk | hk
  · obtain ⟨c, -, rfl⟩ := List.mem_map.1 (show k ∈ (u.failChanged id).map (fun k => .setChanged k (u.enteredState k)) from hk)
    exact setChanged_idle hj
  · obtain rfl := List.mem_singleton.1 hk
    exact ownerQueued_pm (r := r) rfl fun _ _ _ h => nomatch h

/-- A JOINING member's drive goes, with none of its commands in the Drive Port (R33). -/
theorem gone_joining (hv : v = { s with mp := (s.offerNotice x).mp, sm := sm }) {tag : ReqTag} {q : Option Nat}
    {verified durable : Bool} (hm : (s.member id).state = .joining)
    (hb : s.pm.busy = some (.joining tag id q verified durable)) (ho : s.journalOpen)
    (he : s.entriesWhere (fun c => decide (c.member = id)) = []) (hw : s.dp.waiting = []) (hl : s.dp.labelWait = []) :
    ∃ a, finish s { v with agenda := [.driveGone id] } = { State.withRecord .pm (.member id .unadmitted) (some tag) { v with
      mp := ((s.offerNotice x).offerNotice (.memberState id .joining .absent)).mp,
      pm := { s.pm with
        members := tableWrite Member.absent s.pm.members id Member.absent, busy := some (.joinFailed tag id) } } with
      agenda := a } := by
  subst hv
  let u : State := { s with mp := (s.offerNotice x).mp, sm := sm, agenda := [] }
  let r : Record := ⟨s.jc.nextSeq, .member id .unadmitted, .pm, some tag⟩
  let t : State := State.withRecord .pm (.member id .unadmitted) (some tag) { u with
    mp := ((s.offerNotice x).offerNotice (.memberState id .joining .absent)).mp,
    pm := { s.pm with
      members := tableWrite Member.absent s.pm.members id Member.absent, busy := some (.joinFailed tag id) } }
  have hfail : joinFail tag id Member.absent u = t.post (.recordQueued r) := by
    rw [joinFail_open (u := u) hm MemberState.noConfusion ho, offerNotice_of_mp (s := s.offerNotice x) _ (by rfl)]
    rfl
  have hnone : u.entriesWhere (fun c => decide (c.member = id) && decide (c.owner = .admission)) = [] :=
    entriesWhere_nil_of_imp (fun c hc => (Bool.and_eq_true_iff.1 hc).1) he
  have hhandle : handle (.driveGone id) u = t.post (.recordQueued r) := by
    refine (driveGone_joining (u := u) hm hb).trans ?_
    rw [hfail, endCommands, show (t.post (.recordQueued r)).entriesWhere _ = [] from hnone]
    exact serveCommands_none (s := t.post (.recordQueued r)) hw hl
  refine finish_one_still (t := { s with mp := (s.offerNotice x).mp, sm := sm, agenda := [.driveGone id] }) rfl hhandle
    (u := t.post (.recordQueued r)) (fun k hk => ?_) rfl rfl rfl
  obtain rfl := List.mem_singleton.1 (show k ∈ [Internal.recordQueued r] from hk)
  exact ownerQueued_pm (r := r) (t := { t with agenda := [] }) rfl fun _ _ _ h => nomatch h

end

/-! ## The bay that changes, as O51 states it -/

/-- What the end of a command for one changed bay shows, with the notices that follow the bay's. -/
def BayEnds (s : State) (address i : Nat) (answer : List Byte) (a : ShelfAnswer) (told : List Notice)
    (t : State) : Prop :=
  let taken := s.shelfAnswered address a
  let old := (s.shelf address).bays.getD i Bay.cleared
  let new := a.bays.getD i Bay.cleared
  exec (.statePollEnd (.bytes answer)) s = .next t
    ∧ (∀ k, k ≠ 16 * address + i → t.member k = s.member k) ∧ t.shelf address = taken.shelf address
    ∧ t.sm.counters.bayChanges = min (s.sm.counters.bayChanges + 1) 4294967295
    ∧ t.mp = ((.bayChange (16 * address + i) old new :: told).foldl (fun u x => u.offerNotice x) s).mp
    ∧ t.pm.slots = s.pm.slots ∧ t.pm.slabs = s.pm.slabs ∧ t.gu = s.gu ∧ t.me = s.me ∧ t.sp = s.sp

/-- The end of a command that writes one member's entry. -/
theorem bayEnds_of {s t : State} {address i : Nat} {answer : List Byte} {a : ShelfAnswer} {told : List Notice} {m : Member}
    (hexec : exec (.statePollEnd (.bytes answer)) s = .next t)
    (hmembers : t.pm.members = tableWrite Member.absent s.pm.members (16 * address + i) m)
    (hshelves : t.sm.shelves = (s.shelfAnswered address a).sm.shelves)
    (hchanges : t.sm.counters.bayChanges = min (s.sm.counters.bayChanges + 1) 4294967295)
    (hmp : t.mp = ((.bayChange (16 * address + i) ((s.shelf address).bays.getD i Bay.cleared)
      (a.bays.getD i Bay.cleared) :: told).foldl (fun u x => u.offerNotice x) s).mp)
    (hslots : t.pm.slots = s.pm.slots) (hslabs : t.pm.slabs = s.pm.slabs) (hgu : t.gu = s.gu) (hme : t.me = s.me)
    (hsp : t.sp = s.sp) : BayEnds s address i answer a told t ∧ t.member (16 * address + i) = m := by
  refine ⟨⟨hexec, fun k hk => ?_, ?_, hchanges, hmp, hslots, hslabs, hgu, hme, hsp⟩, ?_⟩
  · rw [State.member, hmembers]
    exact tableRead_tableWrite_other Member.absent s.pm.members m hk
  · rw [State.shelf, hshelves]
    rfl
  · rw [State.member, hmembers]
    exact tableRead_tableWrite_same Member.absent s.pm.members (16 * address + i) m

/-- One bay changes: each kind of change with what the Placement Map then holds. -/
theorem poll_one_bay_ends {s : State} {address start : Nat} {answer : List Byte} {a : ShelfAnswer} {i : Nat} (ha : answerOf answer = a) (hs : s.quiet)
    (h : s.sm.transaction = some (address, start)) (ht : s.clock.now ≤ start + 5000) (hl : answer.length = 114)
    (hc : answer.getD 113 0 = complementSum (answer.take 113)) (hi : i < 16) (hup : (s.shelf address).state = .up)
    (hfault : (s.shelf address).faulted = a.faulted)
    (ho : ∀ j, j < 16 → j ≠ i →
      (s.shelf address).bays.getD j Bay.cleared = a.bays.getD j Bay.cleared) :
    let id := 16 * address + i
    let old := (s.shelf address).bays.getD i Bay.cleared
    let new := a.bays.getD i Bay.cleared
    let m := s.member id
    (old.present = false → new.present = true → m.state = .absent →
        ∃ t : State, BayEnds s address i answer a [.memberState id .absent .present] t
          ∧ t.member id = { m with state := .present, capacity := new.capacity, formatOk := new.formatOk }
          ∧ t.errorRun id = 0 ∧ t.pm.sets = s.pm.sets ∧ t.jc = s.jc)
      ∧ (old.present = true → new.present = true → old.capacity ≠ new.capacity ∨ old.formatOk ≠ new.formatOk →
          m.state = .present →
          ∃ t : State, BayEnds s address i answer a [.memberState id .present .absent, .memberState id .absent .present] t
            ∧ t.member id = ⟨.present, new.capacity, new.formatOk, [], none⟩
            ∧ t.errorRun id = 0 ∧ t.pm.sets = s.pm.sets ∧ t.jc = s.jc)
      ∧ (old.present = true → new.present = false → m.state = .available ∨ m.state = .active →
          s.part = .ready → s.journalOpen → (m.bands.map Band.set).Nodup → (∀ n, (s.lane n).job = none) →
          s.entriesWhere (fun c => decide (c.member = id)) = [] → s.dp.waiting = [] → s.dp.labelWait = [] →
          ∃ t : State, BayEnds s address i answer a (s.failNotices id) t
            ∧ t.member id = { m with state := .failed }
            ∧ (∀ b ∈ m.bands, t.set b.set =
                { s.set b.set with failedCount := (s.set b.set).failedCount + 1, state := s.enteredState b.set })
            ∧ (∀ k, (∀ b ∈ m.bands, b.set ≠ k) → t.set k = s.set k)
            ∧ t.jc = (s.withRecord .pm (.member id .failed) none).jc)
      ∧ (∀ tag q verified durable, old.present = true → new.present = false → m.state = .joining →
          s.pm.busy = some (.joining tag id q verified durable) → s.journalOpen →
          s.entriesWhere (fun c => decide (c.member = id)) = [] → s.dp.waiting = [] → s.dp.labelWait = [] →
          ∃ t : State, BayEnds s address i answer a [.memberState id .joining .absent] t ∧ t.member id = Member.absent
            ∧ t.pm.busy = some (.joinFailed tag id) ∧ t.pm.sets = s.pm.sets
            ∧ t.jc = (s.withRecord .pm (.member id .unadmitted) (some tag)).jc) := by
  subst ha
  intro id old new m
  have hpoll (hd : bayDiffers (s.shelf address).bays (answerOf answer).bays i = true) :=
    poll_one_bay hs h ht hl hc hi hup hfault ho hd
  have hmoved (hp : old.present ≠ new.present) : bayDiffers (s.shelf address).bays (answerOf answer).bays i = true := by
    have heither : (old.present || new.present) = true := by
      cases ho : old.present <;> cases hn : new.present
      · exact absurd (ho.trans hn.symm) hp
      all_goals rfl
    exact (if_pos heither).trans (decide_eq_true (Or.inl hp))
  refine ⟨fun hold hnew hm => ?_, fun hold hnew hx hm => ?_, fun hold hnew hm hr hopen hn hj he hw hlw => ?_,
    fun tag q verified durable hold hnew hm hb hopen he hw hlw => ?_⟩
  · obtain ⟨sm, hshelves, hchanges, hexec⟩ := hpoll (hmoved (by rw [hold, hnew]; nofun))
    obtain ⟨_, hfinish⟩ := appeared_absent (s := s) (x := .bayChange id old new) (sm := sm) rfl hm new.capacity new.formatOk
    have hreports : bayReports id old new = [.driveAppeared id new.capacity new.formatOk] := by
      rw [bayReports, hold, hnew]
      rfl
    rw [hreports] at hexec
    obtain ⟨hends, hmember⟩ := bayEnds_of (s := s) (address := address) (i := i) (told := [.memberState id .absent .present])
      (m := { m with state := .present, capacity := new.capacity, formatOk := new.formatOk })
      (hexec.trans (congrArg Host.Outcome.next hfinish)) rfl hshelves hchanges rfl rfl rfl rfl rfl rfl
    exact ⟨_, hends, hmember, tableRead_tableWrite_same 0 s.dp.errorRuns id 0, rfl, rfl⟩
  · have hd : bayDiffers (s.shelf address).bays (answerOf answer).bays i = true :=
      (if_pos (show (old.present || new.present) = true by rw [hold]; rfl)).trans (decide_eq_true (Or.inr hx))
    obtain ⟨sm, hshelves, hchanges, hexec⟩ := hpoll hd
    obtain ⟨_, hfinish⟩ := exchanged_present (s := s) (x := .bayChange id old new) (sm := sm) rfl hm new.capacity new.formatOk
    have hreports : bayReports id old new = [.driveGone id, .driveAppeared id new.capacity new.formatOk] := by
      rw [bayReports, hold, hnew]
      rfl
    rw [hreports] at hexec
    obtain ⟨hends, hmember⟩ := bayEnds_of (s := s) (address := address) (i := i) (told := [.memberState id .present .absent, .memberState id .absent .present])
      (m := ⟨.present, new.capacity, new.formatOk, [], none⟩)
      (hexec.trans (congrArg Host.Outcome.next hfinish)) rfl hshelves hchanges rfl rfl rfl rfl rfl rfl
    exact ⟨_, hends, hmember, tableRead_tableWrite_same 0 s.dp.errorRuns id 0, rfl, rfl⟩
  · obtain ⟨sm, hshelves, hchanges, hexec⟩ := hpoll (hmoved (by rw [hold, hnew]; nofun))
    obtain ⟨_, hfinish⟩ := gone_up (s := s) (x := .bayChange id old new) (sm := sm) rfl hm hr hopen hn hj he hw hlw
    have hreports : bayReports id old new = [.driveGone id] := by
      rw [bayReports, hold, hnew]
      rfl
    rw [hreports] at hexec
    let u : State := { s with mp := (s.offerNotice (.bayChange id old new)).mp, sm := sm, agenda := [] }
    have hmp : (offerAll (s.failNotices id) u).mp = (offerAll (s.failNotices id) (s.offerNotice (.bayChange id old new))).mp :=
      (congrArg State.mp (offerAll_of_mp (s := s.offerNotice (.bayChange id old new)) (t := u) rfl (s.failNotices id)) :)
    obtain ⟨hends, hmember⟩ := bayEnds_of (s := s) (address := address) (i := i) (told := s.failNotices id)
      (m := { m with state := .failed })
      (hexec.trans (congrArg Host.Outcome.next hfinish)) rfl hshelves hchanges hmp rfl rfl rfl rfl rfl
    exact ⟨_, hends, hmember, fun b hb => memberDown_set_named (u := u) hn hb, fun k hk => memberDown_set_other (u := u) hk, rfl⟩
  · obtain ⟨sm, hshelves, hchanges, hexec⟩ := hpoll (hmoved (by rw [hold, hnew]; nofun))
    obtain ⟨_, hfinish⟩ := gone_joining (s := s) (x := .bayChange id old new) (sm := sm) rfl hm hb hopen he hw hlw
    have hreports : bayReports id old new = [.driveGone id] := by
      rw [bayReports, hold, hnew]
      rfl
    rw [hreports] at hexec
    obtain ⟨hends, hmember⟩ := bayEnds_of (s := s) (address := address) (i := i) (told := [.memberState id .joining .absent])
      (m := Member.absent)
      (hexec.trans (congrArg Host.Outcome.next hfinish)) rfl hshelves hchanges rfl rfl rfl rfl rfl rfl
    exact ⟨_, hends, hmember, rfl, rfl, rfl⟩

/-! ## The rounds (R139) -/

theorem polls_iff (k : Stage) : k.polls = true ↔ k = .labelChecks ∨ k = .service := by
  cases k <;> simp [Stage.polls]

theorem execPollRoundStart_due {s : State} {w : Nat} (hs : s.quiet) (hstage : s.stage = .labelChecks ∨ s.stage = .service)
    (hnone : s.sm.transaction = none) (hw : s.sm.roundStart = some w) (hdue : w + s.sm.pollPeriod * 1000 ≤ s.clock.now) :
    exec .pollRoundStart s = .next (beginRound s) := by
  have hexec : exec .pollRoundStart s = conclude s (beginRound s) := by
    show execPollRoundStart s = _
    unfold execPollRoundStart
    rw [hw]
    exact if_pos ⟨(polls_iff _).2 hstage, hnone, hdue⟩
  rw [hexec]
  exact conclude_quiet hs rfl rfl rfl

theorem execPollRoundStart_early {s : State}
    (h : ¬((s.stage = .labelChecks ∨ s.stage = .service) ∧ s.sm.transaction = none
      ∧ ∃ w, s.sm.roundStart = some w ∧ w + s.sm.pollPeriod * 1000 ≤ s.clock.now)) : exec .pollRoundStart s = .next s := by
  show execPollRoundStart s = _
  unfold execPollRoundStart
  split
  · rfl
  · next w hw =>
    refine if_neg fun hdue => h ?_
    obtain ⟨hstage, hnone, hlate⟩ := hdue
    exact ⟨(polls_iff _).1 hstage, hnone, w, hw, hlate⟩

/-- With the same bays nothing is compared. -/
theorem baysTaken_same {s : State} {address : Nat} {held bays : List Bay} (h : held = bays) (l : List Nat) :
    s.baysTaken address held bays (l.filter (bayDiffers held bays)) = s := by
  subst h
  rw [List.filter_eq_nil_iff.2 fun i _ hd => Bool.false_ne_true ((bayDiffers_same rfl).symm.trans hd)]
  rfl

theorem finish_polled {s : State} (hs : s.quiet) (m : MsgPort) (sm : ShelfMonitor) :
    finish s { s with mp := m, sm := sm } = { s with mp := m, sm := sm } := finish_quiet hs rfl rfl rfl

/-- Settles O51: the rounds, a good answer by how the bays have changed, and each report by the state of the member. -/
theorem shelvesPolled : Obligations.ShelvesPolled := by
  refine ⟨fun s hs => ?_, fun u id => ?_, fun u id capacity formatOk => ?_⟩
  · intro polled goOn due
    refine ⟨fun hdue => ?_, fun hearly => execPollRoundStart_early hearly, fun hnone a => execStatePollEnd_none hnone a,
      fun address start answer htrans ht hl hc => ?_⟩
    · obtain ⟨hstage, hnone, w, hw, hlate⟩ := hdue
      exact execPollRoundStart_due hs hstage hnone hw hlate
    · intro e faulted bays taken id old new changed reports noticed shelfTold
      have ha : answerOf answer = ⟨faulted, bays⟩ :=
        congrArg (fun f => ShelfAnswer.mk f bays) (decide_not (p := byteAt answer 0 = 0)).symm
      have hexec := execStatePollEnd_good htrans ht hl hc
      rw [ha] at hexec
      refine ⟨hexec, fun hsame => ?_, fun i hi hup hfault ho => poll_one_bay_ends ha hs htrans ht hl hc hi hup hfault ho⟩
      have hnone : (s.shelfTold address ⟨faulted, bays⟩).baysTaken address (s.shelf address).bays bays
          ((List.range 16).filter (bayDiffers (s.shelf address).bays bays)) = s.shelfTold address ⟨faulted, bays⟩ :=
        baysTaken_same hsame _
      rw [show (ShelfAnswer.mk faulted bays).bays = bays from rfl, hnone] at hexec
      refine ⟨fun hup hfault => ?_, fun hnews => ?_⟩
      · rw [show s.shelfTold address ⟨faulted, bays⟩ = taken from if_pos ⟨hup, hfault⟩] at hexec
        exact hexec.trans (congrArg Host.Outcome.next (finish_polled hs s.mp _))
      · have htold : s.shelfTold address ⟨faulted, bays⟩
            = { taken with mp := (s.offerNotice (.shelfUp address faulted (bays.filter Bay.present).length)).mp } :=
          (if_neg (Classical.not_and_iff_not_or_not.2 hnews)).trans (offerNotice_of_mp (s := s) (t := taken) _ rfl)
        rw [htold] at hexec
        refine hexec.trans ((congrArg Host.Outcome.next (finish_polled hs _ _)).trans ?_)
        exact congrArg Host.Outcome.next (offerNotice_of_mp (s := s) (t := goOn address taken) _ rfl).symm
  · intro m gone absent
    have hmoves (h : m.state ≠ .absent) : changeMember id Member.absent u = absent := changeMember_moves h
    refine ⟨driveGone_absent, fun h => (driveGone_present h).trans (hmoves (by rw [h]; nofun)), fun tag q verified durable h hb => ?_,
      driveGone_up⟩
    refine (driveGone_joining h hb).trans (congrArg (endCommands _) ?_)
    exact congrArg (fun t => pmWork tag (.member id .unadmitted) (setBusy (some (.joinFailed tag id)) t))
      (hmoves (by rw [h]; nofun))
  · intro m appeared entered listed
    refine ⟨fun h => ?_, fun h => ?_, driveAppeared_known capacity formatOk⟩
    · refine (driveAppeared_absent capacity formatOk h).trans ?_
      rw [changeMember_of_mp (r := u) (t := u.setErrorRun id 0) (was := .absent) (now := .present) h rfl (by nofun) rfl]
      exact (offerNotice_of_mp (s := u)
        (t := { listed with dp := { u.dp with errorRuns := tableWrite 0 u.dp.errorRuns id 0 } }) _ rfl).symm
    · refine (driveAppeared_present capacity formatOk h).trans ?_
      exact congrArg (fun st => u.setMember id { m with state := st, capacity := capacity, formatOk := formatOk }) h

end Sys2Proof.Machine
end

section
/-! PROOFS. The map store: its blocks, the head, the next operation, and a program that fails (R151 to R154). -/

namespace Sys2Proof.Machine

/-! ## The blocks of the ring (R153, R154) -/

theorem mem_blocksIn {s : State} {c : BlockCond} {b : Nat} : b ∈ s.blocksIn c ↔ b < 64 ∧ (s.storeBlock b).cond = c := by
  rw [State.blocksIn, List.mem_filter, List.mem_range, decide_eq_true_iff]
  rfl

theorem blocksIn_nodup (s : State) (c : BlockCond) : (s.blocksIn c).Nodup := List.nodup_range.filter _

theorem blocksIn_congr {s t : State} {c : BlockCond}
    (h : ∀ b, b < 64 → ((t.storeBlock b).cond = c ↔ (s.storeBlock b).cond = c)) : t.blocksIn c = s.blocksIn c :=
  List.filter_congr fun b hb => decide_eq_decide.2 (h b (List.mem_range.1 hb))

/-- One block that joins a condition. -/
theorem length_blocksIn_joins {s t : State} {c : BlockCond} {b : Nat} (hb : b < 64) (hs : (s.storeBlock b).cond ≠ c)
    (ht : (t.storeBlock b).cond = c) (ho : ∀ k, k ≠ b → ((t.storeBlock k).cond = c ↔ (s.storeBlock k).cond = c)) :
    (t.blocksIn c).length = (s.blocksIn c).length + 1 := by
  have hperm : (t.blocksIn c).Perm (b :: s.blocksIn c) := by
    refine (List.perm_ext_iff_of_nodup (blocksIn_nodup t c) (List.nodup_cons.2 ⟨fun h => hs (mem_blocksIn.1 h).2,
      blocksIn_nodup s c⟩)).2 fun k => ?_
    rw [List.mem_cons, mem_blocksIn, mem_blocksIn]
    by_cases hk : k = b
    · rw [hk]
      exact iff_of_true ⟨hb, ht⟩ (Or.inl rfl)
    · rw [ho k hk]
      exact ⟨Or.inr, fun h => h.resolve_left hk⟩
  rw [hperm.length_eq, List.length_cons]

theorem usableBlocks_eq (s : State) : s.usableBlocks = 64 - (s.blocksIn .bad).length := rfl

theorem usableBlocks_retired {s t : State} {b : Nat} (hb : b < 64) (hs : (s.storeBlock b).cond ≠ .bad)
    (ht : (t.storeBlock b).cond = .bad) (ho : ∀ k, k ≠ b → t.storeBlock k = s.storeBlock k) :
    t.usableBlocks = s.usableBlocks - 1 := by
  rw [usableBlocks_eq, usableBlocks_eq, length_blocksIn_joins hb hs ht fun k hk => by rw [ho k hk], Nat.sub_add_eq]

theorem not_mem_blocksAfter (h : Nat) : h ∉ blocksAfter h := fun hm => by
  obtain ⟨i, hi, heq⟩ := List.mem_map.1 hm
  have := List.mem_range.1 hi
  omega

/-- The following block does not depend on the head's own condition. -/
theorem followingBlock_congr {s t : State} {h : Nat}
    (ho : ∀ k, k ≠ h → ((t.storeBlock k).cond = .bad ↔ (s.storeBlock k).cond = .bad)) : t.followingBlock h = s.followingBlock h := by
  have hcongr {l : List Nat} (hl : h ∉ l) : l.find? (fun b => decide ((t.storeBlock b).cond ≠ .bad))
      = l.find? (fun b => decide ((s.storeBlock b).cond ≠ .bad)) := by
    induction l with
    | nil => rfl
    | cons k rest ih =>
      have hk : k ≠ h := fun heq => hl (heq ▸ List.mem_cons_self)
      rw [List.find?_cons, List.find?_cons, ih fun hm => hl (List.mem_cons_of_mem _ hm),
        decide_eq_decide.2 (not_congr (ho k hk))]
  exact hcongr (not_mem_blocksAfter h)

theorem followingBlock_ne {s : State} {h b : Nat} (hb : s.followingBlock h = some b) : b ≠ h := by
  rintro rfl
  exact not_mem_blocksAfter b (List.mem_of_find?_eq_some hb)

theorem followingBlock_lt {s : State} {h b : Nat} (hb : s.followingBlock h = some b) : b < 64 := by
  obtain ⟨i, -, heq⟩ := List.mem_map.1 (List.mem_of_find?_eq_some hb)
  omega

theorem oldestAwaiting_none {s : State} (h : ∀ b, (s.storeBlock b).cond ≠ .awaiting) : s.oldestAwaiting = none := by
  unfold State.oldestAwaiting
  split
  · rfl
  · exact List.find?_eq_none.2 fun b _ hb => h b (of_decide_eq_true hb)

theorem eraseOldest_none {s : State} (h : ∀ b, (s.storeBlock b).cond ≠ .awaiting) : eraseOldest s = s := by
  unfold eraseOldest
  rw [oldestAwaiting_none h]

/-! ## The head (R154) -/

theorem headSpent_iff {s : State} {h : Nat} (hh : s.jc.head = some h) :
    s.headSpent = true ↔ 256 ≤ s.jc.nextPage ∨ (s.storeBlock h).cond ≠ .head := by
  unfold State.headSpent
  rw [hh]
  dsimp only
  rw [Bool.or_eq_true, decide_eq_true_iff, decide_eq_true_iff]
  rfl

theorem headSpent_open {s : State} {h : Nat} (hh : s.jc.head = some h) (hp : s.jc.nextPage < 256)
    (hc : (s.storeBlock h).cond = .head) : s.headSpent = false :=
  Bool.eq_false_iff.2 fun hspent => ((headSpent_iff hh).1 hspent).elim (fun h => absurd hp (Nat.not_lt.2 h)) fun h => h hc

theorem openNext_stays {s : State} (h : s.headSpent = false) : openNext s = s := by
  unfold openNext
  split
  · rfl
  · exact if_neg (by rw [h]; exact Bool.false_ne_true)

theorem openNext_opens {s : State} {h b : Nat} (hh : s.jc.head = some h) (hs : s.headSpent = true)
    (hb : s.followingBlock h = some b) (he : (s.storeBlock b).cond = .erased) :
    openNext s = compactionCheck (moveHead h b s) := by
  unfold openNext
  rw [hh]
  dsimp only
  rw [if_pos hs, hb]
  dsimp only
  rw [he]

theorem compactionCheck_off {s : State} (h : ¬((s.blocksIn .erased).length < 8 ∧ s.jc.state = .writing ∧ s.blocksIn .awaiting = [])) :
    compactionCheck s = s := if_neg h

/-- The head moves on from a block that has left the condition HEAD. -/
theorem moveHead_retired {s : State} {h b : Nat} (hc : (s.storeBlock h).cond ≠ .head) :
    moveHead h b s = { s with jc := { s.jc with
      blocks := tableWrite StoreBlock.written s.jc.blocks b { s.storeBlock b with cond := .head }, head := some b, nextPage := 0 } } := by
  unfold moveHead
  rw [if_neg hc]
  rfl

theorem imageDue_off {s : State} (h : s.jc.state ≠ .compacting) : imageDue s = s := if_neg fun h' => h h'.1

/-! ## The next operation (R151, R157) -/

/-- The journal with a program of a record begun. -/
def State.programs (u : State) (h : Nat) (r : Record) : State :=
  { u with jc := { u.jc with op := some (.program u.clock.now h u.jc.nextPage r) } }

section
variable {s u : State}

theorem kickStore_busy {o : StoreOp} (h : s.jc.op = some o) : kickStore s = s :=
  if_neg fun h' => Option.some_ne_none o (h.symm.trans h'.1)

theorem kickStore_programs {r : Record} {h : Nat} (hop : s.jc.op = none)
    (ha : s.jc.active = true ∨ s.jc.formatWriting = true) (hu : imageDue (openNext s) = u) (hr : u.jc.nextRecord = some r)
    (hspent : u.headSpent = false) (hh : u.jc.head = some h) : kickStore s = u.programs h r := by
  unfold kickStore
  rw [if_pos ⟨hop, ha⟩, hu]
  dsimp only
  rw [hr]
  dsimp only
  rw [if_neg (by rw [hspent]; exact Bool.false_ne_true), programRecord, hh]
  rfl

theorem kickStore_rests (hop : s.jc.op = none) (ha : s.jc.active = true ∨ s.jc.formatWriting = true)
    (hu : imageDue (openNext s) = u) (hr : u.jc.nextRecord = none) (hnone : ∀ b, (u.storeBlock b).cond ≠ .awaiting) :
    kickStore s = u := by
  unfold kickStore
  rw [if_pos ⟨hop, ha⟩, hu]
  dsimp only
  rw [hr]
  exact eraseOldest_none hnone

end

theorem lowerRecord_none_right (a : Option Record) : lowerRecord a none = a := by
  cases a <;> rfl

theorem nextRecord_of {j : Journal} (hq : j.queue = []) (hp : j.storePlace = []) : j.nextRecord = j.imageRecord := by
  rw [Journal.nextRecord, hq, hp]
  cases j.imageRecord <;> rfl

/-- A record of a greater number at the end of the store place does not come first. -/
theorem nextRecord_placed {j : Journal} {r x : Record} (h : j.nextRecord = some r) (hx : r.seq < x.seq) :
    Journal.nextRecord { j with storePlace := j.storePlace ++ [x] } = some r := by
  have hnext : lowerRecord (lowerRecord j.queue.head? j.storePlace.head?) j.imageRecord = some r := h
  cases hp : j.storePlace with
  | cons y rest =>
    rw [hp] at hnext
    exact hnext
  | nil =>
    rw [hp] at hnext
    show lowerRecord (lowerRecord j.queue.head? (some x)) j.imageRecord = some r
    have hbeyond {y : Record} (hy : r.seq ≤ y.seq) (hi : lowerRecord (some y) j.imageRecord = some r) (hne : y ≠ r) :
        lowerRecord (some x) j.imageRecord = some r := by
      cases hi' : j.imageRecord with
      | none =>
        rw [hi'] at hi
        exact absurd (Option.some.inj hi) hne
      | some i =>
        rw [hi', lowerRecord] at hi
        split at hi
        · exact absurd (Option.some.inj hi) hne
        · obtain rfl := Option.some.inj hi
          rw [lowerRecord, if_neg (Nat.not_le.2 hx)]
    cases hq : j.queue.head? with
    | none =>
      rw [hq] at hnext
      have hi : j.imageRecord = some r := hnext
      rw [hi]
      show (if x.seq ≤ r.seq then some x else some r) = some r
      rw [if_neg (Nat.not_le.2 hx)]
    | some q =>
      rw [hq] at hnext
      have hlow : lowerRecord (some q) j.imageRecord = some r := hnext
      by_cases hqr : q = r
      · rw [hqr] at hlow ⊢
        show lowerRecord (if r.seq ≤ x.seq then some r else some x) j.imageRecord = some r
        rw [if_pos (Nat.le_of_lt hx), hlow]
      · show lowerRecord (if q.seq ≤ x.seq then some q else some x) j.imageRecord = some r
        split
        · exact hlow
        · next hqx => exact hbeyond (Nat.le_of_lt (Nat.lt_trans hx (Nat.not_le.1 hqx))) hlow hqr

end Sys2Proof.Machine
end

section
/-! PROOFS. Operations on the map store that end badly: programs, read-backs and erases (R152, R153, R157, R160). -/

namespace Sys2Proof.Machine

/-! ## A program that fails (R152) -/

/-- How a program of a record at a page ends badly, with the kind of its fault. -/
def ProgramFails (s : State) (c : Instr) (kind : FaultKind) (block page : Nat) (r : Record) : Prop :=
  ∃ start, (s.jc.op = some (.program start block page r) ∧ c = .pageProgramEnd false ∧ kind = .storeProgram)
    ∨ (s.jc.op = some (.program start block page r) ∧ c = .storeOpTimeout ∧ start + 50000 ≤ s.clock.now ∧ kind = .storeTimeout)
    ∨ (s.jc.op = some (.readBack start block page r) ∧ c = .storeOpTimeout ∧ start + 50000 ≤ s.clock.now ∧ kind = .storeTimeout)
    ∨ (∃ bytes, s.jc.op = some (.readBack start block page r) ∧ c = .readBackEnd bytes
        ∧ bytes ≠ pageBytes r.seq r.body ∧ kind = .storeProgram)

theorem execStoreOpTimeout_due {s : State} {op : StoreOp} (h : s.jc.op = some op) (hd : op.limit ≤ s.clock.now) :
    exec .storeOpTimeout s = conclude s (storeTimeOut op s) := by
  show execStoreOpTimeout s = _
  unfold execStoreOpTimeout
  rw [h]
  exact if_pos hd

theorem execReadBackEnd_reading {s : State} {start block page : Nat} {r : Record} (h : s.jc.op = some (.readBack start block page r))
    (bytes : List Byte) : exec (.readBackEnd bytes) s = conclude s (readBackEnded bytes block page r s) := by
  show execReadBackEnd bytes s = _
  unfold execReadBackEnd
  rw [h]

theorem execReadBackEnd_good {s : State} {start block page : Nat} {r : Record} (h : s.jc.op = some (.readBack start block page r)) :
    exec (.readBackEnd (pageBytes r.seq r.body)) s = conclude s (recordIsDurable block page r s) :=
  (execReadBackEnd_reading h _).trans (congrArg (conclude s) (if_pos rfl))

theorem execPageProgramEnd_programming {s : State} {start block page : Nat} {r : Record}
    (h : s.jc.op = some (.program start block page r)) (success : Bool) :
    exec (.pageProgramEnd success) s = conclude s (programEnded success block page r s) := by
  show execPageProgramEnd success s = _
  unfold execPageProgramEnd
  rw [h]

theorem ProgramFails.exec {s : State} {c : Instr} {kind : FaultKind} {block page : Nat} {r : Record}
    (h : ProgramFails s c kind block page r) : exec c s = conclude s (storeGoesOn (programFailed kind block page s)) := by
  obtain ⟨start, ⟨hop, rfl, rfl⟩ | ⟨hop, rfl, hd, rfl⟩ | ⟨hop, rfl, hd, rfl⟩ | ⟨bytes, hop, rfl, hne, rfl⟩⟩ := h
  · exact execPageProgramEnd_programming hop false
  · exact (execStoreOpTimeout_due hop hd).trans (congrArg (conclude s) (by rw [storeTimeOut]))
  · exact (execStoreOpTimeout_due hop hd).trans (congrArg (conclude s) (by rw [storeTimeOut]))
  · exact (execReadBackEnd_reading hop bytes).trans (congrArg (conclude s) (if_neg hne))

/-- The fault of an operation on a block of the store. -/
def State.storeFaulted (s : State) (kind : FaultKind) (block : Nat) (j : Journal) : State :=
  State.offerFault (storeFault kind block) { s with jc := j }

theorem storeFaulted_eq (s : State) (kind : FaultKind) (block : Nat) (j : Journal) :
    s.storeFaulted kind block j = { s with jc := j, mp := (s.offerFault (storeFault kind block)).mp } :=
  offerFault_of_mp (s := s) _ rfl

/-- The journal once a program has failed. -/
def Journal.programLost (j : Journal) (block page : Nat) (e : StoreBlock) : Journal :=
  { j with
    blocks := tableWrite StoreBlock.written j.blocks block e, nextPage := page + 1, op := none,
    counters := { j.counters with programFailures := min (j.counters.programFailures + 1) 4294967295 } }

theorem programFailed_kept {s : State} {kind : FaultKind} {block page : Nat} (h : (s.storeBlock block).failedPages ≠ 2) :
    programFailed kind block page s = s.storeFaulted kind block (s.jc.programLost block page
      { s.storeBlock block with failedPages := (s.storeBlock block).failedPages + 1 }) := by
  obtain ⟨m, hm⟩ := offerFault_eq (storeFault kind block) s
  unfold programFailed
  rw [storeFaulted_eq, hm]
  exact if_neg fun h' => h (Nat.succ.inj h')

/-- The journal once a block is bad. -/
def Journal.badBlock (j : Journal) (block : Nat) (e : StoreBlock) : Journal :=
  { j with
    blocks := tableWrite StoreBlock.written j.blocks block e
    counters := { j.counters with retired := min (j.counters.retired + 1) 4294967295 } }

/-- The journal with the BLOCK_RETIRE of a block in the store place. -/
def Journal.retirePlaced (j : Journal) (block : Nat) : Journal :=
  if j.formatWriting ∧ j.nextSeq ≤ 2 then
    { j with storePlace := j.storePlace ++ [⟨3 + j.storePlace.length, .blockRetire block, .jc, none⟩] }
  else { j with storePlace := j.storePlace ++ [⟨j.nextSeq, .blockRetire block, .jc, none⟩], nextSeq := j.nextSeq + 1 }

theorem placeRetire_eq {s : State} {block : Nat} (h : s.jc.nextSeq ≤ 4294967295) :
    placeRetire block s = { s with jc := s.jc.retirePlaced block } := by
  unfold placeRetire Journal.retirePlaced
  by_cases hf : s.jc.formatWriting = true ∧ s.jc.nextSeq ≤ 2
  · rw [if_pos hf, if_pos hf]
    rfl
  · rw [if_neg hf, if_neg hf]
    exact if_pos h

/-- A block retired: its BLOCK_RETIRE placed, and the freeze where too few blocks are left. -/
theorem retireBlock_eq {s : State} {block : Nat} (hb : block < 64) (hbad : (s.storeBlock block).cond ≠ .bad)
    (hn : s.jc.nextSeq ≤ 4294967295) :
    retireBlock block s = { s with
      jc := (s.jc.badBlock block { s.storeBlock block with cond := .bad }).retirePlaced block,
      agenda := s.agenda ++ if s.usableBlocks ≤ 16 then [.freeze .fewBlocks] else [] } := by
  let t : State := { s with jc := (s.jc.badBlock block { s.storeBlock block with cond := .bad }).retirePlaced block }
  have hplaced : placeRetire block (markBad block s) = t := placeRetire_eq (s := markBad block s) hn
  have hblocks : t.jc.blocks = tableWrite StoreBlock.written s.jc.blocks block { s.storeBlock block with cond := .bad } := by
    show ((s.jc.badBlock block _).retirePlaced block).blocks = _
    unfold Journal.retirePlaced
    split <;> rfl
  have hread (k : Nat) : t.storeBlock k = tableRead StoreBlock.written
      (tableWrite StoreBlock.written s.jc.blocks block { s.storeBlock block with cond := .bad }) k := by
    rw [State.storeBlock, hblocks]
  have husable : t.usableBlocks = s.usableBlocks - 1 := usableBlocks_retired hb hbad
    (by rw [hread, tableRead_tableWrite_same]) fun k hk => by
      rw [hread, tableRead_tableWrite_other _ _ _ hk]
      rfl
  unfold retireBlock
  dsimp only
  rw [hplaced, husable]
  by_cases hfew : s.usableBlocks ≤ 16
  · rw [if_pos (by omega), if_pos hfew]
    rfl
  · rw [if_neg (by omega), if_neg hfew, List.append_nil]

theorem programFailed_retires {s : State} {kind : FaultKind} {block page : Nat} (h : (s.storeBlock block).failedPages = 2)
    (hb : block < 64) (hbad : (s.storeBlock block).cond ≠ .bad) (hn : s.jc.nextSeq ≤ 4294967295) :
    programFailed kind block page s = { s.storeFaulted kind block
        (((s.jc.programLost block page { s.storeBlock block with failedPages := 3 }).badBlock block ⟨.bad, 3⟩).retirePlaced block)
      with agenda := s.agenda ++ if s.usableBlocks ≤ 16 then [.freeze .fewBlocks] else [] } := by
  obtain ⟨m, hm⟩ := offerFault_eq (storeFault kind block) s
  let u : State := { s with
    mp := m, jc := s.jc.programLost block page { s.storeBlock block with failedPages := 3 } }
  have hread (k : Nat) : u.storeBlock k = tableRead StoreBlock.written
    (tableWrite StoreBlock.written s.jc.blocks block { s.storeBlock block with failedPages := 3 }) k := rfl
  have hself : u.storeBlock block = { s.storeBlock block with failedPages := 3 } := tableRead_tableWrite_same _ _ _ _
  have husable : u.usableBlocks = s.usableBlocks := by
    rw [usableBlocks_eq, usableBlocks_eq, blocksIn_congr (s := s) (t := u) fun k _ => ?_]
    by_cases hk : k = block
    · rw [hk, hself]
    · rw [hread, tableRead_tableWrite_other _ _ _ hk]
      rfl
  have hretire : programFailed kind block page s = retireBlock block u := by
    unfold programFailed
    rw [hm]
    refine (if_pos (congrArg (· + 1) h)).trans (congrArg (retireBlock block) ?_)
    show State.onJc _ (State.setStoreBlock block
      { s.storeBlock block with failedPages := (s.storeBlock block).failedPages + 1 } _) = _
    rw [h]
    rfl
  rw [hretire, retireBlock_eq (s := u) hb (by rw [hself]; exact hbad) hn, husable, hself, storeFaulted_eq, hm]

end Sys2Proof.Machine
end

section
/-! PROOFS. A FORMAT: every block at its values, the erasing of the 64 blocks, and the fresh image (R160). -/

namespace Sys2Proof.Machine

/-! ## The beginning -/

/-- A table in its form reads the default below its least key. -/
theorem tableRead_below {α : Type} [DecidableEq α] {d : α} {t : List (Nat × α)} {low k : Nat} (hw : tableWfFrom d low t = true)
    (hk : k < low) : tableRead d t k = d := by
  induction t generalizing low with
  | nil => rfl
  | cons e rest ih =>
    obtain ⟨j, v⟩ := e
    simp only [tableWfFrom, Bool.and_eq_true, decide_eq_true_eq] at hw
    obtain ⟨⟨hlow, -⟩, hrest⟩ := hw
    exact (if_neg (by omega)).trans (ih hrest (by omega))

/-- What a table reads once every entry is mapped, and those that become the default are left out. -/
theorem tableRead_mapped {α : Type} [DecidableEq α] {d : α} {f : α → α} (hd : f d = d) {t : List (Nat × α)} {low : Nat}
    (hw : tableWfFrom d low t = true) (k : Nat) :
    tableRead d ((t.map (fun e => (e.1, f e.2))).filter (fun e => e.2 ≠ d)) k = f (tableRead d t k) := by
  induction t generalizing low with
  | nil => exact hd.symm
  | cons e rest ih =>
    obtain ⟨j, v⟩ := e
    simp only [tableWfFrom, Bool.and_eq_true, decide_eq_true_eq] at hw
    obtain ⟨-, hrest⟩ := hw
    have hih := ih hrest
    rw [List.map_cons, List.filter_cons]
    by_cases hjk : j = k
    · subst hjk
      have hself : tableRead d ((j, v) :: rest) j = v := if_pos rfl
      rw [hself]
      split
      · exact if_pos rfl
      · next hdef =>
        have hv : f v = d := by simpa using hdef
        rw [hih, tableRead_below hrest (Nat.lt_succ_self j), hd, hv]
    · have hother : tableRead d ((j, v) :: rest) k = tableRead d rest k := if_neg hjk
      rw [hother, ← hih]
      split
      · exact if_neg hjk
      · rfl

/-- The state in which an accepted FORMAT begins its erasing. -/
def State.formatBegun (s : State) (tag : ReqTag) (arrayId : BitVec 64) : State :=
  { s with
    part := .starting
    stage := .service
    pm := PlacementMap.reset
    gu := { GrantUnit.reset with
      holds := (s.gu.holds.map (fun e => (e.1, Hold.free e.2.generation))).filter (fun e => e.2 ≠ Hold.free 0)
      counters := s.gu.counters }
    me := { MoveEngine.reset with counters := s.me.counters }
    sp := { StagingPool.reset with memory := s.sp.memory }
    dp := { DrivePort.reset with
      labels := s.dp.labels, counters := s.dp.counters, flush := .waiting 1 s.clock.now, sent := s.dp.sent ++ [.flush] }
    sm := { ShelfMonitor.reset with
      roundStart := some s.clock.now, transaction := some (0, s.clock.now)
      counters := { s.sm.counters with polls := bump s.sm.counters.polls } }
    jc := { Journal.reset s.clock.now with
      op := some (.erase s.clock.now 0), counters := s.jc.counters, format := some ⟨tag, arrayId, false⟩ }
    agenda := [] }

theorem formatBegun_freeOrder (s : State) (tag : ReqTag) (arrayId : BitVec 64) :
    (s.formatBegun tag arrayId).gu.freeOrder = List.range 512 ∧ (s.formatBegun tag arrayId).dp.freeOrder = List.range 128 := by
  constructor
  · dsimp only [State.formatBegun, GrantUnit.reset]
  · dsimp only [State.formatBegun, DrivePort.reset]

theorem beginFormat_eq {s : State} (tag : ReqTag) (arrayId : BitVec 64) (hd : s.gu.deferred = [])
    (he : s.entriesWhere (fun _ => true) = []) : beginFormat tag arrayId s = s.formatBegun tag arrayId := by
  have hdef : forEach refuseDeferred s.gu.deferred { s with part := .starting } = { s with part := .starting } := by
    rw [hd]
    rfl
  have hcancel : forEach cancelEntry (State.entriesWhere { s with part := .starting } (fun _ => true)) { s with part := .starting }
      = { s with part := .starting } := by
    rw [show State.entriesWhere { s with part := .starting } (fun _ => true) = [] from he]
    rfl
  unfold beginFormat formatReset
  dsimp only
  rw [hdef, hcancel]
  rfl

section
variable {s : State} {tag : ReqTag} {p : List Byte} (ht : s.takeable .format tag = some ⟨tag, .format, p, false⟩)
include ht

theorem exec_format_refused (hs : s.quiet) {r : Result} (hr : s.formatRefusal (fieldAt p 0 8) = some r) :
    exec (.format tag) s = .next (s.answer tag r .empty) := by
  show execFormat tag s = _
  unfold execFormat
  rw [ht]
  dsimp only
  rw [hr]
  exact congrArg Host.Outcome.next (finish_refuse hs _ _)

theorem exec_format_accepted (hr : s.formatRefusal (fieldAt p 0 8) = none) (hd : s.gu.deferred = [])
    (he : s.entriesWhere (fun _ => true) = []) :
    exec (.format tag) s
      = .next { (s.markTaken tag).formatBegun tag (BitVec.ofNat 64 (fieldAt p 0 8)) with clock := ⟨s.clock.now, 1⟩ } := by
  show execFormat tag s = _
  unfold execFormat
  rw [ht]
  dsimp only
  rw [hr]
  dsimp only
  rw [beginFormat_eq (s := s.markTaken tag) _ _ hd he, concludeReset, finishReset_quiet rfl]
  rfl

end

theorem formatRefusal_open {s : State} (h : s.part = .frozen ∨ s.part = .blank none ∨ s.part = .blank (some .fewBlocks)) (a : Nat) :
    s.formatRefusal a = if a = 0 then some .badField else none := by
  unfold State.formatRefusal
  obtain h | h | h := h <;> rw [h]

/-! ## The erasing -/

/-- A FORMAT that fails, in a state with nothing posted. -/
def State.formatFailed (t : State) (tag : ReqTag) : State :=
  State.answer tag .journalDown .empty
    { t with
      part := .blank (some .fewBlocks), pm := { t.pm with members := [] }, agenda := [],
      jc := { t.jc with
        format := none, op := none, head := none, nextPage := 0, nextSeq := 0, queue := [], storePlace := [],
        imageRecord := none, imageStart := none, durable := Account.fresh } }

theorem conclude_failFormat {s t : State} (tag : ReqTag) (hc : t.clock = s.clock) (hp : t.pending = s.pending)
    (hme : t.me = s.me) : conclude s (failFormat tag { t with agenda := [] }) = .next (t.formatFailed tag) := by
  have heq : failFormat tag { t with agenda := [] } = t.formatFailed tag := rfl
  obtain ⟨m, hm⟩ := answer_eq tag .journalDown .empty
    { t with
      part := .blank (some .fewBlocks), pm := { t.pm with members := [] }, agenda := [],
      jc := { t.jc with
        format := none, op := none, head := none, nextPage := 0, nextSeq := 0, queue := [], storePlace := [],
        imageRecord := none, imageStart := none, durable := Account.fresh } }
  rw [heq, State.formatFailed, hm]
  exact conclude_quiet rfl hc hp hme

/-- The state in which an erase of a FORMAT has failed. -/
def State.formatLost (s : State) (kind : FaultKind) (block : Nat) : State :=
  s.storeFaulted kind block { s.jc with
    blocks := tableWrite StoreBlock.written s.jc.blocks block { s.storeBlock block with cond := .bad },
    op := none,
    counters := { s.jc.counters with
      eraseFailures := min (s.jc.counters.eraseFailures + 1) 4294967295,
      retired := min (s.jc.counters.retired + 1) 4294967295 } }

theorem formatLost_eq (s : State) (kind : FaultKind) (block : Nat) : s.formatLost kind block =
    { s with
      mp := (s.offerFault (storeFault kind block)).mp
      jc := { s.jc with
        blocks := tableWrite StoreBlock.written s.jc.blocks block { s.storeBlock block with cond := .bad },
        op := none,
        counters := { s.jc.counters with
          eraseFailures := min (s.jc.counters.eraseFailures + 1) 4294967295,
          retired := min (s.jc.counters.retired + 1) 4294967295 } } } := storeFaulted_eq ..

theorem formatEraseFailed_eq (s : State) (kind : FaultKind) (block : Nat) :
    formatEraseFailed kind block s = s.formatLost kind block := by
  obtain ⟨m, hm⟩ := offerFault_eq (storeFault kind block) s
  unfold formatEraseFailed
  rw [formatLost_eq, hm]
  rfl

theorem execEraseEnd_erasing {s : State} {start block : Nat} (h : s.jc.op = some (.erase start block)) (success : Bool) :
    exec (.eraseEnd success) s
      = conclude s (if success then eraseDone block s else eraseLost .storeErase block s) := by
  show execEraseEnd success s = _
  unfold execEraseEnd
  rw [h]

theorem eraseDone_format {s : State} {f : FormatWork} (hf : s.jc.format = some f) (block : Nat) :
    eraseDone block s = formatErased f block (eraseSucceeded block s) := by
  unfold eraseDone
  rw [hf]

theorem eraseLost_format {s : State} {f : FormatWork} (hf : s.jc.format = some f) (kind : FaultKind) (block : Nat) :
    eraseLost kind block s = formatErased f block (s.formatLost kind block) := by
  unfold eraseLost
  rw [hf]
  exact congrArg (formatErased f block) (formatEraseFailed_eq ..)

/-- How an erase ends badly, with the kind of its fault. -/
def EraseFails (s : State) (c : Instr) (kind : FaultKind) (start : Nat) : Prop :=
  (c = .eraseEnd false ∧ kind = .storeErase)
    ∨ (c = .storeOpTimeout ∧ start + 2000000 ≤ s.clock.now ∧ kind = .storeTimeout)

theorem EraseFails.exec {s : State} {c : Instr} {kind : FaultKind} {start block : Nat} (h : EraseFails s c kind start)
    (hop : s.jc.op = some (.erase start block)) : exec c s = conclude s (eraseLost kind block s) := by
  obtain ⟨rfl, rfl⟩ | ⟨rfl, hd, rfl⟩ := h
  · exact execEraseEnd_erasing hop false
  · exact execStoreOpTimeout_due hop hd

theorem formatErased_more {block : Nat} (f : FormatWork) (h : block < 63) (t : State) :
    formatErased f block t = { t with jc := { t.jc with op := some (.erase t.clock.now (block + 1)) } } :=
  if_pos (Nat.succ_lt_succ h)

theorem formatErased_few {t : State} (f : FormatWork) (hop : t.jc.op = none) (ha : t.agenda = [])
    (h : (t.blocksIn .erased).length < 16) : formatErased f 63 t = failFormat f.tag { t with agenda := [] } := by
  have hidle : t.onJc (fun j => { j with op := none }) = t := by
    rw [← hop]
    rfl
  refine (if_neg (Nat.lt_irrefl 64)).trans ((if_pos h).trans ?_)
  rw [hidle, cleared_eq ha]

theorem formatErased_last {t : State} (f : FormatWork) (hop : t.jc.op = none) (h : 16 ≤ (t.blocksIn .erased).length) :
    formatErased f 63 t = writeFormatImage f t := by
  have hidle : t.onJc (fun j => { j with op := none }) = t := by
    rw [← hop]
    rfl
  refine (if_neg (Nat.lt_irrefl 64)).trans ((if_neg (Nat.not_lt.2 h)).trans ?_)
  rw [hidle]

/-! ## The image -/

theorem getLsbD_poolOf_foldl {ids : List Nat} {b : Nat} (hids : ∀ i ∈ ids, i < 64) (acc : BitVec 64) :
    (ids.foldl (fun b t => b ||| (1#64 <<< t)) acc).getLsbD b = (acc.getLsbD b || decide (b ∈ ids)) := by
  induction ids generalizing acc with
  | nil => simp
  | cons i rest ih =>
    rw [List.foldl_cons, ih fun k hk => hids k (List.mem_cons_of_mem _ hk)]
    have hone : (1#64 <<< i).getLsbD b = decide (b = i) := by
      rw [BitVec.getLsbD_shiftLeft]
      by_cases h : b = i
      · simp [h, hids i List.mem_cons_self]
      · by_cases hlt : b < i
        · simp [h, hlt]
        · have hsub : b - i ≠ 0 := by omega
          simp [h, hlt, hsub]
    rw [BitVec.getLsbD_or, hone, Bool.or_assoc]
    simp [List.mem_cons]

/-- The bad-block list as flags (R153). -/
theorem getLsbD_badFlags (t : State) {b : Nat} (hb : b < 64) :
    t.badFlags.getLsbD b = true ↔ (t.storeBlock b).cond = .bad := by
  rw [State.badFlags, poolOf, getLsbD_poolOf_foldl fun i hi => (mem_blocksIn.1 hi).1]
  simp [mem_blocksIn, hb]

theorem blocksIn_pairwise (t : State) (c : BlockCond) : (t.blocksIn c).Pairwise (· < ·) := List.pairwise_lt_range.filter _

/-- The lowest block in a condition comes first. -/
theorem blocksIn_cons {t : State} {c : BlockCond} {b : Nat} (hb : b < 64) (hc : (t.storeBlock b).cond = c)
    (hl : ∀ k, k < b → (t.storeBlock k).cond ≠ c) : ∃ rest, t.blocksIn c = b :: rest := by
  have hin : b ∈ t.blocksIn c := mem_blocksIn.2 ⟨hb, hc⟩
  have hup := blocksIn_pairwise t c
  cases heq : t.blocksIn c with
  | nil => exact absurd (heq ▸ hin) List.not_mem_nil
  | cons x rest =>
    rw [heq] at hin hup
    have hx : (t.storeBlock x).cond = c := (mem_blocksIn.1 (heq ▸ List.mem_cons_self)).2
    rcases List.mem_cons.1 hin with rfl | hrest
    · exact ⟨rest, rfl⟩
    · exact absurd hx (hl x ((List.pairwise_cons.1 hup).1 b hrest))

/-- The first record of a FORMAT's image. -/
def formatFirst (arrayId bad : BitVec 64) : Record :=
  ⟨1, .imageBegin arrayId Params.afterFormat bad false ⟨0, 0, 0, 0, 0, 0⟩, .jc, none⟩

theorem formatWriting_erased {j : Journal} {f : FormatWork} (hf : j.format = some f) (he : f.erased = true) :
    j.formatWriting = true := by
  unfold Journal.formatWriting
  rw [hf, Option.map_some, he]
  exact decide_eq_true rfl

theorem writeFormatImage_eq {t : State} {head : Nat} (f : FormatWork) (hh : head < 64) (hc : (t.storeBlock head).cond = .erased)
    (hl : ∀ b, b < head → (t.storeBlock b).cond ≠ .erased) (hop : t.jc.op = none) (hst : t.jc.state = .none)
    (hq : t.jc.queue = []) (hsp : t.jc.storePlace = []) :
    writeFormatImage f t = { t with jc := { t.jc with
      format := some { f with erased := true },
      blocks := tableWrite StoreBlock.written t.jc.blocks head { t.storeBlock head with cond := .head },
      head := some head, nextPage := 0, nextSeq := 2, imageRecord := some (formatFirst f.arrayId t.badFlags),
      durable := { Account.fresh with arrayId := f.arrayId, bad := t.badFlags },
      op := some (.program t.clock.now head 0 (formatFirst f.arrayId t.badFlags)) } } := by
  obtain ⟨rest, hrest⟩ := blocksIn_cons hh hc hl
  let u : State := { t with jc := { t.jc with
    format := some { f with erased := true },
    blocks := tableWrite StoreBlock.written t.jc.blocks head { t.storeBlock head with cond := .head },
    head := some head, nextPage := 0, nextSeq := 2, imageRecord := some (formatFirst f.arrayId t.badFlags),
    durable := { Account.fresh with arrayId := f.arrayId, bad := t.badFlags } } }
  have hwrite : writeFormatImage f t = kickStore u := by
    unfold writeFormatImage
    rw [hrest]
    rfl
  have hself : u.storeBlock head = { t.storeBlock head with cond := .head } :=
    tableRead_tableWrite_same StoreBlock.written t.jc.blocks head { t.storeBlock head with cond := .head }
  have hopen : u.headSpent = false := headSpent_open (h := head) rfl (Nat.zero_lt_succ 255)
    (by rw [hself])
  have hoff : u.jc.state ≠ .compacting := by
    show t.jc.state ≠ .compacting
    rw [hst]
    nofun
  rw [hwrite, kickStore_programs (s := u) (u := u) (r := formatFirst f.arrayId t.badFlags) (h := head) hop
    (Or.inr (formatWriting_erased (f := { f with erased := true }) rfl rfl))
    ((congrArg imageDue (openNext_stays hopen)).trans (imageDue_off hoff)) (nextRecord_of hq hsp) hopen rfl]
  rfl

end Sys2Proof.Machine
end

section
/-! PROOFS. The image of a FORMAT, its failed programs and its end (R152, R160). -/

namespace Sys2Proof.Machine

theorem storeGoesOn_few {s : State} {f : FormatWork} (hf : s.jc.format = some f) (h : s.usableBlocks < 16) :
    storeGoesOn s = failFormat f.tag { s with agenda := [] } := by
  unfold storeGoesOn
  rw [hf]
  exact if_pos h

theorem storeGoesOn_format {s : State} {f : FormatWork} (hf : s.jc.format = some f) (h : 16 ≤ s.usableBlocks) :
    storeGoesOn s = kickStore s := by
  unfold storeGoesOn
  rw [hf]
  exact if_neg (Nat.not_lt.2 h)

/-! ## Three exchanges that post nothing -/

theorem finish_three {s t u v w : State} {i j k : Internal} (ha : t.agenda = [i, j, k])
    (hu : handle i { t with agenda := [] } = u) (hqu : u.agenda = []) (hv : handle j u = v) (hqv : v.agenda = [])
    (hw : handle k v = w) (hqw : w.agenda = []) (hc : w.clock = s.clock) (hp : w.pending = s.pending)
    (hj : w.jobsIdle = s.jobsIdle) : finish s t = w := by
  obtain ⟨n, hn⟩ : ∃ n, settleBound = n + 1 + 1 + 1 := ⟨999997, rfl⟩
  have hfirst : settle settleBound t = settle (n + 1 + 1) { u with agenda := [j, k] } := by
    rw [hn, settle_cons (n + 1 + 1) ha (by rw [hu]; exact hqu), hu]
  have hsecond : settle (n + 1 + 1) { u with agenda := [j, k] } = settle (n + 1) { v with agenda := [k] } := by
    have hh : handle j { u with agenda := [] } = v := (congrArg (handle j) (cleared_eq hqu)).trans hv
    rw [settle_cons (n + 1) (t := { u with agenda := [j, k] }) rfl (by rw [show handle j { u with agenda := [] } = v from hh]; exact hqv),
      show handle j { u with agenda := [] } = v from hh]
  have hthird : settle (n + 1) { v with agenda := [k] } = w := by
    have hh : handle k { v with agenda := [] } = w := (congrArg (handle k) (cleared_eq hqv)).trans hw
    rw [settle_one n (t := { v with agenda := [k] }) rfl (by rw [show handle k { v with agenda := [] } = w from hh]; exact hqw)]
    exact hh
  rw [finish, hfirst, hsecond, hthird, offerIdle, hj, Bool.and_not_self, if_neg Bool.false_ne_true, closeStep, ← hc, ← hp]

/-! ## A record of the image is durable -/

/-- The journal once a record of the image, alone in the store, is durable. -/
def Journal.imageKept (j : Journal) (page : Nat) : Journal :=
  { j with
    imageRecord := none, nextPage := page + 1, op := none
    counters := { j.counters with durable := min (j.counters.durable + 1) 4294967295 } }

theorem recordIsDurable_alone {s : State} {r : Record} (block page : Nat) (hq : s.jc.queue = []) (hsp : s.jc.storePlace = [])
    (hi : s.jc.imageRecord = some r) (hr : applyRecord r.seq r.body s.jc.durable = s.jc.durable) :
    recordIsDurable block page r s
      = (((imageEnded r (imageBegun r block { s with jc := s.jc.imageKept page })).post (.recordDurable r)).post .roomServe).post
          .storeNext := by
  have hjc : { s with jc := { s.jc with
        queue := s.jc.queue.filter (fun q => q.seq ≠ r.seq), storePlace := s.jc.storePlace.filter (fun q => q.seq ≠ r.seq),
        imageRecord := if s.jc.imageRecord = some r then none else s.jc.imageRecord,
        durable := applyRecord r.seq r.body s.jc.durable, nextPage := page + 1, op := none,
        counters := { s.jc.counters with durable := bump s.jc.counters.durable } } }
      = { s with jc := s.jc.imageKept page } := by
    rw [hr, if_pos hi, hq, hsp, Journal.imageKept, hq, hsp]
    rfl
  show (((imageEnded r (imageBegun r block _)).post (.recordDurable r)).post .roomServe).post .storeNext = _
  exact congrArg (fun u : State => (((imageEnded r (imageBegun r block u)).post (.recordDurable r)).post .roomServe).post .storeNext)
    hjc

theorem serveRoom_none {s : State} (h : s.jc.roomWait = []) : serveRoom s = s := by
  unfold serveRoom
  rw [h]

theorem openNext_imageDue_stays {s : State} {h : Nat} (hh : s.jc.head = some h) (hp : s.jc.nextPage < 256)
    (hc : (s.storeBlock h).cond = .head) (hst : s.jc.state ≠ .compacting) : imageDue (openNext s) = s :=
  (congrArg imageDue (openNext_stays (headSpent_open hh hp hc))).trans (imageDue_off hst)

/-- The IMAGE_BEGIN of a FORMAT is durable: its IMAGE_END follows. -/
theorem formatImageBegun {s : State} {f : FormatWork} {block page : Nat} {r : Record} (hs : s.quiet) (hf : s.jc.format = some f)
    (he : f.erased = true) (hst : s.jc.state = .none) (hq : s.jc.queue = []) (hsp : s.jc.storePlace = [])
    (hi : s.jc.imageRecord = some r) (hw : s.jc.roomWait = []) (hh : s.jc.head = some block)
    (hc : (s.storeBlock block).cond = .head) (hp : page + 1 < 256) (ho : r.owner = .jc)
    (hr : ∃ arrayId params bad lost counts, r.body = .imageBegin arrayId params bad lost counts) :
    finish s (recordIsDurable block page r s) = { s with jc := { s.jc with
      imageRecord := some ⟨2, .imageEnd 1 0, .jc, none⟩, imageStart := some (r.seq, block), nextSeq := 3,
      nextPage := page + 1, op := some (.program s.clock.now block (page + 1) ⟨2, .imageEnd 1 0, .jc, none⟩),
      counters := { s.jc.counters with durable := min (s.jc.counters.durable + 1) 4294967295 } } } := by
  obtain ⟨arrayId, params, bad, lost, counts, hbody⟩ := hr
  have hwriting : s.jc.formatWriting = true := formatWriting_erased hf he
  let u : State := { s with jc := { s.jc.imageKept page with
    imageStart := some (r.seq, block), imageRecord := some ⟨2, .imageEnd 1 0, .jc, none⟩, nextSeq := 3 } }
  have hbegun : imageEnded r (imageBegun r block { s with jc := s.jc.imageKept page }) = u := by
    have hfirst : imageBegun r block { s with jc := s.jc.imageKept page } = u := by
      have hlen : 3 + s.jc.storePlace.length = 3 := by rw [hsp]; rfl
      unfold imageBegun
      rw [hbody]
      refine (congrArg (fun j => ({ s with jc := j } : State)) (if_pos hwriting)).trans ?_
      show ({ s with jc := { s.jc.imageKept page with
        imageStart := some (r.seq, block), imageRecord := some ⟨2, .imageEnd 1 0, .jc, none⟩,
        nextSeq := 3 + s.jc.storePlace.length } } : State) = u
      rw [hlen]
    rw [hfirst]
    unfold imageEnded
    rw [hbody]
  have hdurable : applyRecord r.seq r.body s.jc.durable = s.jc.durable := by rw [hbody]; rfl
  have howner : ownerDurable r u = u := by
    unfold ownerDurable jcDurable
    rw [ho, hbody]
    show (match s.jc.format, RecordBody.imageBegin arrayId params bad lost counts with
      | some f, .imageEnd .. => formatComplete f u
      | _, _ => u) = u
    rw [hf]
  have hkick : kickStore u = u.programs block ⟨2, .imageEnd 1 0, .jc, none⟩ :=
    kickStore_programs rfl (Or.inr hwriting)
      (openNext_imageDue_stays (s := u) hh hp hc (by rw [show u.jc.state = s.jc.state from rfl, hst]; nofun))
      (nextRecord_of hq hsp) (headSpent_open hh hp hc) hh
  rw [recordIsDurable_alone block page hq hsp hi hdurable, hbegun]
  have hclear : { (((u.post (.recordDurable r)).post .roomServe).post .storeNext) with agenda := [] } = u :=
    (show _ = { u with agenda := [] } from rfl).trans (cleared_eq (t := u) hs)
  refine (finish_three (i := .recordDurable r) (j := .roomServe) (k := .storeNext) (u := u) (v := u) (w := kickStore u)
    ?_ (by rw [hclear]; exact howner) hs (serveRoom_none hw) hs rfl ?_ ?_ ?_ ?_).trans (hkick.trans rfl)
  · show ((u.agenda ++ [_]) ++ [_]) ++ [_] = _
    rw [show u.agenda = [] from hs]
    rfl
  all_goals rw [hkick]
  · exact hs
  all_goals rfl

/-- The journal in service after a FORMAT. -/
def Journal.formatEnded (j : Journal) : Journal :=
  { j with format := none, state := .writing, newestImage := j.imageStart, imageStart := none }

/-- The state in service after a FORMAT, before PART_STATE and the reply. -/
def State.formatEnded (s : State) (f : FormatWork) : State :=
  { s with
    part := .ready, pm := { s.pm with arrayId := f.arrayId }
    me := { s.me with windowStart := some s.clock.now, tokens := s.me.moveRate }, jc := s.jc.formatEnded }

theorem formatComplete_eq (s : State) (f : FormatWork) :
    formatComplete f s = ((s.formatEnded f).offerNotice (.partState .ready)).answer f.tag .ok .empty := rfl

theorem formatComplete_mp (s : State) (f : FormatWork) : ∃ m, formatComplete f s = { s.formatEnded f with mp := m } := by
  obtain ⟨m, hm⟩ := offerNotice_eq (.partState .ready) (s.formatEnded f)
  obtain ⟨m', hm'⟩ := answer_eq f.tag .ok .empty { s.formatEnded f with mp := m }
  exact ⟨m', by rw [formatComplete_eq, hm, hm']⟩

/-- The IMAGE_END of a FORMAT is durable: the part is in service. -/
theorem formatImageEnded {s : State} {f : FormatWork} {block page : Nat} (hs : s.quiet) (hf : s.jc.format = some f)
    (hst : s.jc.state = .none) (hq : s.jc.queue = []) (hsp : s.jc.storePlace = [])
    (hi : s.jc.imageRecord = some ⟨2, .imageEnd 1 0, .jc, none⟩) (hw : s.jc.roomWait = []) (hh : s.jc.head = some block)
    (hc : (s.storeBlock block).cond = .head) (hp : page + 1 < 256) (hn : ∀ b, (s.storeBlock b).cond ≠ .awaiting) :
    finish s (recordIsDurable block page ⟨2, .imageEnd 1 0, .jc, none⟩ s)
      = formatComplete f { s with jc := s.jc.imageKept page } := by
  let u : State := { s with jc := s.jc.imageKept page }
  have hend : imageEnded ⟨2, .imageEnd 1 0, .jc, none⟩ (imageBegun ⟨2, .imageEnd 1 0, .jc, none⟩ block u) = u :=
    if_neg (show s.jc.state ≠ .compacting by rw [hst]; nofun)
  have howner : ownerDurable ⟨2, .imageEnd 1 0, .jc, none⟩ u = formatComplete f u := by
    show jcDurable ⟨2, .imageEnd 1 0, .jc, none⟩ u = _
    unfold jcDurable
    rw [show u.jc.format = some f from hf]
  obtain ⟨m, hm⟩ := formatComplete_mp u f
  let v : State := { u.formatEnded f with mp := m }
  have hkick : kickStore v = v :=
    kickStore_rests rfl (Or.inl rfl) (openNext_imageDue_stays (s := v) hh hp hc (by nofun)) (nextRecord_of hq hsp) hn
  rw [recordIsDurable_alone block page hq hsp hi rfl, hend, hm]
  have hclear : { (((u.post (.recordDurable ⟨2, .imageEnd 1 0, .jc, none⟩)).post .roomServe).post .storeNext) with agenda := [] } = u :=
    (show _ = { u with agenda := [] } from rfl).trans (cleared_eq (t := u) hs)
  refine finish_three (i := .recordDurable ⟨2, .imageEnd 1 0, .jc, none⟩) (j := .roomServe) (k := .storeNext) (u := v) (v := v)
    (w := v) ?_ (by rw [hclear]; exact howner.trans hm) hs (serveRoom_none hw) hs hkick hs rfl rfl rfl
  show ((u.agenda ++ [_]) ++ [_]) ++ [_] = _
  rw [show u.agenda = [] from hs]
  rfl

/-! ## A program of the image fails -/

section
variable {s : State} {f : FormatWork} {block page : Nat} {r : Record} {kind : FaultKind} {c : Instr}
  (hs : s.quiet) (hf : s.jc.format = some f) (he : f.erased = true) (hfails : ProgramFails s c kind block page r)
  (hst : s.jc.state = .none) (hh : s.jc.head = some block) (hr : s.jc.nextRecord = some r)
include hs hf he hfails hst hh hr

/-- The same record at the next page (R152). -/
theorem formatProgram_again (hc : (s.storeBlock block).cond = .head) (hu : 16 ≤ s.usableBlocks)
    (hn : (s.storeBlock block).failedPages ≠ 2) (hp : page + 1 < 256) :
    exec c s = .next (s.storeFaulted kind block { s.jc with
      blocks := tableWrite StoreBlock.written s.jc.blocks block
        { s.storeBlock block with failedPages := (s.storeBlock block).failedPages + 1 },
      nextPage := page + 1, op := some (.program s.clock.now block (page + 1) r),
      counters := { s.jc.counters with programFailures := min (s.jc.counters.programFailures + 1) 4294967295 } }) := by
  let e : StoreBlock := { s.storeBlock block with failedPages := (s.storeBlock block).failedPages + 1 }
  let u : State := { s with jc := s.jc.programLost block page e, mp := (s.offerFault (storeFault kind block)).mp }
  have hprog : programFailed kind block page s = u := (programFailed_kept hn).trans (storeFaulted_eq ..)
  have hself : u.storeBlock block = e := tableRead_tableWrite_same StoreBlock.written s.jc.blocks block e
  have hcond (k : Nat) : (u.storeBlock k).cond = (s.storeBlock k).cond := by
    by_cases hk : k = block
    · rw [hk, hself]
    · exact congrArg StoreBlock.cond (tableRead_tableWrite_other StoreBlock.written s.jc.blocks e hk)
  have husable : u.usableBlocks = s.usableBlocks := by
    rw [usableBlocks_eq, usableBlocks_eq, blocksIn_congr (s := s) (t := u) fun k _ => by rw [hcond]]
  have hopen : imageDue (openNext u) = u :=
    openNext_imageDue_stays (s := u) hh hp (by rw [hcond, hc]) (by rw [show u.jc.state = s.jc.state from rfl, hst]; nofun)
  have hkick : kickStore u = u.programs block r :=
    kickStore_programs rfl (Or.inr (formatWriting_erased hf he)) hopen hr (headSpent_open hh hp (by rw [hcond, hc])) hh
  rw [hfails.exec, hprog, storeGoesOn_format (s := u) hf (by rw [husable]; exact hu), hkick, storeFaulted_eq]
  exact conclude_quiet hs rfl rfl rfl

end

/-- The BLOCK_RETIRE that a FORMAT places: number 2 is kept for its IMAGE_END. -/
theorem retirePlaced_format {j : Journal} (h : j.formatWriting = true) (block : Nat) :
    j.retirePlaced block = { j with
      storePlace := j.storePlace ++ [⟨if j.nextSeq ≤ 2 then 3 + j.storePlace.length else j.nextSeq, .blockRetire block, .jc, none⟩]
      nextSeq := if j.nextSeq ≤ 2 then j.nextSeq else j.nextSeq + 1 } := by
  unfold Journal.retirePlaced
  by_cases hn : j.nextSeq ≤ 2
  · rw [if_pos ⟨h, hn⟩, if_pos hn, if_pos hn]
  · rw [if_neg fun h' => hn h'.2, if_neg hn, if_neg hn]

/-- The state in which the third failed program of a FORMAT has retired the head. -/
def State.headLost (s : State) (kind : FaultKind) (block page : Nat) : State :=
  { s with
    mp := (s.offerFault (storeFault kind block)).mp
    jc := { s.jc with
      blocks := tableWrite StoreBlock.written s.jc.blocks block ⟨.bad, 3⟩, nextPage := page + 1, op := none
      storePlace := s.jc.storePlace ++ [⟨if s.jc.nextSeq ≤ 2 then 3 + s.jc.storePlace.length else s.jc.nextSeq, .blockRetire block,
        .jc, none⟩]
      nextSeq := if s.jc.nextSeq ≤ 2 then s.jc.nextSeq else s.jc.nextSeq + 1
      counters := { s.jc.counters with
        programFailures := min (s.jc.counters.programFailures + 1) 4294967295
        retired := min (s.jc.counters.retired + 1) 4294967295 } }
    agenda := s.agenda ++ if s.usableBlocks ≤ 16 then [.freeze .fewBlocks] else [] }

section
variable {s : State} {block : Nat}

theorem programFailed_format {kind : FaultKind} (page : Nat) (hw : s.jc.formatWriting = true) (hb : block < 64)
    (hc : (s.storeBlock block).cond = .head) (hn : s.jc.nextSeq ≤ 4294967295) (h2 : (s.storeBlock block).failedPages = 2) :
    programFailed kind block page s = s.headLost kind block page := by
  have hplaced := retirePlaced_format (j := (s.jc.programLost block page { s.storeBlock block with failedPages := 3 }).badBlock block
    ⟨.bad, 3⟩) hw block
  have hblocks : tableWrite StoreBlock.written (tableWrite StoreBlock.written s.jc.blocks block
      { s.storeBlock block with failedPages := 3 }) block ⟨.bad, 3⟩ = tableWrite StoreBlock.written s.jc.blocks block ⟨.bad, 3⟩ :=
    tableWrite_tableWrite ..
  rw [programFailed_retires h2 hb (by rw [hc]; nofun) hn, hplaced, storeFaulted_eq, State.headLost, ← hblocks]
  rfl

theorem headLost_storeBlock (kind : FaultKind) (page : Nat) : (s.headLost kind block page).storeBlock block = ⟨.bad, 3⟩ :=
  tableRead_tableWrite_same StoreBlock.written s.jc.blocks block ⟨.bad, 3⟩

theorem headLost_storeBlock_other (kind : FaultKind) (page : Nat) {k : Nat} (h : k ≠ block) :
    (s.headLost kind block page).storeBlock k = s.storeBlock k :=
  tableRead_tableWrite_other StoreBlock.written s.jc.blocks ⟨.bad, 3⟩ h

theorem headLost_usable (kind : FaultKind) (page : Nat) (hb : block < 64) (hc : (s.storeBlock block).cond = .head) :
    (s.headLost kind block page).usableBlocks = s.usableBlocks - 1 :=
  usableBlocks_retired hb (by rw [hc]; nofun) (by rw [headLost_storeBlock]) fun _ hk => headLost_storeBlock_other kind page hk

end

section
variable {s : State} {f : FormatWork} {block page : Nat} {r : Record} {kind : FaultKind} {c : Instr}
  (hf : s.jc.format = some f) (he : f.erased = true) (hfails : ProgramFails s c kind block page r)
  (hb : block < 64) (hc : (s.storeBlock block).cond = .head) (hseq : s.jc.nextSeq ≤ 4294967295)
  (h2 : (s.storeBlock block).failedPages = 2)
include hf he hfails hb hc hseq h2

/-- With 15 usable blocks left the FORMAT fails (R160). -/
theorem formatProgram_few (hu : s.usableBlocks = 16) :
    exec c s = .next ((s.storeFaulted kind block { s.jc with
      blocks := tableWrite StoreBlock.written s.jc.blocks block ⟨.bad, 3⟩
      counters := { s.jc.counters with
        programFailures := min (s.jc.counters.programFailures + 1) 4294967295
        retired := min (s.jc.counters.retired + 1) 4294967295 } }).formatFailed f.tag) := by
  let u := s.headLost kind block page
  have hprog : programFailed kind block page s = u := programFailed_format page (formatWriting_erased hf he) hb hc hseq h2
  have hfew : storeGoesOn u = failFormat f.tag { u with agenda := [] } :=
    storeGoesOn_few (s := u) hf (by rw [headLost_usable kind page hb hc, hu]; decide)
  rw [hfails.exec, hprog, hfew, conclude_failFormat (s := s) (t := u) f.tag rfl rfl rfl, storeFaulted_eq]
  rfl

/-- The next block becomes the head, and the same record is programmed to it (R152, R154). -/
theorem formatProgram_moves {next : Nat} (hs : s.quiet) (hst : s.jc.state = .none) (hh : s.jc.head = some block) (hr : s.jc.nextRecord = some r)
    (hlow : r.seq ≤ 2) (hu : 17 ≤ s.usableBlocks) (hn : s.followingBlock block = some next)
    (hne : (s.storeBlock next).cond = .erased) :
    exec c s = .next (s.storeFaulted kind block { s.jc with
      blocks := tableWrite StoreBlock.written (tableWrite StoreBlock.written s.jc.blocks block ⟨.bad, 3⟩) next
        { s.storeBlock next with cond := .head }
      head := some next, nextPage := 0
      counters := { s.jc.counters with
        programFailures := min (s.jc.counters.programFailures + 1) 4294967295
        retired := min (s.jc.counters.retired + 1) 4294967295 }
      storePlace := s.jc.storePlace ++ [⟨if s.jc.nextSeq ≤ 2 then 3 + s.jc.storePlace.length else s.jc.nextSeq, .blockRetire block,
        .jc, none⟩]
      nextSeq := if s.jc.nextSeq ≤ 2 then s.jc.nextSeq else s.jc.nextSeq + 1
      op := some (.program s.clock.now next 0 r) }) := by
  let u := s.headLost kind block page
  have hprog : programFailed kind block page s = u := programFailed_format page (formatWriting_erased hf he) hb hc hseq h2
  have hgoes : storeGoesOn u = kickStore u :=
    storeGoesOn_format (s := u) hf (by rw [headLost_usable kind page hb hc]; omega)
  have hself : u.storeBlock block = ⟨.bad, 3⟩ := headLost_storeBlock kind page
  have hother {k : Nat} (hk : k ≠ block) : u.storeBlock k = s.storeBlock k := headLost_storeBlock_other kind page hk
  have hnext : next ≠ block := followingBlock_ne hn
  let v : State := { u with jc := { u.jc with
    blocks := tableWrite StoreBlock.written u.jc.blocks next { u.storeBlock next with cond := .head }, head := some next, nextPage := 0 } }
  have hmoved : moveHead block next u = v := moveHead_retired (by rw [hself]; nofun)
  have hopen : openNext u = v := by
    have hspent : u.headSpent = true := (headSpent_iff (s := u) hh).2 (Or.inr (by rw [hself]; nofun))
    have hfollow : u.followingBlock block = some next :=
      (followingBlock_congr (s := s) (t := u) fun k hk => by rw [hother hk]).trans hn
    rw [openNext_opens (s := u) hh hspent hfollow (by rw [hother hnext]; exact hne), hmoved]
    exact compactionCheck_off fun h => by
      have hstate : v.jc.state = .none := hst
      rw [hstate] at h
      exact JournalState.noConfusion h.2.1
  have hdue : imageDue (openNext u) = v := by
    rw [hopen]
    exact imageDue_off (by rw [show v.jc.state = .none from hst]; nofun)
  have hrecord : v.jc.nextRecord = some r := by
    refine nextRecord_placed (j := s.jc) hr ?_
    show r.seq < if s.jc.nextSeq ≤ 2 then 3 + s.jc.storePlace.length else s.jc.nextSeq
    split <;> omega
  have hhead : v.headSpent = false := headSpent_open (h := next) rfl (Nat.zero_lt_succ 255)
    (congrArg StoreBlock.cond (tableRead_tableWrite_same StoreBlock.written u.jc.blocks next { u.storeBlock next with cond := .head }))
  have hkick : kickStore u = v.programs next r :=
    kickStore_programs (s := u) rfl (Or.inr (formatWriting_erased hf he)) hdue hrecord hhead rfl
  have hquiet : u.agenda = [] := by
    show s.agenda ++ _ = []
    rw [hs, if_neg (by omega)]
    rfl
  rw [hfails.exec, hprog, hgoes, hkick, storeFaulted_eq, conclude_quiet (s := s) (t := v.programs next r) hquiet rfl rfl rfl]
  rw [show s.agenda = u.agenda from hs.trans hquiet.symm, ← hother hnext]
  rfl

end

/-! ## The end of the erasing -/

/-- The last erase of a FORMAT has ended and left the state `t`. -/
structure LastErased (s : State) (c : Instr) (f : FormatWork) (t : State) : Prop where
  concludes : exec c s = conclude s (formatErased f 63 t)
  op : t.jc.op = none
  agenda : t.agenda = []
  clock : t.clock = s.clock
  pending : t.pending = s.pending
  me : t.me = s.me
  state : t.jc.state = s.jc.state
  queue : t.jc.queue = s.jc.queue
  storePlace : t.jc.storePlace = s.jc.storePlace

theorem lastErased_lost {s : State} {f : FormatWork} {c : Instr} {kind : FaultKind} {start : Nat} (hs : s.quiet)
    (hf : s.jc.format = some f) (hop : s.jc.op = some (.erase start 63)) (hfail : EraseFails s c kind start) :
    LastErased s c f (s.formatLost kind 63) := by
  have hexec : exec c s = conclude s (formatErased f 63 (s.formatLost kind 63)) := by
    rw [hfail.exec hop, eraseLost_format hf]
  rw [formatLost_eq] at hexec ⊢
  exact ⟨hexec, rfl, hs, rfl, rfl, rfl, rfl, rfl, rfl⟩

theorem lastErased_done {s : State} {f : FormatWork} {start : Nat} (hs : s.quiet) (hf : s.jc.format = some f)
    (hop : s.jc.op = some (.erase start 63)) :
    LastErased s (.eraseEnd true) f { s with jc := { s.jc with
      blocks := tableWrite StoreBlock.written s.jc.blocks 63 ⟨.erased, 0⟩, op := none } } := by
  refine ⟨?_, rfl, hs, rfl, rfl, rfl, rfl, rfl, rfl⟩
  rw [execEraseEnd_erasing hop, if_pos rfl, eraseDone_format hf]
  rfl

section
variable {s t : State} {c : Instr} {f : FormatWork} (ht : LastErased s c f t)
include ht

theorem LastErased.few (h : (t.blocksIn .erased).length < 16) : exec c s = .next (t.formatFailed f.tag) := by
  rw [ht.concludes, formatErased_few f ht.op ht.agenda h, conclude_failFormat f.tag ht.clock ht.pending ht.me]

theorem LastErased.writes {head : Nat} (h : 16 ≤ (t.blocksIn .erased).length) (hh : head < 64)
    (hc : (t.storeBlock head).cond = .erased) (hl : ∀ b, b < head → (t.storeBlock b).cond ≠ .erased) (hst : s.jc.state = .none)
    (hq : s.jc.queue = []) (hsp : s.jc.storePlace = []) :
    exec c s = .next { t with jc := { t.jc with
      format := some { f with erased := true },
      blocks := tableWrite StoreBlock.written t.jc.blocks head { t.storeBlock head with cond := .head },
      head := some head, nextPage := 0, nextSeq := 2, imageRecord := some (formatFirst f.arrayId t.badFlags),
      durable := { Account.fresh with arrayId := f.arrayId, bad := t.badFlags },
      op := some (.program s.clock.now head 0 (formatFirst f.arrayId t.badFlags)) } } := by
  rw [ht.concludes, formatErased_last f ht.op h, writeFormatImage_eq f hh hc hl ht.op (ht.state.trans hst) (ht.queue.trans hq)
    (ht.storePlace.trans hsp), ht.clock]
  exact conclude_quiet ht.agenda rfl ht.pending ht.me

end

/-! ## The obligation -/

/-- Settles O57: the refusals by the state of the part, and an accepted FORMAT from erase to erase to its image. -/
theorem formatTaken : Obligations.FormatTaken := by
  intro s tag hs
  refine ⟨fun p ht => ?_, fun start block f hop hf hlt => ?_, fun f hf => ⟨fun start block c kind hop hlt hfail => ?_,
    fun start c hop t ht => ?_, fun start block page r he hop hst hq hsp hi hw hh hc hp ho hr => ?_,
    fun start block page r kind c he hst hh hb hc hr hlow hseq hu hfails => ?_⟩,
    fun start block page f image hop hf he hst hq hsp hi hw him hh hc hp hn => ?_⟩
  · intro arrayId refused
    have hrefused (r : Result) (hr : s.formatRefusal (fieldAt p 0 8) = some r) : refused r := exec_format_refused ht hs hr
    refine ⟨fun h => hrefused _ ?_, fun h => hrefused _ ?_, fun h => hrefused _ ?_, fun h => ⟨fun h0 => hrefused _ ?_,
      fun h0 hd he => ?_⟩⟩
    · rw [State.formatRefusal, h]
    · rw [State.formatRefusal, h]
    · rw [State.formatRefusal, h]
    · rw [formatRefusal_open h]
      exact if_pos h0
    · obtain ⟨hfree, hring⟩ := formatBegun_freeOrder (s.markTaken tag) tag (BitVec.ofNat 64 arrayId)
      refine ⟨_, exec_format_accepted ht ((formatRefusal_open h _).trans (if_neg h0)) hd he, rfl, rfl, rfl, rfl, rfl,
        fun k hk => ?_, hfree, rfl, rfl, rfl, rfl, rfl, hring, rfl, rfl, rfl, rfl, rfl,
        rfl, rfl⟩
      exact tableRead_mapped (f := fun x : Hold => Hold.free x.generation) rfl hk k
  · rw [execEraseEnd_erasing hop, if_pos rfl, eraseDone_format hf, formatErased_more f hlt]
    exact conclude_quiet hs rfl rfl rfl
  · show exec c s = .next { s.formatLost kind block with jc := { (s.formatLost kind block).jc with op := _ } }
    rw [EraseFails.exec hfail hop, eraseLost_format hf, formatErased_more f hlt, formatLost_eq]
    exact conclude_quiet hs rfl rfl rfl
  · have hlast : LastErased s c f t := by
      obtain ⟨kind, hfail, rfl⟩ | ⟨rfl, rfl⟩ := ht
      · exact lastErased_lost hs hf hop hfail
      · exact lastErased_done hs hf hop
    exact ⟨hlast.few, fun head h hh hc hl hst hq hsp =>
      ⟨t.badFlags, fun _ hb => getLsbD_badFlags t hb, hlast.writes h hh hc hl hst hq hsp⟩⟩
  · rw [execReadBackEnd_good hop]
    exact congrArg Host.Outcome.next (formatImageBegun hs hf he hst hq hsp hi hw hh hc hp ho hr)
  · intro faulted counted dropped
    refine ⟨fun hne hp => ?_, fun h2 h16 => ?_, fun next h2 h17 hn hne => ?_⟩
    · exact formatProgram_again hs hf he ⟨start, hfails⟩ hst hh hr hc hu hne hp
    · exact formatProgram_few hf he ⟨start, hfails⟩ hb hc hseq h2 h16
    · exact formatProgram_moves hf he ⟨start, hfails⟩ hb hc hseq h2 hs hst hh hr hlow h17 hn hne
  · refine (execReadBackEnd_good hop).trans (congrArg Host.Outcome.next ?_)
    rw [formatImageEnded hs hf hst hq hsp hi hw hh hc hp hn, formatComplete_eq, State.formatEnded, Journal.formatEnded,
      Journal.imageKept, him]

end Sys2Proof.Machine
end

section
/-! PROOFS. The fix-ups of a restart: the slabs repaired, the ready counts, and the restart jobs (R15, R165). -/

namespace Sys2Proof.Machine

/-! ## Tables written entry by entry -/

theorem tableRead_absent {α : Type} {d : α} {t : List (Nat × α)} {k : Nat} (h : ∀ v, (k, v) ∉ t) : tableRead d t k = d := by
  induction t with
  | nil => rfl
  | cons e rest ih =>
    obtain ⟨j, v⟩ := e
    have hne : j ≠ k := fun hjk => h v (hjk ▸ List.mem_cons_self)
    exact (if_neg hne).trans (ih fun v hv => h v (List.mem_cons_of_mem _ hv))

theorem key_ne_of_pairwise {α : Type} {e x : Nat × α} {rest : List (Nat × α)}
    (h : ((e :: rest).map Prod.fst).Pairwise (· < ·)) (hx : x ∈ rest) : x.1 ≠ e.1 :=
  Nat.ne_of_gt ((List.pairwise_cons.1 h).1 x.1 (List.mem_map_of_mem hx))

/-- Every slab of a list of entries written in turn. -/
theorem forEach_setSlab (f : Slab → Slab) {l : List (Nat × Slab)} (hk : (l.map Prod.fst).Pairwise (· < ·)) (s : State) :
    ∃ slabs, forEach (fun (e : Nat × Slab) s => s.setSlab e.1 (f e.2)) l s = { s with pm := { s.pm with slabs := slabs } }
      ∧ (∀ e ∈ l, tableRead Slab.unused slabs e.1 = f e.2)
      ∧ ∀ g, (∀ e ∈ l, e.1 ≠ g) → tableRead Slab.unused slabs g = s.slab g := by
  induction l generalizing s with
  | nil => exact ⟨s.pm.slabs, rfl, fun _ h => absurd h List.not_mem_nil, fun _ _ => rfl⟩
  | cons e rest ih =>
    obtain ⟨slabs, hform, hin, hout⟩ := ih (List.pairwise_cons.1 hk).2 (s.setSlab e.1 (f e.2))
    refine ⟨slabs, hform, fun x hx => ?_, fun g hg => ?_⟩
    · rcases List.mem_cons.1 hx with rfl | hx
      · rw [hout x.1 fun y hy => key_ne_of_pairwise hk hy]
        exact tableRead_tableWrite_same ..
      · exact hin x hx
    · rw [hout g fun y hy => hg y (List.mem_cons_of_mem _ hy)]
      exact tableRead_tableWrite_other _ _ _ (hg e List.mem_cons_self).symm

/-- The slabs of a volume before its lowest FILLING one, in a state (R15). -/
def Volume.readyIn (e : Volume) (s : State) : Nat :=
  ((List.range e.count).find? (fun k => (s.slab (e.base + k)).state = .filling)).getD e.count

theorem readyCount_eq (s : State) (v : Nat) : s.readyCount v = (s.volume v).readyIn s := rfl

theorem readyIn_congr {s t : State} (e : Volume) (h : ∀ g, (t.slab g).state = .filling ↔ (s.slab g).state = .filling) :
    e.readyIn t = e.readyIn s := by
  have hp : (fun k => decide ((t.slab (e.base + k)).state = .filling)) = fun k => decide ((s.slab (e.base + k)).state = .filling) :=
    funext fun k => decide_eq_decide.2 (h _)
  unfold Volume.readyIn
  rw [hp]

/-- The ready count of every volume computed in turn. -/
theorem forEach_readyCount {l : List (Nat × Volume)} (hk : (l.map Prod.fst).Pairwise (· < ·)) {s : State}
    (hs : ∀ e ∈ l, s.volume e.1 = e.2) :
    ∃ volumes, forEach (fun (e : Nat × Volume) s => s.setVolume e.1 { e.2 with ready := s.readyCount e.1 }) l s
        = { s with pm := { s.pm with volumes := volumes } }
      ∧ (∀ e ∈ l, tableRead Volume.unused volumes e.1 = { e.2 with ready := e.2.readyIn s })
      ∧ ∀ v, (∀ e ∈ l, e.1 ≠ v) → tableRead Volume.unused volumes v = s.volume v := by
  induction l generalizing s with
  | nil => exact ⟨s.pm.volumes, rfl, fun _ h => absurd h List.not_mem_nil, fun _ _ => rfl⟩
  | cons e rest ih =>
    let t := s.setVolume e.1 { e.2 with ready := s.readyCount e.1 }
    have hother {v : Nat} (hv : v ≠ e.1) : t.volume v = s.volume v := tableRead_tableWrite_other _ _ _ hv
    obtain ⟨volumes, hform, hin, hout⟩ := ih (List.pairwise_cons.1 hk).2 (s := t) fun x hx => by
      rw [hother (key_ne_of_pairwise hk hx)]
      exact hs x (List.mem_cons_of_mem _ hx)
    refine ⟨volumes, hform, fun x hx => ?_, fun v hv => ?_⟩
    · rcases List.mem_cons.1 hx with rfl | hx
      · rw [hout x.1 fun y hy => key_ne_of_pairwise hk hy]
        have hself : t.volume x.1 = { x.2 with ready := s.readyCount x.1 } := tableRead_tableWrite_same Volume.unused s.pm.volumes x.1 _
        rw [hself, readyCount_eq, hs x List.mem_cons_self]
      · exact hin x hx
    · rw [hout v fun y hy => hv y (List.mem_cons_of_mem _ hy)]
      exact hother (hv e List.mem_cons_self).symm

/-! ## The restart jobs -/

/-- The job that a restart queues for a slab in FILLING, MOVING or COMMITTING. -/
def restartJobOf (e : Nat × Slab) : Job :=
  { kind := if e.2.state = .filling then .fill else .move, slab := e.1,
    candidates := if e.2.state = .filling then 0 else poolOf ((e.2.target.map Place.set).toList),
    salvage := if e.2.state = .filling then false else e.2.salvage, resume := some e.2.persisted,
    retained := if e.2.state = .filling then none else e.2.target, cause := none }

/-- The restart jobs of the slabs, FILL jobs first (R165). -/
def restartJobs (slabs : List (Nat × Slab)) : List Job :=
  (slabs.filter (fun e => e.2.state = .filling)).map restartJobOf
    ++ (slabs.filter (fun e => e.2.state = .moving ∨ e.2.state = .committing)).map restartJobOf

theorem restartJob_none (g : Nat) {e : Slab} (h : e.state = .unused ∨ e.state = .live) : restartJob g e = none := by
  obtain h | h := h <;> simp only [restartJob, h]

theorem restartJob_filling (g : Nat) {e : Slab} (h : e.state = .filling) : restartJob g e = some (restartJobOf (g, e)) := by
  simp only [restartJob, restartJobOf, h, if_true]

theorem restartJob_moving (g : Nat) {e : Slab} (h : e.state = .moving ∨ e.state = .committing) :
    restartJob g e = some (restartJobOf (g, e)) := by
  have hne : ¬e.state = .filling := by obtain h | h := h <;> rw [h] <;> nofun
  simp only [restartJobOf, if_neg hne]
  obtain h | h := h <;> simp only [restartJob, h]

theorem restartJobs_eq (slabs : List (Nat × Slab)) :
    let jobs := slabs.filterMap (fun e => restartJob e.1 e.2)
    jobs.filter (fun j => j.kind = .fill) ++ jobs.filter (fun j => j.kind = .move) = restartJobs slabs := by
  have hkinds : (slabs.filterMap (fun e => restartJob e.1 e.2)).filter (fun j => j.kind = .fill)
        = (slabs.filter (fun e => e.2.state = .filling)).map restartJobOf
      ∧ (slabs.filterMap (fun e => restartJob e.1 e.2)).filter (fun j => j.kind = .move)
        = (slabs.filter (fun e => e.2.state = .moving ∨ e.2.state = .committing)).map restartJobOf := by
    induction slabs with
    | nil => exact ⟨rfl, rfl⟩
    | cons e rest ih =>
      obtain ⟨hfill, hmove⟩ := ih
      rw [List.filterMap_cons, List.filter_cons, List.filter_cons]
      cases hst : e.2.state with
      | unused =>
        rw [restartJob_none e.1 (Or.inl hst)]
        exact ⟨hfill, hmove⟩
      | live =>
        rw [restartJob_none e.1 (Or.inr hst)]
        exact ⟨hfill, hmove⟩
      | filling =>
        have hkind : (restartJobOf e).kind = .fill := if_pos hst
        rw [restartJob_filling e.1 hst]
        simp [hfill, hmove, hkind]
      | moving =>
        have hkind : (restartJobOf e).kind = .move := if_neg (by rw [hst]; nofun)
        rw [restartJob_moving e.1 (Or.inl hst)]
        simp [hfill, hmove, hkind]
      | committing =>
        have hkind : (restartJobOf e).kind = .move := if_neg (by rw [hst]; nofun)
        rw [restartJob_moving e.1 (Or.inr hst)]
        simp [hfill, hmove, hkind]
  exact congr (congrArg (· ++ ·) hkinds.1) hkinds.2

/-! ## The state repaired -/

/-- What the fix-ups of a state leave in `t` (R165). -/
structure Repaired (s t : State) : Prop where
  jobs : t.me.jobs = restartJobs s.pm.slabs
  slabs : ∀ e ∈ s.pm.slabs, t.slab e.1 = repairSlab e.2
  volumes : ∀ v, t.volume v = { s.volume v with ready := (s.volume v).readyIn s }

theorem Repaired.of_eq {s t u : State} (h : Repaired s t) (hj : u.me.jobs = t.me.jobs) (hs : u.pm.slabs = t.pm.slabs)
    (hv : u.pm.volumes = t.pm.volumes) : Repaired s u := by
  refine ⟨hj.trans h.jobs, fun e he => ?_, fun v => ?_⟩
  · rw [State.slab, hs]
    exact h.slabs e he
  · rw [State.volume, hv]
    exact h.volumes v

/-- The state with the restart jobs queued, and other slabs and volumes. -/
def State.withRepairs (s : State) (slabs : List (Nat × Slab)) (volumes : List (Nat × Volume)) : State :=
  { s with pm := { s.pm with slabs := slabs, volumes := volumes }, me := { s.me with jobs := restartJobs s.pm.slabs } }

theorem repairSlab_filling (e : Slab) : (repairSlab e).state = .filling ↔ e.state = .filling := by
  unfold repairSlab
  dsimp only
  split
  · next h => rw [h]; exact iff_of_false (by nofun) (by nofun)
  · exact Iff.rfl

theorem repair_form {s : State} (hs : tableWf Slab.unused s.pm.slabs = true) (hv : tableWf Volume.unused s.pm.volumes = true) :
    Repaired s (repair s) ∧ ∃ slabs volumes, repair s = s.withRepairs slabs volumes := by
  let u : State := { s with me := { s.me with jobs := restartJobs s.pm.slabs } }
  obtain ⟨slabs, hform, hin, hout⟩ := forEach_setSlab repairSlab (keys_pairwise hs) u
  let w : State := { u with pm := { u.pm with slabs := slabs } }
  obtain ⟨volumes, hform', hin', hout'⟩ := forEach_readyCount (l := s.pm.volumes) (keys_pairwise hv) (s := w)
    fun e he => tableRead_of_mem hv he
  have hrepair : repair s = { w with pm := { w.pm with volumes := volumes } } := by
    have hjobs : s.onMe (fun m => { m with
        jobs := (s.pm.slabs.filterMap (fun e => restartJob e.1 e.2)).filter (fun j => j.kind = .fill)
          ++ (s.pm.slabs.filterMap (fun e => restartJob e.1 e.2)).filter (fun j => j.kind = .move) }) = u :=
      congrArg (fun jobs => ({ s with me := { s.me with jobs := jobs } } : State)) (restartJobs_eq s.pm.slabs)
    unfold repair
    dsimp only
    rw [hjobs, show forEach _ u.pm.slabs u = w from hform]
    exact hform'
  have hfilling (g : Nat) : (w.slab g).state = .filling ↔ (s.slab g).state = .filling := by
    by_cases hg : ∃ e, (g, e) ∈ s.pm.slabs
    · obtain ⟨e, he⟩ := hg
      rw [show w.slab g = repairSlab e from hin (g, e) he, show s.slab g = e from tableRead_of_mem hs he, repairSlab_filling]
    · rw [show w.slab g = s.slab g from hout g fun e he heq => hg ⟨e.2, heq ▸ he⟩]
  refine ⟨?_, slabs, volumes, hrepair⟩
  rw [hrepair]
  refine ⟨rfl, hin, fun v => ?_⟩
  by_cases hmem : ∃ e, (v, e) ∈ s.pm.volumes
  · obtain ⟨e, he⟩ := hmem
    rw [show s.volume v = e from tableRead_of_mem hv he, ← readyIn_congr e hfilling]
    exact hin' (v, e) he
  · have habsent : s.volume v = Volume.unused := tableRead_absent fun e he => hmem ⟨e, he⟩
    refine (hout' v fun e he heq => hmem ⟨e.2, heq ▸ he⟩).trans ?_
    rw [show w.volume v = s.volume v from rfl, habsent]
    rfl

end Sys2Proof.Machine
end

section
/-! PROOFS. The end of a restart: the label checks and the entry into service (R164 to R166). -/

namespace Sys2Proof.Machine

/-! ## The label checks -/

theorem checkLabels_eq (s : State) : checkLabels s = s.membersToCheck.foldl (fun t id =>
    if (t.bay id).present then
      handOver { owner := .startCheck, use := .label, member := id, op := .read, dbn := 0, count := 1,
                 pages := .label none, context := none, labelBlock := none }
        { t with pm := { t.pm with checks := t.pm.checks ++ [id] } }
    else { t with agenda := t.agenda ++ [.memberCause id] }) { s with stage := .labelChecks } := forEach_eq_foldl ..

theorem membersToCheck_pairwise (s : State) : s.membersToCheck.Pairwise (· < ·) := List.pairwise_lt_range.filter _

theorem mem_membersToCheck {s : State} {id : Nat} :
    id ∈ s.membersToCheck ↔ id < 256 ∧ ((s.member id).state = .available ∨ (s.member id).state = .active) := by
  rw [State.membersToCheck, List.mem_filter, List.mem_range, Bool.or_eq_true, decide_eq_true_iff, decide_eq_true_iff]

/-- The one member to check has no drive: it fails, and its record is held. -/
theorem checkLabels_fails {s : State} {id : Nat} (hs : s.quiet) (hc : s.membersToCheck = [id]) (hb : (s.bay id).present = false)
    (hp : s.part = .starting) (hbands : (s.member id).bands = []) (he : s.entriesWhere (fun c => decide (c.member = id)) = [])
    (hw : s.dp.waiting = []) (hl : s.dp.labelWait = []) :
    finish s (checkLabels s) = State.offerNotice (.memberState id (s.member id).state .failed)
      { s with
        stage := .labelChecks,
        pm := { s.pm with
          members := tableWrite Member.absent s.pm.members id { s.member id with state := .failed },
          held := s.pm.held ++ [id] } } := by
  let u : State := { s with stage := .labelChecks }
  have hcheck : checkLabels s = u.post (.memberCause id) := by
    rw [checkLabels, hc]
    exact if_neg (by rw [show u.bay id = s.bay id from rfl, hb]; exact Bool.false_ne_true)
  have hserves : (u.member id).state = .available ∨ (u.member id).state = .active :=
    (mem_membersToCheck.1 (hc ▸ List.mem_singleton_self id)).2
  have hfail : handle (.memberCause id) { u.post (.memberCause id) with agenda := [] }
      = State.offerNotice (.memberState id (s.member id).state .failed)
          { u with pm := { u.pm with
            members := tableWrite Member.absent u.pm.members id { u.member id with state := .failed },
            held := u.pm.held ++ [id] } } := by
    rw [post_cleared (t := u) _ hs]
    exact (if_pos hserves).trans (failMember_bare (u := u) (reply := none) hbands he hw hl hp)
  obtain ⟨m, hm⟩ := offerNotice_eq (.memberState id (s.member id).state .failed)
    { u with pm := { u.pm with
      members := tableWrite Member.absent u.pm.members id { u.member id with state := .failed },
      held := u.pm.held ++ [id] } }
  rw [hcheck]
  refine (finish_one (i := .memberCause id) ?_ hfail ?_ ?_ ?_ ?_).trans rfl
  · show u.agenda ++ [_] = _
    rw [show u.agenda = [] from hs]
    rfl
  all_goals rw [hm]
  · exact hs
  all_goals rfl

/-- A label command of the start-up check with a place and an entry free for it is issued at once. -/
theorem handOver_check_issues {c : Cmd} {s : State} {place e : Nat} {places entries : List Nat}
    (ho : c.owner = .startCheck) (hplace : s.dp.labelFree = place :: places) (hentry : s.dp.freeOrder = e :: entries)
    (hflush : s.dp.flush = .answered) (hreach : s.unreachable c.member = false) :
    handOver c s = issue e { c with pages := .label (some place) }
      { s with dp := { s.dp with
        labelFree := places, labels := tableWrite Block.zero s.dp.labels place (c.labelBlock.getD Block.zero) } } := by
  have htake : handOver c s = takeLabelPlace place places c s := by simp only [handOver, ho, hplace]
  rw [htake]
  exact accept_issues (s := s.onDp _) hflush hreach hentry

theorem checkLabels_reads {s : State} {id place e : Nat} {places entries : List Nat} (hc : s.membersToCheck = [id])
    (hb : (s.bay id).present = true) (hflush : s.dp.flush = .answered) (hplace : s.dp.labelFree = place :: places)
    (hentry : s.dp.freeOrder = e :: entries) :
    checkLabels s = issue e { checkCmd id with pages := .label (some place) }
      { s with
        stage := .labelChecks, pm := { s.pm with checks := s.pm.checks ++ [id] }
        dp := { s.dp with
          labelFree := places
          labels := tableWrite Block.zero s.dp.labels place ((checkCmd id).labelBlock.getD Block.zero) } } := by
  let u : State := { s with stage := .labelChecks, pm := { s.pm with checks := s.pm.checks ++ [id] } }
  have hcheck : checkLabels s = handOver (checkCmd id) u := by
    rw [checkLabels, hc]
    exact if_pos hb
  have hreach : u.unreachable id = false := by
    have hstate : (u.member id).state ≠ .failed := by
      obtain ⟨-, h | h⟩ := mem_membersToCheck.1 (hc ▸ List.mem_singleton_self id)
      · rw [show u.member id = s.member id from rfl, h]
        nofun
      · rw [show u.member id = s.member id from rfl, h]
        nofun
    rw [State.unreachable, decide_eq_false hstate, show u.bay id = s.bay id from rfl, hb]
    rfl
  rw [hcheck, handOver_check_issues (s := u) (c := checkCmd id) rfl hplace hentry hflush hreach]

/-! ## The end of a step that begins with no job -/

theorem offerIdle_idle {s : State} (h : s.jobsIdle = true) (t : State) : offerIdle s t = t := by
  rw [offerIdle, h, Bool.not_true, Bool.and_false, if_neg Bool.false_ne_true]

theorem finish_idle_still {s t : State} {l : List Internal} (hj : s.jobsIdle = true) (hl : l.length ≤ settleBound)
    (hstill : ∀ i ∈ l, handle i { t with agenda := [] } = { t with agenda := [] }) (hc : t.clock = s.clock)
    (hp : t.pending = s.pending) : finish s { t with agenda := l } = { t with agenda := [] } := by
  rw [finish, settle_still hl hstill, offerIdle_idle hj, closeStep, ← hc, ← hp]

theorem finish_idle_quiet {s t : State} (hj : s.jobsIdle = true) (ha : t.agenda = []) (hc : t.clock = s.clock)
    (hp : t.pending = s.pending) : finish s t = t := by
  rw [finish, settle_quiet _ ha, offerIdle_idle hj, closeStep, ← hc, ← hp]

theorem offerNotice_mp {s t : State} (n : Notice) (h : t.mp = s.mp) : (t.offerNotice n).mp = (s.offerNotice n).mp := by
  rw [offerNotice_of_mp n h]

/-! ## READY (R166) -/

/-- The part in service after a restart, before PART_STATE, the records held and the store. -/
def State.serviceEntered (s : State) : State :=
  { s with
    part := .ready, stage := .service, pm := { s.pm with held := [] }
    me := { s.me with windowStart := some s.clock.now, tokens := s.me.moveRate }
    mp := (s.offerNotice (.partState .ready)).mp
    jc := { s.jc with state := .writing, cause := none, admission := true } }

theorem enterReady_eq (s : State) : enterReady s
    = kickStore (forEach (fun id s => pmRecord (.member id .failed) s) s.pm.held s.serviceEntered) := by
  have hnotice : State.offerNotice (.partState .ready) { s.serviceEntered with mp := s.mp } = s.serviceEntered :=
    offerNotice_of_mp (s := s) _ rfl
  show kickStore (forEach _ s.pm.held (State.offerNotice (.partState .ready) { s.serviceEntered with mp := s.mp })) = _
  rw [hnotice]

theorem enterService_ready {s : State} (hp : s.part = .starting) (hu : 16 ≤ s.usableBlocks) : enterService s = enterReady s := by
  unfold enterService
  rw [hp]
  exact if_pos hu

theorem headSpent_serviceEntered (s : State) : s.serviceEntered.headSpent = s.headSpent := rfl

/-- With nothing held and nothing to write the store rests. -/
theorem enterReady_rests {s : State} (hh : s.pm.held = []) (hop : s.jc.op = none) (hq : s.jc.queue = []) (hsp : s.jc.storePlace = [])
    (hi : s.jc.imageRecord = none) (hspent : s.headSpent = false) (hn : ∀ b, (s.storeBlock b).cond ≠ .awaiting) :
    enterReady s = s.serviceEntered := by
  rw [enterReady_eq, hh]
  refine kickStore_rests (s := s.serviceEntered) hop (Or.inl rfl) ?_ ((nextRecord_of hq hsp).trans hi) hn
  exact (congrArg imageDue (openNext_stays (s := s.serviceEntered) hspent)).trans (imageDue_off (by nofun))

/-! ## The records held -/

/-- The MEMBER record of a failure, with the number that it takes. -/
def heldRecord (first : Nat) (held : List Nat) (i : Nat) : Record := ⟨first + i, .member (held.getD i 0) .failed, .pm, none⟩

theorem started_idle {j : Journal} {r : Record} {h : Nat} (now : Nat) (hop : j.op = none) (hr : j.nextRecord = some r)
    (hh : j.head = some h) : j.started now = { j with op := some (.program now h j.nextPage r) } := by
  unfold Journal.started
  rw [hop, hr, hh]

/-- The journal with the first records held in its queue, the first of them begun. -/
def Journal.heldQueued (j : Journal) (now head : Nat) (held : List Nat) (n : Nat) : Journal :=
  { j with
    queue := (List.range n).map (heldRecord j.nextSeq held), nextSeq := j.nextSeq + n
    op := if n = 0 then none else some (.program now head j.nextPage (heldRecord j.nextSeq held 0)) }

/-- The state with the first records held queued. -/
def State.heldQueued (s : State) (head : Nat) (held : List Nat) (n : Nat) : State :=
  { s with
    jc := s.jc.heldQueued s.clock.now head held n
    agenda := (List.range n).map fun i => .recordQueued (heldRecord s.jc.nextSeq held i) }

section
variable {s : State} {head : Nat} {held : List Nat} (hs : s.quiet) (hst : s.jc.state = .writing) (ha : s.jc.admission = true)
  (hop : s.jc.op = none) (hq : s.jc.queue = []) (hsp : s.jc.storePlace = []) (hi : s.jc.imageRecord = none)
  (hw : s.jc.roomWait = []) (hh : s.jc.head = some head) (hspent : s.headSpent = false)

include hs hop hq in
theorem heldQueued_zero : s.heldQueued head held 0 = s := by
  have hjc : s.jc.heldQueued s.clock.now head held 0 = s.jc := by
    have hj : s.jc.heldQueued s.clock.now head held 0 = { s.jc with queue := [], op := none } := rfl
    rw [hj, ← hop, ← hq]
  have hform : s.heldQueued head held 0 = { s with jc := s.jc.heldQueued s.clock.now head held 0, agenda := [] } := rfl
  rw [hform, hjc]
  exact cleared_eq hs

include hst ha hw hspent in
theorem heldQueued_open {n : Nat} (hn : n < 32) (hseq : s.jc.nextSeq + n ≤ 4294967295) : (s.heldQueued head held n).journalOpen := by
  refine ⟨hst, ?_, hw, hseq, Or.inr hspent⟩
  show (s.jc.admission && decide (((List.range n).map _).length < 32)) = true
  rw [ha, List.length_map, List.length_range, decide_eq_true hn]
  rfl

include hst ha hsp hi hw hh hspent in
theorem heldQueued_succ {n : Nat} (hn : n < 32) (hseq : s.jc.nextSeq + n ≤ 4294967295) :
    pmRecord (.member (held.getD n 0) .failed) (s.heldQueued head held n) = s.heldQueued head held (n + 1) := by
  let u := s.heldQueued head held n
  let r := heldRecord s.jc.nextSeq held n
  have hqueued : queueRecord .pm (.member (held.getD n 0) .failed) u
      = (u.withRecord .pm (.member (held.getD n 0) .failed) none).post (.recordQueued r) :=
    queueRecord_open (heldQueued_open hst ha hw hspent hn hseq)
  have hqueue : (List.range n).map (heldRecord s.jc.nextSeq held) ++ [r] = (List.range (n + 1)).map (heldRecord s.jc.nextSeq held) := by
    rw [List.range_succ, List.map_append]
    rfl
  have hstarted : Journal.started s.clock.now { u.jc with queue := u.jc.queue ++ [r], nextSeq := u.jc.nextSeq + 1 }
      = s.jc.heldQueued s.clock.now head held (n + 1) := by
    show Journal.started s.clock.now { u.jc with
      queue := (List.range n).map (heldRecord s.jc.nextSeq held) ++ [r], nextSeq := u.jc.nextSeq + 1 } = _
    rw [hqueue]
    cases n with
    | zero =>
      have hnext : Journal.nextRecord { u.jc with
          queue := (List.range 1).map (heldRecord s.jc.nextSeq held), nextSeq := u.jc.nextSeq + 1 }
          = some (heldRecord s.jc.nextSeq held 0) := by
        show lowerRecord (lowerRecord (some _) s.jc.storePlace.head?) s.jc.imageRecord = _
        rw [hsp, hi]
        rfl
      exact (started_idle _ rfl hnext hh).trans rfl
    | succ m => rfl
  have hrecord : u.withRecord .pm (.member (held.getD n 0) .failed) none
      = { u with jc := s.jc.heldQueued s.clock.now head held (n + 1) } :=
    congrArg (fun j => ({ u with jc := j } : State)) hstarted
  rw [pmRecord, hqueued, hrecord]
  have hagenda : u.agenda ++ [.recordQueued r] = (s.heldQueued head held (n + 1)).agenda := by
    show _ = (List.range (n + 1)).map _
    rw [List.range_succ, List.map_append]
    rfl
  exact congrArg (fun a => ({ u with jc := s.jc.heldQueued s.clock.now head held (n + 1), agenda := a } : State)) hagenda

include hs hst ha hop hq hsp hi hw hh hspent in
theorem forEach_heldQueued {n : Nat} (hn : n ≤ 32) (hlen : n ≤ held.length) (hseq : s.jc.nextSeq + n ≤ 4294967296) :
    forEach (fun id s => pmRecord (.member id .failed) s) (held.take n) s = s.heldQueued head held n := by
  induction n with
  | zero => exact (heldQueued_zero hs hop hq).symm
  | succ n ih =>
    have hlast : held.take (n + 1) = held.take n ++ [held.getD n 0] := by
      rw [List.take_succ_eq_append_getElem hlen, getD_of_lt 0 hlen]
    rw [hlast, forEach_append, ih (Nat.le_of_succ_le hn) (Nat.le_of_succ_le hlen) (by omega)]
    exact heldQueued_succ hst ha hsp hi hw hh hspent hn (by omega)

end

/-- Records queued with no room join the Placement Map's works. -/
theorem forEach_pmRecord_waits {held : List Nat} {s : State} {ws : List Work} (ha : s.jc.active = true) (hr : s.jc.hasRoom = false)
    (hw : s.jc.roomWait = [(.pm, ws)]) :
    forEach (fun id s => pmRecord (.member id .failed) s) held s
      = { s with jc := { s.jc with roomWait := [(.pm, ws ++ held.map (fun id => ⟨.member id .failed, none⟩))] } } := by
  induction held generalizing s ws with
  | nil =>
    rw [List.map_nil, List.append_nil, ← hw]
    rfl
  | cons id rest ih =>
    have hwork : pmRecord (.member id .failed) s
        = { s with jc := { s.jc with roomWait := [(.pm, ws ++ [⟨.member id .failed, none⟩])] } } := by
      rw [pmRecord, queueRecord, queueWork_waits ha hr, State.onJc, hw]
      rfl
    rw [forEach, hwork]
    refine (ih (s := { s with jc := { s.jc with roomWait := [(.pm, ws ++ [⟨.member id .failed, none⟩])] } }) ha hr rfl).trans ?_
    rw [List.append_assoc]
    rfl

theorem forEach_pmRecord_roomless {held : List Nat} {s : State} (ha : s.jc.active = true) (hr : s.jc.hasRoom = false)
    (hw : s.jc.roomWait = []) :
    forEach (fun id s => pmRecord (.member id .failed) s) held s
      = { s with jc := { s.jc with
          roomWait := if held = [] then [] else [(.pm, held.map (fun id => ⟨.member id .failed, none⟩))] } } := by
  cases held with
  | nil =>
    rw [if_pos rfl, ← hw]
    rfl
  | cons id rest =>
    have hwork : pmRecord (.member id .failed) s
        = { s with jc := { s.jc with roomWait := [(.pm, [⟨.member id .failed, none⟩])] } } := by
      rw [pmRecord, queueRecord, queueWork_waits ha hr, State.onJc, hw]
      rfl
    rw [forEach, hwork, if_neg (List.cons_ne_nil id rest)]
    exact forEach_pmRecord_waits (s := { s with jc := { s.jc with roomWait := [(.pm, [⟨.member id .failed, none⟩])] } }) ha hr rfl

/-- The journal in which the records held have been queued, as far as there is room. -/
def Journal.heldServed (j : Journal) (now head : Nat) (held : List Nat) : Journal :=
  { j.heldQueued now head held (min 32 held.length) with
    roomWait := if held.length ≤ 32 then [] else [(.pm, (held.drop 32).map (fun id => ⟨.member id .failed, none⟩))] }

/-- All records held are queued, or wait for room. -/
theorem forEach_held {s : State} {head : Nat} {held : List Nat} (hs : s.quiet) (hst : s.jc.state = .writing)
    (ha : s.jc.admission = true) (hop : s.jc.op = none) (hq : s.jc.queue = []) (hsp : s.jc.storePlace = [])
    (hi : s.jc.imageRecord = none) (hw : s.jc.roomWait = []) (hh : s.jc.head = some head) (hspent : s.headSpent = false)
    (hseq : s.jc.nextSeq + min 32 held.length ≤ 4294967296) :
    forEach (fun id s => pmRecord (.member id .failed) s) held s
      = { s.heldQueued head held (min 32 held.length) with jc := s.jc.heldServed s.clock.now head held } := by
  have hqueued := forEach_heldQueued (held := held) hs hst ha hop hq hsp hi hw hh hspent (Nat.min_le_left 32 held.length)
    (Nat.min_le_right 32 held.length) hseq
  by_cases hlen : held.length ≤ 32
  · rw [Nat.min_eq_right hlen, List.take_length] at hqueued
    have hjc : s.jc.heldServed s.clock.now head held = s.jc.heldQueued s.clock.now head held held.length := by
      rw [Journal.heldServed, if_pos hlen, Nat.min_eq_right hlen, ← hw]
      rfl
    rw [hqueued, hjc, Nat.min_eq_right hlen]
    rfl
  · have hmore : min 32 held.length = 32 := Nat.min_eq_left (Nat.le_of_not_le hlen)
    have hrest : held.drop 32 ≠ [] := fun h => hlen (List.drop_eq_nil_iff.1 h)
    have hroom : (s.heldQueued head held 32).jc.hasRoom = false := by
      show (s.jc.admission && decide (((List.range 32).map _).length < 32)) = false
      rw [List.length_map, List.length_range]
      exact Bool.and_false _
    have hact : (s.heldQueued head held 32).jc.active = true := by
      show (decide (s.jc.state = .writing) || _) = true
      rw [decide_eq_true hst, Bool.true_or]
    rw [hmore] at hqueued ⊢
    conv => lhs; rw [← List.take_append_drop 32 held]
    rw [forEach_append, hqueued, forEach_pmRecord_roomless hact hroom hw, if_neg hrest, Journal.heldServed, hmore, if_neg hlen]
    rfl

/-- The part enters service with records held. -/
theorem enterReady_held {s : State} {head : Nat} (hs : s.quiet) (hh : s.pm.held ≠ []) (hop : s.jc.op = none) (hq : s.jc.queue = [])
    (hsp : s.jc.storePlace = []) (hi : s.jc.imageRecord = none) (hw : s.jc.roomWait = []) (hhead : s.jc.head = some head)
    (hspent : s.headSpent = false) (hseq : s.jc.nextSeq + min 32 s.pm.held.length ≤ 4294967296) :
    enterReady s = { s.serviceEntered.heldQueued head s.pm.held (min 32 s.pm.held.length) with
      jc := s.serviceEntered.jc.heldServed s.clock.now head s.pm.held } := by
  have hpos : min 32 s.pm.held.length ≠ 0 := by
    have := List.length_pos_iff.2 hh
    omega
  rw [enterReady_eq, forEach_held (s := s.serviceEntered) hs rfl rfl hop hq hsp hi hw hhead hspent hseq]
  exact kickStore_busy (o := .program s.clock.now head s.jc.nextPage (heldRecord s.jc.nextSeq s.pm.held 0)) (if_neg hpos)

/-! ## FROZEN (R166) -/

/-- The journal once it has entered FROZEN with nothing queued. -/
def Journal.frozenEmpty (j : Journal) (cause : FrozenCause) : Journal :=
  { j with
    state := .frozen, cause := some cause, op := none, queue := [], storePlace := [], roomWait := [], admission := false
    imageBuilt := false, image := [], imageRecord := none, imageStart := none
    counters := { j.counters with discarded := bumpBy 0 j.counters.discarded } }

/-- The state in which a restart has found too few usable blocks. -/
def State.serviceFrozen (s : State) : State :=
  { s with
    part := .frozen, stage := .service, pm := { s.pm with held := [] }, jc := s.jc.frozenEmpty .fewBlocks
    mp := (State.offerNotice (.partState .frozen) (s.offerNotice (.journalState .frozen (some .fewBlocks)))).mp }

theorem enterService_frozen {s : State} (hs : s.quiet) (hp : s.part = .starting) (hu : s.usableBlocks < 16) (hw : s.jc.roomWait = [])
    (hq : s.jc.queue = []) (hsp : s.jc.storePlace = []) :
    enterService s = { s.serviceFrozen with agenda := (List.range 4).map .laneFrozen ++ [.pmFrozen] } := by
  let told : List Internal := (List.range 4).map .laneFrozen ++ [.pmFrozen]
  obtain ⟨m, hm⟩ := offerNotice_eq (.journalState .frozen (some .fewBlocks)) s
  have hfrozen : enterFrozen .fewBlocks { s with stage := .service }
      = { s with stage := .service, part := .frozen, jc := s.jc.frozenEmpty .fewBlocks, agenda := told, mp := m } := by
    have hbefore : enterFrozen .fewBlocks { s with stage := .service } = State.offerNotice (.journalState .frozen (some .fewBlocks))
        { s with stage := .service, part := .frozen, jc := s.jc.frozenEmpty .fewBlocks, agenda := told } := by
      have htold : s.agenda ++ ((s.jc.queue ++ s.jc.storePlace).map .recordDiscarded ++ unmade s.jc.roomWait
          ++ (List.range 4).map .laneFrozen ++ [.pmFrozen]) = told := by
        rw [show s.agenda = [] from hs, hq, hsp, hw]
        rfl
      have hlen : (s.jc.queue ++ s.jc.storePlace).length = 0 := by
        rw [hq, hsp]
        rfl
      rw [← htold, Journal.frozenEmpty, ← hlen]
      rfl
    rw [hbefore, offerNotice_of_mp (s := s) (t := { s with
      stage := .service, part := .frozen, jc := s.jc.frozenEmpty .fewBlocks, agenda := told }) _ rfl, hm]
  have hfew : enterService s = State.offerNotice (.partState .frozen)
      ((enterFrozen .fewBlocks { s with stage := .service }).onPm (fun p => { p with held := [] })) := by
    unfold enterService
    split
    · exact if_neg (Nat.not_le.2 hu)
    · next h => rw [hp] at h; cases h
    · next h => rw [hp] at h; cases h
    · next h => rw [hp] at h; cases h
  rw [hfew, hfrozen, State.serviceFrozen, hm]
  exact offerNotice_of_mp (s := { s with mp := m }) _ rfl

theorem finish_enterService_frozen {s u : State} (hj : s.jobsIdle = true) (hc : u.clock = s.clock) (hpend : u.pending = s.pending)
    (hs : u.quiet) (hp : u.part = .starting) (hu : u.usableBlocks < 16) (hw : u.jc.roomWait = []) (hq : u.jc.queue = [])
    (hsp : u.jc.storePlace = []) (hb : u.pm.busy = none) (hl : ∀ n, (u.lane n).state ≠ .claiming) :
    finish s (enterService u) = { u.serviceFrozen with agenda := [] } := by
  rw [enterService_frozen hs hp hu hw hq hsp]
  refine finish_idle_still hj ?_ (fun i hi => ?_) hc hpend
  · rw [List.length_append, List.length_map, List.length_range]
    exact Nat.le_of_ble_eq_true rfl
  · rcases List.mem_append.1 hi with hi | hi
    · obtain ⟨n, -, rfl⟩ := List.mem_map.1 hi
      exact if_neg (hl n)
    · obtain rfl := List.mem_singleton.1 hi
      exact pmFrozen_none hb

/-! ## The obligation -/

theorem exec_fixUps {s : State} (hst : s.stage = .labelChecks) (hc : s.pm.checks = []) :
    exec .fixUps s = conclude s (enterService (repair s)) := if_pos ⟨hst, hc⟩

theorem exec_firstRoundEnd {s : State} (hst : s.stage = .firstRound) (ht : s.sm.transaction = none) :
    exec .firstRoundEnd s = conclude s (checkLabels s) := if_pos ⟨hst, ht⟩

/-- Settles O56: the checks by the members that the replay left in service; then the fix-ups, by the state of the part. -/
theorem startUpEnds : Obligations.StartUpEnds := by
  intro s hs
  refine ⟨fun h => if_neg h, fun hst ht hc => ?_, fun hst ht => ?_, membersToCheck_pairwise s, fun _ => mem_membersToCheck,
    fun id hst ht hc => ⟨fun hb hp hbands he hw hl => ?_, fun hb hflush place places e entries hplace hentry => ?_⟩,
    fun h => if_neg h, fun hst hc hj hslabs hvols => ?_⟩
  · rw [exec_firstRoundEnd hst ht, checkLabels, hc]
    exact conclude_quiet hs rfl rfl rfl
  · rw [exec_firstRoundEnd hst ht, checkLabels_eq]
    rfl
  · rw [exec_firstRoundEnd hst ht]
    exact congrArg Host.Outcome.next (checkLabels_fails hs hc hb hp hbands he hw hl)
  · rw [exec_firstRoundEnd hst ht, checkLabels_reads hc hb hflush hplace hentry, issue_eq]
    refine ⟨_, conclude_quiet hs rfl rfl rfl, rfl, rfl, ?_, rfl, rfl, rfl, rfl, rfl, rfl, rfl⟩
    exact tableRead_tableWrite_same (RingEntry.free 0) s.dp.ring e _
  · intro jobOf jobs repaired
    obtain ⟨hrepaired, slabs, volumes, hform⟩ := repair_form hslabs hvols
    have hrepairs {t : State} (h : Repaired s t) (hstage : t.stage = .service) : repaired t :=
      ⟨h.jobs, hstage, h.slabs, h.volumes⟩
    let u := s.withRepairs slabs volumes
    rw [show repair s = u from hform] at hrepaired
    rw [exec_fixUps hst hc, show repair s = u from hform]
    refine ⟨fun hp hu hh hop hq hsp hi hspent hn => ?_, fun head hp hu hh hop hq hsp hi hw hhead hspent hseq => ?_,
      fun hp hu hw hq hsp hbusy hl => ?_, fun cause hp => ?_⟩
    · rw [enterService_ready (s := u) hp hu, enterReady_rests (s := u) hh hop hq hsp hi hspent hn]
      exact ⟨_, congrArg Host.Outcome.next (finish_idle_quiet hj hs rfl rfl), hrepairs (hrepaired.of_eq rfl rfl rfl) rfl, rfl, rfl,
        rfl, rfl, offerNotice_mp (s := s) (t := u) _ rfl⟩
    · intro record
      rw [enterService_ready (s := u) hp hu, enterReady_held (s := u) hs hh hop hq hsp hi hw hhead hspent hseq]
      have hpos : min 32 s.pm.held.length ≠ 0 := by
        have := List.length_pos_iff.2 hh
        omega
      refine ⟨_, congrArg Host.Outcome.next (finish_idle_still (s := s)
        (t := { u.serviceEntered with jc := u.serviceEntered.jc.heldServed s.clock.now head s.pm.held })
        (l := (List.range (min 32 s.pm.held.length)).map fun i => .recordQueued (heldRecord s.jc.nextSeq s.pm.held i))
        hj ?_ ?_ rfl rfl), hrepairs (hrepaired.of_eq rfl rfl rfl) rfl, rfl, rfl, ?_, rfl, rfl,
        offerNotice_mp (s := s) (t := u) _ rfl⟩
      · rw [List.length_map, List.length_range]
        exact Nat.le_trans (Nat.min_le_left _ _) (by decide)
      · intro i hi
        obtain ⟨k, -, rfl⟩ := List.mem_map.1 hi
        exact ownerQueued_pm (r := heldRecord s.jc.nextSeq s.pm.held k) rfl fun _ _ _ h => nomatch h
      · show Journal.heldServed { s.jc with state := .writing, cause := none, admission := true } s.clock.now head s.pm.held = _
        rw [Journal.heldServed, Journal.heldQueued, if_neg hpos]
        rfl
    · exact ⟨_, congrArg Host.Outcome.next (finish_enterService_frozen (u := u) hj rfl rfl hs hp hu hw hq hsp hbusy hl),
        hrepairs (hrepaired.of_eq rfl rfl rfl) rfl, rfl, rfl, rfl, rfl, offerNotice_mp _ (offerNotice_mp (s := s) (t := u) _ rfl)⟩
    · have hstays : enterService u = { u with stage := .service } := by
        unfold enterService
        rw [show u.part = .blank cause from hp]
      rw [hstays]
      exact ⟨_, congrArg Host.Outcome.next (finish_idle_quiet hj hs rfl rfl), hrepairs (hrepaired.of_eq rfl rfl rfl) rfl, hp, rfl,
        rfl⟩

end Sys2Proof.Machine
end

section
/-! PROOFS. The ends of a lane's job: a FILL, a MOVE and an abort whose record is durable (R12, R73, R82, R83, R86). -/

namespace Sys2Proof.Machine

/-! ## Slots alone -/

/-- Two states that differ in slots and sets alone. -/
def SlotsOnly (s t : State) : Prop := ∃ slots sets, t = { s with pm := { s.pm with slots := slots, sets := sets } }

namespace SlotsOnly

theorem refl (s : State) : SlotsOnly s s := ⟨s.pm.slots, s.pm.sets, rfl⟩

theorem trans {s t u : State} (h : SlotsOnly s t) (h' : SlotsOnly t u) : SlotsOnly s u := by
  obtain ⟨_, _, rfl⟩ := h
  obtain ⟨slots, sets, rfl⟩ := h'
  exact ⟨slots, sets, rfl⟩

theorem writeSlot (p : Place) (v : Slot) (s : State) : SlotsOnly s (s.writeSlot p v) := writeSlot_slots_sets p v s

theorem forEach_releaseSlot (places : List Place) (s : State) : SlotsOnly s (forEach State.releaseSlot places s) := by
  induction places generalizing s with
  | nil => exact refl s
  | cons p rest ih => exact (writeSlot p _ s).trans (ih _)

end SlotsOnly

/-- A slot has been left: FREE where no grant names it, else DRAINING without a lane (R12). -/
structure SlotLeft (q : Place) (s t : State) : Prop where
  freed : (s.slot q).refs = 0 →
    t.slot q = Slot.free ∧ t.set q.set = { s.set q.set with freeCount := (s.set q.set).freeCount + 1 }
  draining : (s.slot q).refs ≠ 0 → t.slot q = { s.slot q with state := .draining, lane := none } ∧ t.set q.set = s.set q.set
  others : ∀ k, k ≠ q.set → t.set k = s.set k

theorem SlotLeft.of_reads {q : Place} {s t r u : State} (h : SlotLeft q s t) (hs : s.slot q = r.slot q) (hss : ∀ k, s.set k = r.set k)
    (ht : u.slot q = t.slot q) (hts : ∀ k, u.set k = t.set k) : SlotLeft q r u := by
  refine ⟨fun hr => ?_, fun hr => ?_, fun k hk => (hts k).trans ((h.others k hk).trans (hss k))⟩
  · obtain ⟨hslot, hset⟩ := h.freed (hs ▸ hr)
    exact ⟨ht.trans hslot, (hts _).trans (hset.trans (by rw [hss]))⟩
  · obtain ⟨hslot, hset⟩ := h.draining (hs ▸ hr)
    exact ⟨ht.trans (hslot.trans (by rw [hs])), (hts _).trans (hset.trans (hss _))⟩

/-- A slot given up, and later left by its lane. -/
theorem slotLeft_release {q : Place} {s b : State} (hs : (s.slot q).state ≠ .free) (hslot : b.slot q = (s.leavePlace q).slot q)
    (hset : ∀ k, b.set k = (s.leavePlace q).set k) : SlotLeft q s (b.releaseSlot q) := by
  obtain ⟨hgone, hstays⟩ := writeSlot_drained (q := q) (v := { s.slot q with state := .draining }) hs nofun
  have hothers (k : Nat) (hk : k ≠ q.set) : (b.releaseSlot q).set k = s.set k :=
    ((writeSlot_set_other _ b hk).trans (hset k)).trans (writeSlot_set_other _ s hk)
  by_cases hfree : (s.slot q).refs = 0 ∧ (s.slot q).lane = none
  · obtain ⟨hslot', hset'⟩ := hgone ⟨rfl, hfree⟩
    obtain ⟨hslot'', hset''⟩ := releaseSlot_free (s := b) (hslot.trans hslot')
    exact ⟨fun _ => ⟨hslot'', hset''.trans ((hset _).trans hset')⟩, fun h => absurd hfree.1 h, hothers⟩
  · obtain ⟨hslot', hset'⟩ := hstays fun h => hfree h.2
    have hdrains : b.slot q = { s.slot q with state := .draining } := hslot.trans hslot'
    obtain ⟨hgone', hstays'⟩ := writeSlot_drained (q := q) (v := { b.slot q with lane := none }) (s := b)
      (by rw [hdrains]; nofun) (by rw [hdrains]; nofun)
    refine ⟨fun h => ?_, fun h => ?_, hothers⟩
    · obtain ⟨hslot'', hset''⟩ := hgone' ⟨by rw [hdrains], by rw [hdrains]; exact h, rfl⟩
      exact ⟨hslot'', hset''.trans (by rw [hset, show (s.leavePlace q).set q.set = _ from hset'])⟩
    · obtain ⟨hslot'', hset''⟩ := hstays' fun h' => h (by rw [hdrains] at h'; exact h'.2.1)
      exact ⟨hslot''.trans (by rw [hdrains]), hset''.trans ((hset _).trans hset')⟩

/-! ## A lane that returns to IDLE -/

/-- The state in which a lane is IDLE and its pages are free. -/
def State.idled (s : State) (n : Nat) : State :=
  { s with
    sp := { s.sp with free := (s.lane n).pages.foldr insertRising s.sp.free }
    me := { s.me with lanes := tableWrite Lane.idle s.me.lanes n Lane.idle } }

theorem forEach_pair {α : Type} (f : α → State → State) (a b : α) (s : State) : forEach f [a, b] s = f b (f a s) := rfl

theorem laneToIdle_idled {n : Nat} {s : State} (places : List Place) (h : (s.lane n).pages = [] ∨ s.sp.waiting = []) :
    laneToIdle n places s = forEach State.releaseSlot places (s.idled n) := by
  by_cases hp : (s.lane n).pages = []
  · have hidle : s.idled n = s.setLane n Lane.idle := by
      unfold State.idled
      rw [hp]
      rfl
    rw [laneToIdle_emptied places hp, hidle]
  · rw [laneToIdle, if_neg hp, releaseAs_alone (h.resolve_left hp)]
    rfl

theorem idled_lane (n : Nat) (s : State) : (s.idled n).lane n = Lane.idle :=
  tableRead_tableWrite_same Lane.idle s.me.lanes n Lane.idle

theorem idled_lane_other {n m : Nat} (s : State) (h : m ≠ n) : (s.idled n).lane m = s.lane m :=
  tableRead_tableWrite_other Lane.idle s.me.lanes Lane.idle h

/-- What the end of a lane's job changes, whatever it does to slots and sets. -/
structure JobEnded (n g : Nat) (b : Slab) (counters : MoveCounters) (mp : MsgPort) (volumes : List (Nat × Volume)) (u t : State) :
    Prop where
  form : ∃ slots sets, t = { u with
    pm := { u.pm with slabs := tableWrite Slab.unused u.pm.slabs g b, slots := slots, sets := sets, volumes := volumes }
    sp := { u.sp with free := (u.lane n).pages.foldr insertRising u.sp.free }
    me := { u.me with lanes := tableWrite Lane.idle u.me.lanes n Lane.idle, counters := counters }
    mp := mp }

namespace JobEnded

variable {n g : Nat} {b : Slab} {counters : MoveCounters} {mp : MsgPort} {volumes : List (Nat × Volume)} {u t : State}
  (h : JobEnded n g b counters mp volumes u t)
include h

theorem slab : t.slab g = b := by
  obtain ⟨_, _, rfl⟩ := h.form
  exact tableRead_tableWrite_same Slab.unused u.pm.slabs g b

theorem slab_other {k : Nat} (hk : k ≠ g) : t.slab k = u.slab k := by
  obtain ⟨_, _, rfl⟩ := h.form
  exact tableRead_tableWrite_other Slab.unused u.pm.slabs b hk

theorem lane : t.lane n = Lane.idle := by
  obtain ⟨_, _, rfl⟩ := h.form
  exact tableRead_tableWrite_same Lane.idle u.me.lanes n Lane.idle

theorem lane_other {m : Nat} (hm : m ≠ n) : t.lane m = u.lane m := by
  obtain ⟨_, _, rfl⟩ := h.form
  exact tableRead_tableWrite_other Lane.idle u.me.lanes Lane.idle hm

theorem mp_eq : t.mp = mp := by
  obtain ⟨_, _, rfl⟩ := h.form
  rfl

theorem volumes_eq : t.pm.volumes = volumes := by
  obtain ⟨_, _, rfl⟩ := h.form
  rfl

end JobEnded

/-! ## A MOVE committed (R82) -/

section
variable {n g : Nat} {p : Place} {u : State} (hp : (u.slab g).target = some p)
  (hw : (u.lane n).pages = [] ∨ u.sp.waiting = []) (hkey : slotKey p ≠ slotKey (u.slab g).home)
  (ht : (u.slot p).state = .target) (hh : (u.slot (u.slab g).home).state = .home)
include hp hw

/-- The slab's entry once its MOVE is committed. -/
def Slab.committed (b : Slab) (p : Place) : Slab :=
  { b with state := .live, home := p, target := none, front := 0, persisted := 0, mark := false, salvage := false }

theorem moveCommitted_eq : moveCommitted n g u = countMove (fun c => { c with movesCommitted := bump c.movesCommitted })
    (State.releaseSlot p (State.releaseSlot (u.slab g).home ((State.leavePlace (u.slab g).home
      (State.writeSlot p { u.slot p with state := .home } (u.setSlab g ((u.slab g).committed p)))).idled n))) := by
  have hform : moveCommitted n g u = countMove (fun c => { c with movesCommitted := bump c.movesCommitted })
      (laneToIdle n [(u.slab g).home, p] (State.leavePlace (u.slab g).home
        (State.writeSlot p { u.slot p with state := .home } (u.setSlab g ((u.slab g).committed p))))) := by
    unfold moveCommitted
    dsimp only
    rw [hp]
    rfl
  obtain ⟨slots, sets, h⟩ : SlotsOnly (u.setSlab g ((u.slab g).committed p)) (State.leavePlace (u.slab g).home
      (State.writeSlot p { u.slot p with state := .home } (u.setSlab g ((u.slab g).committed p)))) :=
    (SlotsOnly.writeSlot ..).trans (SlotsOnly.writeSlot ..)
  rw [hform, laneToIdle_idled _ (by rw [h]; exact hw), forEach_pair]

theorem moveCommitted_ends : JobEnded n g ((u.slab g).committed p)
    { u.me.counters with movesCommitted := min (u.me.counters.movesCommitted + 1) 4294967295 } u.mp u.pm.volumes u
    (moveCommitted n g u) := by
  obtain ⟨slots, sets, h⟩ : SlotsOnly (u.setSlab g ((u.slab g).committed p)) (State.leavePlace (u.slab g).home
      (State.writeSlot p { u.slot p with state := .home } (u.setSlab g ((u.slab g).committed p)))) :=
    (SlotsOnly.writeSlot ..).trans (SlotsOnly.writeSlot ..)
  rw [moveCommitted_eq hp hw, h]
  obtain ⟨slots', sets', h'⟩ := (SlotsOnly.writeSlot (u.slab g).home _ (State.idled
    { u.setSlab g ((u.slab g).committed p) with
      pm := { (u.setSlab g ((u.slab g).committed p)).pm with slots := slots, sets := sets } } n)).trans (SlotsOnly.writeSlot p _ _)
  exact ⟨slots', sets', (congrArg (countMove _) h').trans rfl⟩

end

/-- The slots of a MOVE committed: the target becomes the home, the old home is left, both lane holds are cleared. -/
theorem commit_slots {u s1 s2 s4 : State} {p home : Place} (hkey : slotKey p ≠ slotKey home) (ht : (u.slot p).state = .target)
    (hh : (u.slot home).state = .home) (hslot1 : ∀ q, s1.slot q = u.slot q) (hset1 : ∀ k, s1.set k = u.set k)
    (hs2 : s2 = State.writeSlot p { u.slot p with state := .home } s1) (hslot4 : ∀ q, s4.slot q = (State.leavePlace home s2).slot q)
    (hset4 : ∀ k, s4.set k = (State.leavePlace home s2).set k) :
    let t := State.releaseSlot p (s4.releaseSlot home)
    t.slot p = { u.slot p with state := .home, lane := none } ∧ SlotLeft home u t
      ∧ ∀ q, slotKey q ≠ slotKey p → slotKey q ≠ slotKey home → t.slot q = u.slot q := by
  intro t
  have hp2 : s2.slot p = { u.slot p with state := .home } := by
    rw [hs2]
    exact writeSlot_slot_same _ s1 rfl
  have hslot2 {q : Place} (hq : slotKey q ≠ slotKey p) : s2.slot q = u.slot q := by
    rw [hs2]
    exact (writeSlot_slot_other _ s1 hq).trans (hslot1 q)
  have hset2 (k : Nat) : s2.set k = u.set k := by
    have hkept : (s1.slot p).state = .free ↔ SlotState.home = .free := by
      rw [hslot1, ht]
      decide
    rw [hs2]
    exact (writeSlot_set_kept hkept k).trans (hset1 k)
  have hleft : SlotLeft home s2 (s4.releaseSlot home) :=
    slotLeft_release (by rw [hslot2 hkey.symm, hh]; nofun) (hslot4 home) hset4
  have hslot5 {q : Place} (hq : slotKey q ≠ slotKey home) : (s4.releaseSlot home).slot q = s2.slot q :=
    (writeSlot_slot_other _ s4 hq).trans ((hslot4 q).trans (writeSlot_slot_other _ s2 hq))
  have hp5 : (s4.releaseSlot home).slot p = { u.slot p with state := .home } := (hslot5 hkey).trans hp2
  obtain ⟨hplace, hothers, hsets⟩ := releaseSlot_home_kept (s := s4.releaseSlot home) (q := p) (by rw [hp5])
  refine ⟨hplace.trans (by rw [hp5]), hleft.of_reads (hslot2 hkey.symm) hset2 (hothers home hkey.symm) hsets, fun q hq hq' => ?_⟩
  exact (hothers q hq).trans ((hslot5 hq').trans (hslot2 hq))

theorem countMove_slot (f : MoveCounters → MoveCounters) (s : State) (q : Place) : (countMove f s).slot q = s.slot q := rfl

theorem countMove_set (f : MoveCounters → MoveCounters) (s : State) (k : Nat) : (countMove f s).set k = s.set k := rfl

theorem moveCommitted_slots {n g : Nat} {p : Place} {u : State} (hp : (u.slab g).target = some p)
    (hw : (u.lane n).pages = [] ∨ u.sp.waiting = []) (hkey : slotKey p ≠ slotKey (u.slab g).home)
    (ht : (u.slot p).state = .target) (hh : (u.slot (u.slab g).home).state = .home) :
    (moveCommitted n g u).slot p = { u.slot p with state := .home, lane := none }
      ∧ SlotLeft (u.slab g).home u (moveCommitted n g u)
      ∧ ∀ q, slotKey q ≠ slotKey p → slotKey q ≠ slotKey (u.slab g).home → (moveCommitted n g u).slot q = u.slot q := by
  obtain ⟨s2, hs2⟩ : ∃ s2, s2 = State.writeSlot p { u.slot p with state := .home } (u.setSlab g ((u.slab g).committed p)) := ⟨_, rfl⟩
  have hend := moveCommitted_eq (n := n) hp hw
  rw [← hs2] at hend
  obtain ⟨hplace, hleft, hothers⟩ := commit_slots (u := u) (s1 := u.setSlab g ((u.slab g).committed p))
    (s4 := (State.leavePlace (u.slab g).home s2).idled n) hkey ht hh (fun _ => rfl) (fun _ => rfl) hs2 (fun _ => rfl) fun _ => rfl
  rw [hend]
  exact ⟨(countMove_slot ..).trans hplace, hleft.of_reads rfl (fun _ => rfl) (countMove_slot ..) (fun _ => countMove_set ..),
    fun q hq hq' => (countMove_slot ..).trans (hothers q hq hq')⟩

/-! ## A MOVE aborted (R86) -/

section
variable {n g : Nat} {p : Place} {u : State} (hp : (u.slab g).target = some p)
  (hw : (u.lane n).pages = [] ∨ u.sp.waiting = []) (hkey : slotKey p ≠ slotKey (u.slab g).home)
  (ht : (u.slot p).state = .target) (hh : (u.slot (u.slab g).home).state = .home)
include hp hw

/-- The slab's entry once its MOVE is aborted. -/
def Slab.aborted (b : Slab) : Slab :=
  { b with state := .live, target := none, front := 0, persisted := 0, mark := false, salvage := false }

theorem abortDurable_eq : ∃ slots sets,
    forEach State.releaseSlot [(u.slab g).home, p] (((u.setSlab g (u.slab g).aborted).leavePlace p).idled n)
      = { u.setSlab g (u.slab g).aborted with
          pm := { (u.setSlab g (u.slab g).aborted).pm with slots := slots, sets := sets }
          sp := { u.sp with free := (u.lane n).pages.foldr insertRising u.sp.free }
          me := { u.me with lanes := tableWrite Lane.idle u.me.lanes n Lane.idle } }
      ∧ abortDurable n g u = { u with
          pm := { u.pm with slabs := tableWrite Slab.unused u.pm.slabs g (u.slab g).aborted, slots := slots, sets := sets }
          sp := { u.sp with free := (u.lane n).pages.foldr insertRising u.sp.free }
          me := { u.me with
            lanes := tableWrite Lane.idle u.me.lanes n Lane.idle
            counters := { u.me.counters with movesAborted := min (u.me.counters.movesAborted + 1) 4294967295 } }
          mp := (u.offerNotice (.jobAborted (u.slab g).volume (g - (u.volume (u.slab g).volume).base) g .move
            ((u.lane n).cause.getD .cancelled) (u.slab g).front)).mp } := by
  let s1 := u.setSlab g (u.slab g).aborted
  let s3 := s1.leavePlace p
  obtain ⟨slots, sets, hs3⟩ : SlotsOnly s1 s3 := SlotsOnly.writeSlot ..
  obtain ⟨slots', sets', hreleased⟩ := SlotsOnly.forEach_releaseSlot [(u.slab g).home, p] (s3.idled n)
  let w : State := { u with
    pm := { u.pm with slabs := tableWrite Slab.unused u.pm.slabs g (u.slab g).aborted, slots := slots', sets := sets' }
    sp := { u.sp with free := (u.lane n).pages.foldr insertRising u.sp.free }
    me := { u.me with
      lanes := tableWrite Lane.idle u.me.lanes n Lane.idle
      counters := { u.me.counters with movesAborted := min (u.me.counters.movesAborted + 1) 4294967295 } } }
  refine ⟨slots', sets', hreleased.trans (by rw [hs3]; rfl), ?_⟩
  have hcounted : countMove (fun c => { c with movesAborted := bump c.movesAborted }) (laneToIdle n [(u.slab g).home, p] s3) = w := by
    rw [laneToIdle_idled _ (by rw [hs3]; exact hw), hreleased, hs3]
    rfl
  have hform : abortDurable n g u = offerAborted g .move ((u.lane n).cause.getD .cancelled) (u.slab g).front
      (countMove (fun c => { c with movesAborted := bump c.movesAborted }) (laneToIdle n [(u.slab g).home, p] s3)) := by
    unfold abortDurable
    dsimp only
    rw [hp]
    rfl
  have hslab : w.slab g = (u.slab g).aborted := tableRead_tableWrite_same Slab.unused u.pm.slabs g (u.slab g).aborted
  rw [hform, hcounted, offerAborted, State.volumeSlab, hslab]
  exact offerNotice_of_mp (s := u) (t := w) _ rfl

theorem abortDurable_ends : JobEnded n g (u.slab g).aborted
    { u.me.counters with movesAborted := min (u.me.counters.movesAborted + 1) 4294967295 }
    (u.offerNotice (.jobAborted (u.slab g).volume (g - (u.volume (u.slab g).volume).base) g .move
      ((u.lane n).cause.getD .cancelled) (u.slab g).front)).mp u.pm.volumes u (abortDurable n g u) := by
  obtain ⟨slots, sets, -, h⟩ := abortDurable_eq (n := n) hp hw
  exact ⟨slots, sets, h⟩

include hkey ht hh

theorem abortDurable_slots :
    (abortDurable n g u).slot (u.slab g).home = { u.slot (u.slab g).home with lane := none }
      ∧ SlotLeft p u (abortDurable n g u)
      ∧ ∀ q, slotKey q ≠ slotKey p → slotKey q ≠ slotKey (u.slab g).home → (abortDurable n g u).slot q = u.slot q := by
  let home := (u.slab g).home
  let s1 := u.setSlab g (u.slab g).aborted
  let s3 := s1.leavePlace p
  let s4 := s3.idled n
  let s5 := s4.releaseSlot home
  let s6 := s5.releaseSlot p
  obtain ⟨slots, sets, hreleased, hend⟩ := abortDurable_eq (n := n) hp hw
  have hslot (q : Place) : (abortDurable n g u).slot q = s6.slot q := by
    rw [hend, show s6 = _ from hreleased]
    rfl
  have hset (k : Nat) : (abortDurable n g u).set k = s6.set k := by
    rw [hend, show s6 = _ from hreleased]
    rfl
  have hhome4 : s4.slot home = u.slot home := writeSlot_slot_other _ s1 hkey.symm
  obtain ⟨hkept, hothers, hsets⟩ := releaseSlot_home_kept (s := s4) (q := home) (by rw [hhome4, hh])
  have hleft : SlotLeft p s1 s6 := slotLeft_release (s := s1) (b := s5)
    (by rw [show s1.slot p = u.slot p from rfl, ht]; nofun) (hothers p hkey) hsets
  refine ⟨?_, hleft.of_reads rfl (fun _ => rfl) (hslot p) hset, fun q hq hq' => ?_⟩
  · rw [hslot]
    exact (writeSlot_slot_other _ s5 hkey.symm).trans (hkept.trans (by rw [hhome4]))
  · rw [hslot]
    exact (writeSlot_slot_other _ s5 hq).trans ((hothers q hq').trans (writeSlot_slot_other _ s1 hq))

end

/-! ## A FILL ended (R15, R83) -/

/-- The notice that a volume's ready count has reached its slab count (R48). -/
def State.readyTold (u : State) (v ready : Nat) (e : Volume) : State :=
  if ready = e.count ∧ e.ready < e.count then u.offerNotice (.growReady v e.count) else u

theorem readyTold_mp (u : State) (v ready : Nat) (e : Volume) : ∃ m, u.readyTold v ready e = { u with mp := m } := by
  unfold State.readyTold
  split
  · exact offerNotice_eq _ u
  · exact ⟨u.mp, rfl⟩

theorem readyTold_of_mp {s t : State} {v ready : Nat} {e : Volume} (h : t.mp = s.mp) :
    t.readyTold v ready e = { t with mp := (s.readyTold v ready e).mp } := by
  unfold State.readyTold
  split
  · exact offerNotice_of_mp _ h
  · rw [← h]

theorem recomputeReady_eq (v : Nat) (s : State) : s.recomputeReady v
    = (s.setVolume v { s.volume v with ready := s.readyCount v }).readyTold v (s.readyCount v) (s.volume v) := rfl

/-- The slab's entry once its FILL has ended. -/
def Slab.filled (b : Slab) : Slab := { b with state := .live, front := 0, persisted := 0, mark := false }

section
variable {n g : Nat} {u : State} (hw : (u.lane n).pages = [] ∨ u.sp.waiting = [])
include hw

theorem fillCommitted_ends :
    let v := (u.slab g).volume
    let ready := (u.setSlab g (u.slab g).filled).readyCount v
    JobEnded n g (u.slab g).filled { u.me.counters with fillsEnded := min (u.me.counters.fillsEnded + 1) 4294967295 }
        (u.readyTold v ready (u.volume v)).mp
        (tableWrite Volume.unused u.pm.volumes v { u.volume v with ready := ready }) u (fillCommitted n g u)
      ∧ ((u.slot (u.slab g).home).state = .home →
          (fillCommitted n g u).slot (u.slab g).home = { u.slot (u.slab g).home with lane := none }
            ∧ (∀ q, slotKey q ≠ slotKey (u.slab g).home → (fillCommitted n g u).slot q = u.slot q)
            ∧ (fillCommitted n g u).pm.sets = u.pm.sets) := by
  intro v ready
  let s1 := u.setSlab g (u.slab g).filled
  let s2 : State := { s1 with
    pm := { s1.pm with volumes := tableWrite Volume.unused u.pm.volumes v { u.volume v with ready := ready } }
    mp := (u.readyTold v ready (u.volume v)).mp }
  have hready : s1.recomputeReady v = s2 := readyTold_of_mp (s := u) rfl
  have hform : fillCommitted n g u = countMove (fun c => { c with fillsEnded := bump c.fillsEnded })
      (forEach State.releaseSlot [(u.slab g).home] (s2.idled n)) := by
    have hidle := laneToIdle_idled (n := n) (s := s2) [(u.slab g).home] hw
    rw [← hidle, ← hready]
    rfl
  rw [hform]
  refine ⟨?_, fun hh => ?_⟩
  · obtain ⟨slots, sets, hreleased⟩ := SlotsOnly.forEach_releaseSlot [(u.slab g).home] (s2.idled n)
    exact ⟨slots, sets, by rw [hreleased]; rfl⟩
  · obtain ⟨hkept, hothers, -⟩ := releaseSlot_home_kept (s := s2.idled n) (q := (u.slab g).home) hh
    refine ⟨hkept, hothers, ?_⟩
    show (State.releaseSlot (u.slab g).home (s2.idled n)).pm.sets = _
    rw [releaseSlot_home (s := s2.idled n) hh]
    rfl

end

end Sys2Proof.Machine
end

section
/-! PROOFS. What the durable records of sets do to members and sets (R34, R40, R42). -/

namespace Sys2Proof.Machine

/-! ## The lasting state while the journal takes a record (R151) -/

/-- A change that keeps the durable account. -/
def KeepsDurable (s t : State) : Prop := t.jc.durable = s.jc.durable

namespace KeepsDurable

theorem trans {s t u : State} (h : KeepsDurable s t) (h' : KeepsDurable t u) : KeepsDurable s u := Eq.trans h' h

theorem offerNotice (n : Notice) (s : State) : KeepsDurable s (s.offerNotice n) := by
  obtain ⟨m, hm⟩ := offerNotice_eq n s
  rw [hm]
  rfl

theorem openNext (s : State) : KeepsDurable s (openNext s) := by
  unfold Machine.openNext
  split
  · rfl
  · next h _ =>
    split
    · split
      · rfl
      · next b _ =>
        split
        · have hmove : KeepsDurable s (moveHead h b s) := by
            unfold moveHead
            split <;> rfl
          refine hmove.trans ?_
          unfold compactionCheck
          split
          · exact KeepsDurable.offerNotice _ ((moveHead h b s).onJc _)
          · rfl
        all_goals rfl
    · rfl

theorem imageDue (s : State) : KeepsDurable s (imageDue s) := by
  unfold Machine.imageDue
  split
  · unfold nextImageRecord
    extract_lets built
    have hbuilt : KeepsDurable s built := by
      unfold built
      split <;> rfl
    refine hbuilt.trans ?_
    split
    · rfl
    · split <;> rfl
  · rfl

theorem eraseOldest (s : State) : KeepsDurable s (eraseOldest s) := by
  unfold Machine.eraseOldest
  split <;> rfl

theorem kickStore (s : State) : KeepsDurable s (kickStore s) := by
  unfold Machine.kickStore
  split
  · refine ((openNext s).trans (imageDue _)).trans ?_
    dsimp only
    split
    · split
      · exact eraseOldest _
      · unfold programRecord
        split <;> rfl
    · exact eraseOldest _
  · rfl

theorem queueRecord (owner : JOwner) (body : RecordBody) (s : State) : KeepsDurable s (queueRecord owner body s) := by
  unfold Machine.queueRecord queueWork
  split
  · split
    · have hentered : KeepsDurable s (enterRecord owner ⟨body, none⟩ s) := by
        rw [enterRecord_unasked]
        split <;> rfl
      exact hentered.trans (kickStore _)
    · rfl
  · rfl

end KeepsDurable

/-! ## Changes of members alone -/

/-- A state that differs from another in its members, the Message Port, the journal and the exchanges alone, and has the same
lasting state. -/
structure MembersOnly (s t : State) : Prop where
  form : ∃ members m j a, t = { s with pm := { s.pm with members := members }, mp := m, jc := j, agenda := a }
  durable : KeepsDurable s t

namespace MembersOnly

theorem refl (s : State) : MembersOnly s s := ⟨⟨s.pm.members, s.mp, s.jc, s.agenda, rfl⟩, rfl⟩

theorem trans {s t u : State} (h : MembersOnly s t) (h' : MembersOnly t u) : MembersOnly s u := by
  refine ⟨?_, h.durable.trans h'.durable⟩
  obtain ⟨_, _, _, _, rfl⟩ := h.form
  obtain ⟨members, m, j, a, rfl⟩ := h'.form
  exact ⟨members, m, j, a, rfl⟩

theorem changeMember (id : Nat) (m : Member) (s : State) : MembersOnly s (changeMember id m s) := by
  by_cases h : (s.member id).state = m.state
  · rw [changeMember_same h]
    exact ⟨⟨tableWrite Member.absent s.pm.members id m, s.mp, s.jc, s.agenda, rfl⟩, rfl⟩
  · rw [changeMember_moves h]
    obtain ⟨p, hp⟩ := offerNotice_eq (.memberState id (s.member id).state m.state) (s.setMember id m)
    rw [hp]
    exact ⟨⟨tableWrite Member.absent s.pm.members id m, p, s.jc, s.agenda, rfl⟩, rfl⟩

theorem pmRecord (body : RecordBody) (s : State) : MembersOnly s (pmRecord body s) := by
  refine ⟨?_, KeepsDurable.queueRecord ..⟩
  obtain ⟨m, j, a, h⟩ := JournalOnly.queueRecord .pm body s
  exact ⟨s.pm.members, m, j, a, h⟩

end MembersOnly

theorem member_setMember_same (id : Nat) (m : Member) (s : State) : (s.setMember id m).member id = m :=
  tableRead_tableWrite_same Member.absent s.pm.members id m

theorem member_setMember_other {id k : Nat} (m : Member) (s : State) (h : k ≠ id) : (s.setMember id m).member k = s.member k :=
  tableRead_tableWrite_other Member.absent s.pm.members m h

theorem changeMember_member (id : Nat) (m : Member) (s : State) (k : Nat) :
    (changeMember id m s).member k = (s.setMember id m).member k := by
  by_cases h : (s.member id).state = m.state
  · rw [changeMember_same h]
  · rw [changeMember_moves h]
    obtain ⟨p, hp⟩ := offerNotice_eq (.memberState id (s.member id).state m.state) (s.setMember id m)
    rw [hp]
    rfl

theorem pmRecord_member (body : RecordBody) (s : State) (k : Nat) : (pmRecord body s).member k = s.member k := by
  obtain ⟨_, _, _, h⟩ := JournalOnly.queueRecord .pm body s
  rw [pmRecord, h]
  rfl

/-! ## The members of a set, one after another -/

/-- A step for a position that changes the entry of its member, and calm where the member's state stays. -/
structure MemberStep (f : Position → State → State) (g : Position → Member → Member) : Prop where
  only : ∀ p s, MembersOnly s (f p s)
  same : ∀ p s, (f p s).member p.member = g p (s.member p.member)
  other : ∀ p s id, id ≠ p.member → (f p s).member id = s.member id
  calm : ∀ p s, (g p (s.member p.member)).state = (s.member p.member).state →
    (f p s).mp = s.mp ∧ (f p s).jc = s.jc ∧ (f p s).agenda = s.agenda

/-- What such steps do for the positions of a set, whose members differ. -/
structure MembersStepped (g : Position → Member → Member) (positions : List Position) (s t : State) : Prop where
  only : MembersOnly s t
  same : ∀ p ∈ positions, t.member p.member = g p (s.member p.member)
  other : ∀ id, (∀ p ∈ positions, p.member ≠ id) → t.member id = s.member id
  calm : (∀ p ∈ positions, (g p (s.member p.member)).state = (s.member p.member).state) →
    t.mp = s.mp ∧ t.jc = s.jc ∧ t.agenda = s.agenda

theorem MemberStep.forEach {f : Position → State → State} {g : Position → Member → Member} (hf : MemberStep f g)
    {positions : List Position} (hn : (positions.map Position.member).Nodup) (s : State) :
    MembersStepped g positions s (forEach f positions s) := by
  induction positions generalizing s with
  | nil => exact ⟨.refl s, fun _ h => absurd h List.not_mem_nil, fun _ _ => rfl, fun _ => ⟨rfl, rfl, rfl⟩⟩
  | cons p rest ih =>
    obtain ⟨hp, hrest⟩ := List.nodup_cons.1 hn
    obtain ⟨honly, hsame, hother, hcalm⟩ := ih hrest (f p s)
    have hne (x : Position) (hx : x ∈ rest) : x.member ≠ p.member := fun h => hp (h ▸ List.mem_map_of_mem hx)
    refine ⟨(hf.only p s).trans honly, fun x hx => ?_, fun id hid => ?_, fun h => ?_⟩
    · rcases List.mem_cons.1 hx with rfl | hx
      · exact (hother x.member hne).trans (hf.same x s)
      · exact (hsame x hx).trans (by rw [hf.other p s x.member (hne x hx)])
    · exact (hother id fun x hx => hid x (List.mem_cons_of_mem _ hx)).trans (hf.other p s id (hid p List.mem_cons_self).symm)
    · obtain ⟨hmp, hjc, ha⟩ := hf.calm p s (h p List.mem_cons_self)
      obtain ⟨hmp', hjc', ha'⟩ := hcalm fun x hx => by
        rw [hf.other p s x.member (hne x hx)]
        exact h x (List.mem_cons_of_mem _ hx)
      exact ⟨hmp'.trans hmp, hjc'.trans hjc, ha'.trans ha⟩

theorem joinBand_step (k : Nat) : MemberStep (joinBand k) fun p m => m.addBand ⟨k, p.start⟩ := by
  have hread (p : Position) (s : State) (id : Nat) : (joinBand k p s).member id
      = (s.setMember p.member ((s.member p.member).addBand ⟨k, p.start⟩)).member id := by
    unfold joinBand
    dsimp only
    split
    · rw [pmRecord_member, changeMember_member]
    · rw [changeMember_member]
  refine ⟨fun p s => ?_, fun p s => (hread p s _).trans (member_setMember_same ..),
    fun p s id hid => (hread p s id).trans (member_setMember_other _ s hid), fun p s h => ?_⟩
  · unfold joinBand
    dsimp only
    split
    · exact (MembersOnly.changeMember _ _ s).trans (.pmRecord _ _)
    · exact MembersOnly.changeMember _ _ s
  · have hstays : (s.member p.member).state ≠ .available := fun ha => by
      rw [Member.addBand, if_pos ha, ha] at h
      cases h
    unfold joinBand
    dsimp only
    rw [if_neg hstays, changeMember_same h.symm]
    exact ⟨rfl, rfl, rfl⟩

theorem leaveBand_step (k : Nat) : MemberStep (leaveBand k) fun _ m => m.dropBand k := by
  have hread (p : Position) (s : State) (id : Nat) : (leaveBand k p s).member id
      = (s.setMember p.member ((s.member p.member).dropBand k)).member id := by
    unfold leaveBand
    dsimp only
    split
    · rw [pmRecord_member, changeMember_member]
    · rw [changeMember_member]
  refine ⟨fun p s => ?_, fun p s => (hread p s _).trans (member_setMember_same ..),
    fun p s id hid => (hread p s id).trans (member_setMember_other _ s hid), fun p s h => ?_⟩
  · unfold leaveBand
    dsimp only
    split
    · exact (MembersOnly.changeMember _ _ s).trans (.pmRecord _ _)
    · exact MembersOnly.changeMember _ _ s
  · have hstays : ¬((s.member p.member).state = .active ∧ ((s.member p.member).dropBand k).state = .available) :=
      fun ⟨hactive, hleaves⟩ => MemberState.noConfusion (hleaves.symm.trans (h.trans hactive))
    unfold leaveBand
    dsimp only
    rw [if_neg hstays, changeMember_same h.symm]
    exact ⟨rfl, rfl, rfl⟩

/-! ## SET_DEFINE durable (R40) -/

theorem addBand_state_failed (m : Member) (b : Band) : (m.addBand b).state = .failed ↔ m.state = .failed := by
  unfold Member.addBand
  dsimp only
  split
  · next h =>
    rw [h]
    exact iff_of_false nofun nofun
  · exact Iff.rfl

/-- The members of a set once its definition is durable. -/
def State.setJoined (u : State) (k : Nat) : State := forEach (joinBand k) (u.set k).positions u

theorem setJoined_stepped {u : State} {k : Nat} (hn : ((u.set k).positions.map Position.member).Nodup) :
    MembersStepped (fun p m => m.addBand ⟨k, p.start⟩) (u.set k).positions u (u.setJoined k) := (joinBand_step k).forEach hn u

theorem failedPositions_setJoined {u : State} {k : Nat} (hn : ((u.set k).positions.map Position.member).Nodup) :
    (u.setJoined k).failedPositions (u.set k).positions = u.failedPositions (u.set k).positions := by
  refine congrArg List.length (List.filter_congr fun p hp => decide_eq_decide.2 ?_)
  rw [(setJoined_stepped hn).same p hp]
  exact addBand_state_failed ..

/-- A set defined: its members, its own entry, and nothing else of the map. -/
theorem setEstablished_eq {u : State} {tag : ReqTag} {k : Nat} (hn : ((u.set k).positions.map Position.member).Nodup) :
    let failed := u.failedPositions (u.set k).positions
    ∃ m, setEstablished tag k u = { u.setJoined k with
        pm := { (u.setJoined k).pm with
          sets := tableWrite SetEntry.unused (u.setJoined k).pm.sets k
            { u.set k with failedCount := failed, state := setStateOf failed }, busy := none }
        mp := m }
      ∧ ((u.setJoined k).mp = u.mp → m = (State.answer tag .ok (.setDefined k (u.set k).rows (u.set k).slots)
          (u.offerNotice (.setState k .pending (setStateOf failed) failed))).mp) := by
  intro failed
  let w : State := (u.setJoined k).setSet k { u.set k with failedCount := failed, state := setStateOf failed }
  have hform : setEstablished tag k u = State.answer tag .ok (.setDefined k (u.set k).rows (u.set k).slots)
      (setBusy none (w.offerNotice (.setState k .pending (setStateOf failed) failed))) := by
    unfold setEstablished
    dsimp only
    rw [show forEach (joinBand k) (u.set k).positions u = u.setJoined k from rfl, failedPositions_setJoined hn]
  obtain ⟨m, hm⟩ := offerNotice_eq (.setState k .pending (setStateOf failed) failed) w
  obtain ⟨m', hm'⟩ := answer_eq tag .ok (.setDefined k (u.set k).rows (u.set k).slots) (setBusy none { w with mp := m })
  refine ⟨m', by rw [hform, hm, hm']; rfl, fun hmp => ?_⟩
  have hoffer : m = (u.offerNotice (.setState k .pending (setStateOf failed) failed)).mp := by
    rw [← offerNotice_mp (s := u) (t := w) _ hmp, hm]
  have hanswer := answer_of_mp (s := u.offerNotice (.setState k .pending (setStateOf failed) failed))
    (t := setBusy none { w with mp := m }) tag .ok (.setDefined k (u.set k).rows (u.set k).slots) hoffer
  rw [hm'] at hanswer
  exact congrArg State.mp hanswer

/-! ## SET_RETIRE durable (R42) -/

/-- The members of a set once its retirement is durable. -/
def State.setUnjoined (u : State) (k : Nat) : State := forEach (leaveBand k) (u.set k).positions u

theorem setUnjoined_stepped {u : State} {k : Nat} (hn : ((u.set k).positions.map Position.member).Nodup) :
    MembersStepped (fun _ m => m.dropBand k) (u.set k).positions u (u.setUnjoined k) := (leaveBand_step k).forEach hn u

theorem setRetired_eq (u : State) (tag : ReqTag) (k : Nat) :
    ∃ m, setRetired tag k u = { u.setUnjoined k with
        pm := { (u.setUnjoined k).pm with
          sets := tableWrite SetEntry.unused (u.setUnjoined k).pm.sets k SetEntry.unused, busy := none }
        agenda := (u.setUnjoined k).agenda ++ [.setChanged k .unused], mp := m }
      ∧ ((u.setUnjoined k).mp = u.mp →
          m = (State.answer tag .ok .empty (u.offerNotice (.setState k (u.set k).state .unused 0))).mp) := by
  let w : State := (u.setUnjoined k).setSet k SetEntry.unused
  obtain ⟨m, hm⟩ := offerNotice_eq (.setState k (u.set k).state .unused 0) w
  obtain ⟨m', hm'⟩ := answer_eq tag .ok .empty (setBusy none (State.post (.setChanged k .unused) { w with mp := m }))
  have hform : setRetired tag k u = State.answer tag .ok .empty (setBusy none (State.post (.setChanged k .unused)
      (w.offerNotice (.setState k (u.set k).state .unused 0)))) := rfl
  refine ⟨m', by rw [hform, hm, hm']; rfl, fun hmp => ?_⟩
  have hoffer : m = (u.offerNotice (.setState k (u.set k).state .unused 0)).mp := by
    rw [← offerNotice_mp (s := u) (t := w) _ hmp, hm]
  have hanswer := answer_of_mp (s := u.offerNotice (.setState k (u.set k).state .unused 0))
    (t := setBusy none (State.post (.setChanged k .unused) { w with mp := m })) tag .ok .empty hoffer
  rw [hm'] at hanswer
  exact congrArg State.mp hanswer

end Sys2Proof.Machine
end

section
/-! PROOFS. What a durable GROW_CLOSE does: the new slabs, their FILL jobs, and the volume (R15, R46, R71). -/

namespace Sys2Proof.Machine

/-! ## The FILL part (R72) -/

theorem fillPart_admitted {j : Job} (hj : j.kind = .fill) (jobs : List Job) :
    fillPart (fillPart jobs ++ [j] ++ movePart jobs) = fillPart jobs ++ [j]
      ∧ movePart (fillPart jobs ++ [j] ++ movePart jobs) = movePart jobs := by
  induction jobs with
  | nil => constructor <;> simp [fillPart, movePart, hj]
  | cons k rest ih =>
    obtain ⟨hfill, hmove⟩ := ih
    by_cases hk : k.kind = .fill
    · have hf : fillPart (k :: rest) = k :: fillPart rest := by simp [fillPart, hk]
      have hm : movePart (k :: rest) = movePart rest := by simp [movePart, hk]
      have hcons (l : List Job) : fillPart (k :: l) = k :: fillPart l ∧ movePart (k :: l) = movePart l :=
        ⟨by simp [fillPart, hk], by simp [movePart, hk]⟩
      rw [hf, hm, List.cons_append, List.cons_append, (hcons _).1, (hcons _).2, hfill, hmove]
      exact ⟨rfl, rfl⟩
    · have hf : fillPart (k :: rest) = [] := by simp [fillPart, hk]
      have hm : movePart (k :: rest) = k :: rest := by simp [movePart, hk]
      rw [hf, hm]
      constructor <;> simp [fillPart, movePart, hj, hk]

theorem fillPart_append_movePart (jobs : List Job) : fillPart jobs ++ movePart jobs = jobs := List.takeWhile_append_dropWhile

/-! ## The new slabs (R46) -/

/-- The entry of a slab that a growth adds. -/
def grownSlab (volume : Nat) (p : Placement) : Slab :=
  { state := .filling, volume := volume, home := p.place, target := none, front := 0, persisted := 0, mark := true,
    salvage := false }

/-- The FILL job of a slab that a growth adds. -/
def grownJob (p : Placement) : Job :=
  { kind := .fill, slab := p.slab, candidates := 0, salvage := false, resume := none, retained := none, cause := none }

theorem growSlab_eq (volume : Nat) (p : Placement) (s : State) : growSlab volume p s = { s with
    pm := { s.pm with slabs := tableWrite Slab.unused s.pm.slabs p.slab (grownSlab volume p) }
    me := { s.me with
      jobs := fillPart s.me.jobs ++ [grownJob p] ++ movePart s.me.jobs
      counters := { s.me.counters with jobsAdmitted := bump s.me.counters.jobsAdmitted } } } := by
  let t := s.setSlab p.slab (grownSlab volume p)
  have hslab : t.slab p.slab = grownSlab volume p := tableRead_tableWrite_same Slab.unused s.pm.slabs p.slab (grownSlab volume p)
  have hform : growSlab volume p s = { t with
      pm := { t.pm with slabs := tableWrite Slab.unused t.pm.slabs p.slab { t.slab p.slab with mark := true } }
      me := { s.me with
        jobs := fillPart s.me.jobs ++ [grownJob p] ++ movePart s.me.jobs
        counters := { s.me.counters with jobsAdmitted := bump s.me.counters.jobsAdmitted } } } := rfl
  have hagain : tableWrite Slab.unused t.pm.slabs p.slab (grownSlab volume p)
      = tableWrite Slab.unused s.pm.slabs p.slab (grownSlab volume p) :=
    tableWrite_tableWrite Slab.unused s.pm.slabs p.slab (grownSlab volume p) (grownSlab volume p)
  rw [hform, hslab, show ({ grownSlab volume p with mark := true } : Slab) = grownSlab volume p from rfl, hagain]
  rfl

/-- The new slabs of a growth, each with its job. -/
structure Grown (volume : Nat) (homes : List Placement) (s t : State) : Prop where
  form : ∃ slabs counters, t = { s with
    pm := { s.pm with slabs := slabs }
    me := { s.me with jobs := fillPart s.me.jobs ++ homes.map grownJob ++ movePart s.me.jobs, counters := counters } }
  same : ∀ p ∈ homes, t.slab p.slab = grownSlab volume p
  other : ∀ g, (∀ p ∈ homes, p.slab ≠ g) → t.slab g = s.slab g

theorem forEach_growSlab (volume : Nat) {homes : List Placement} (hn : (homes.map Placement.slab).Nodup) (s : State) :
    Grown volume homes s (forEach (growSlab volume) homes s) := by
  induction homes generalizing s with
  | nil =>
    refine ⟨⟨s.pm.slabs, s.me.counters, ?_⟩, fun _ h => absurd h List.not_mem_nil, fun _ _ => rfl⟩
    rw [List.map_nil, List.append_nil, fillPart_append_movePart]
    rfl
  | cons p rest ih =>
    obtain ⟨hp, hrest⟩ := List.nodup_cons.1 hn
    obtain ⟨⟨slabs, counters, hform⟩, hsame, hother⟩ := ih hrest (growSlab volume p s)
    obtain ⟨hfill, hmove⟩ := fillPart_admitted (j := grownJob p) rfl s.me.jobs
    have hne (x : Placement) (hx : x ∈ rest) : x.slab ≠ p.slab := fun h => hp (h ▸ List.mem_map_of_mem hx)
    have hstep : (growSlab volume p s).me.jobs = fillPart s.me.jobs ++ [grownJob p] ++ movePart s.me.jobs := by
      rw [growSlab_eq]
    refine ⟨⟨slabs, counters, hform.trans ?_⟩, fun x hx => ?_, fun g hg => ?_⟩
    · rw [hstep, hfill, hmove, List.append_assoc (fillPart s.me.jobs), growSlab_eq]
      rfl
    · rcases List.mem_cons.1 hx with rfl | hx
      · refine (hother x.slab hne).trans ?_
        rw [growSlab_eq]
        exact tableRead_tableWrite_same Slab.unused s.pm.slabs x.slab (grownSlab volume x)
      · exact hsame x hx
    · refine (hother g fun x hx => hg x (List.mem_cons_of_mem _ hx)).trans ?_
      rw [growSlab_eq]
      exact tableRead_tableWrite_other Slab.unused s.pm.slabs (grownSlab volume p) (hg p List.mem_cons_self).symm

/-! ## The growth -/

/-- What a growth in effect changes. -/
structure GrowthTaken (w : GrowWork) (u t : State) : Prop where
  form : ∃ slabs counters volumes, t = { u with
    pm := { u.pm with slabs := slabs, volumes := volumes, busy := none }
    me := { u.me with jobs := fillPart u.me.jobs ++ w.homes.map grownJob ++ movePart u.me.jobs, counters := counters }
    mp := (State.answer w.tag .ok (.grown w.new (t.readyCount w.volume))
      (u.readyTold w.volume (t.readyCount w.volume) { u.volume w.volume with count := w.new })).mp }
  same : ∀ p ∈ w.homes, t.slab p.slab = grownSlab w.volume p
  other : ∀ g, (∀ p ∈ w.homes, p.slab ≠ g) → t.slab g = u.slab g
  volume : t.volume w.volume = { u.volume w.volume with count := w.new, ready := t.readyCount w.volume }
  volumes : ∀ v, v ≠ w.volume → t.volume v = u.volume v

theorem growthEffect_taken {u : State} {w : GrowWork} (hn : (w.homes.map Placement.slab).Nodup) :
    GrowthTaken w u (growthEffect w u) := by
  obtain ⟨⟨slabs, counters, hform⟩, hsame, hother⟩ := forEach_growSlab w.volume hn (setBusy none u)
  let e : Volume := { u.volume w.volume with count := w.new }
  let s1 := forEach (growSlab w.volume) w.homes (setBusy none u)
  let s2 := s1.setVolume w.volume e
  obtain ⟨r, hr⟩ : ∃ r, s2.readyCount w.volume = r := ⟨_, rfl⟩
  let volumes := tableWrite Volume.unused (tableWrite Volume.unused u.pm.volumes w.volume e) w.volume { e with ready := r }
  let v : State := { u with
    pm := { u.pm with slabs := slabs, volumes := volumes, busy := none }
    me := { u.me with jobs := fillPart u.me.jobs ++ w.homes.map grownJob ++ movePart u.me.jobs, counters := counters }
    mp := (u.readyTold w.volume r e).mp }
  have he2 : s2.volume w.volume = e := tableRead_tableWrite_same Volume.unused s1.pm.volumes w.volume e
  have hs1 : s1.volume w.volume = u.volume w.volume := by
    show s1.volume w.volume = _
    rw [show s1 = _ from hform]
    rfl
  have hready : s2.recomputeReady w.volume = v := by
    rw [recomputeReady_eq, he2, hr]
    refine (readyTold_of_mp (s := u) ?_).trans ?_
    · show s1.mp = u.mp
      rw [show s1 = _ from hform]
      rfl
    · show ({ s2.setVolume w.volume { e with ready := r } with mp := _ } : State) = v
      rw [show s2 = State.setVolume w.volume e s1 from rfl, show s1 = _ from hform]
      rfl
  have hv : v.volume w.volume = { e with ready := r } := tableRead_tableWrite_same Volume.unused _ w.volume { e with ready := r }
  have hgrowth : growthEffect w u = State.answer w.tag .ok (.grown w.new (v.volume w.volume).ready) v := by
    unfold growthEffect
    dsimp only
    rw [show State.volume (forEach (growSlab w.volume) w.homes (setBusy none u)) w.volume = u.volume w.volume from hs1,
      show State.recomputeReady w.volume (State.setVolume w.volume { u.volume w.volume with count := w.new }
        (forEach (growSlab w.volume) w.homes (setBusy none u))) = v from hready]
  rw [hv] at hgrowth
  have hanswer := answer_of_mp (s := u.readyTold w.volume r e) (t := v) w.tag .ok (.grown w.new r) rfl
  have hslabs (g : Nat) : v.slab g = s1.slab g := by
    rw [show s1 = _ from hform]
    rfl
  have hcount : (growthEffect w u).readyCount w.volume = r := by
    have hread : (growthEffect w u).readyCount w.volume = v.readyCount w.volume := by
      rw [hgrowth, hanswer]
      rfl
    rw [hread, readyCount_eq, hv]
    show Volume.readyIn e v = _
    rw [← hr, readyCount_eq, he2]
    exact readyIn_congr e fun g => by rw [hslabs]; rfl
  have hfinal : growthEffect w u = { v with mp := (State.answer w.tag .ok (.grown w.new r) (u.readyTold w.volume r e)).mp } :=
    hgrowth.trans hanswer
  refine ⟨⟨slabs, counters, volumes, by rw [hcount]; exact hfinal⟩, fun p hp => ?_, fun g hg => ?_, ?_, fun k hk => ?_⟩
  · rw [hfinal]
    exact (hslabs p.slab).trans (hsame p hp)
  · rw [hfinal]
    exact (hslabs g).trans (hother g hg)
  · rw [hcount, hfinal]
    exact hv
  · rw [hfinal]
    exact (tableRead_tableWrite_other Volume.unused _ { e with ready := r } hk).trans
      (tableRead_tableWrite_other Volume.unused u.pm.volumes e hk)

/-- A growth within the places that it reserved keeps the law of R71. -/
theorem GrowthTaken.lawful {u t : State} {w : GrowWork} (ht : GrowthTaken w u t) (hb : u.pm.busy = some (.growing w)) (hn : (w.homes.map Placement.slab).Nodup)
    (hl : u.jobsLawful) (hfresh : ∀ p ∈ w.homes, p.slab ∉ u.jobSlabs) (hlen : w.homes.length ≤ w.new - w.old) :
    t.jobsLawful := by
  obtain ⟨hnodup, hmarked, hplaces⟩ := hl
  obtain ⟨slabs, counters, volumes, hform⟩ := ht.form
  have hjobs : t.me.jobs = fillPart u.me.jobs ++ w.homes.map grownJob ++ movePart u.me.jobs := by rw [hform]
  have hlane (n : Nat) : t.lane n = u.lane n := by
    rw [hform]
    rfl
  have hmap : (w.homes.map grownJob).map Job.slab = w.homes.map Placement.slab := List.map_map
  have hslabs : t.jobSlabs.Perm (w.homes.map Placement.slab ++ u.jobSlabs) := by
    have hsplit : u.me.jobs.map Job.slab = (fillPart u.me.jobs).map Job.slab ++ (movePart u.me.jobs).map Job.slab := by
      rw [← List.map_append, fillPart_append_movePart]
    simp only [State.jobSlabs, hjobs, hlane, List.map_append, hmap, hsplit]
    simp only [List.append_assoc]
    exact List.perm_append_comm_assoc ..
  refine ⟨hslabs.nodup_iff.2 (List.nodup_append.2 ⟨hn, hnodup, fun a ha b hb hab => ?_⟩), fun g hg => ?_, ?_⟩
  · obtain ⟨p, hp, rfl⟩ := List.mem_map.1 ha
    exact hfresh p hp (hab ▸ hb)
  · rcases List.mem_append.1 (hslabs.mem_iff.1 hg) with hg | hg
    · obtain ⟨p, hp, rfl⟩ := List.mem_map.1 hg
      rw [ht.same p hp]
      rfl
    · rw [ht.other g fun p hp h => hfresh p hp (h ▸ hg)]
      exact hmarked g hg
  · have hreserved : u.reservedPlaces = w.new - w.old := by
      unfold State.reservedPlaces
      rw [hb]
    have hnone : t.reservedPlaces = 0 := by
      unfold State.reservedPlaces
      rw [hform]
    have hlanes : t.laneJobs = u.laneJobs := by simp only [State.laneJobs, hlane]
    have hcount : t.me.jobs.length = u.me.jobs.length + w.homes.length := by
      have hsplit : u.me.jobs.length = (fillPart u.me.jobs).length + (movePart u.me.jobs).length := by
        rw [← List.length_append, fillPart_append_movePart]
      rw [hjobs, List.length_append, List.length_append, List.length_map, hsplit]
      omega
    rw [hcount, hlanes, hnone]
    rw [hreserved] at hplaces
    omega

end Sys2Proof.Machine
end

section
/-! PROOFS. A record becomes durable: the read-back, and what the owner does (R151). -/

namespace Sys2Proof.Machine

/-! ## The read-back (R151) -/

theorem execPageProgramEnd_idle {s : State} (h : ∀ start block page r, s.jc.op ≠ some (.program start block page r)) (success : Bool) :
    exec (.pageProgramEnd success) s = .next s := by
  show execPageProgramEnd success s = _
  unfold execPageProgramEnd
  split
  · next start block page r hop => exact absurd hop (h start block page r)
  all_goals rfl

theorem execReadBackEnd_idle {s : State} (h : ∀ start block page r, s.jc.op ≠ some (.readBack start block page r)) (bytes : List Byte) :
    exec (.readBackEnd bytes) s = .next s := by
  show execReadBackEnd bytes s = _
  unfold execReadBackEnd
  split
  · next start block page r hop => exact absurd hop (h start block page r)
  all_goals rfl

theorem imageBegun_other {r : Record} (h : ∀ arrayId params bad lost counts, r.body ≠ .imageBegin arrayId params bad lost counts)
    (block : Nat) (s : State) : imageBegun r block s = s := by
  unfold imageBegun
  split
  · next hbody => exact absurd hbody (h _ _ _ _ _)
  · rfl

theorem imageEnded_other {r : Record} (h : ∀ first parts, r.body ≠ .imageEnd first parts) (s : State) : imageEnded r s = s := by
  unfold imageEnded
  split
  · next hbody => exact absurd hbody (h _ _)
  · rfl

/-- The journal once a record is durable. -/
def Journal.kept (j : Journal) (page : Nat) (r : Record) : Journal :=
  { j with
    queue := j.queue.filter (fun k => k.seq ≠ r.seq), storePlace := j.storePlace.filter (fun k => k.seq ≠ r.seq)
    imageRecord := if j.imageRecord = some r then none else j.imageRecord
    durable := applyRecord r.seq r.body j.durable, nextPage := page + 1, op := none
    counters := { j.counters with durable := min (j.counters.durable + 1) 4294967295 } }

theorem recordIsDurable_eq (block page : Nat) (r : Record) (s : State) : recordIsDurable block page r s
    = (((imageEnded r (imageBegun r block { s with jc := s.jc.kept page r })).post (.recordDurable r)).post .roomServe).post
        .storeNext := rfl

theorem recordIsDurable_plain {s : State} {r : Record} (block page : Nat) (hs : s.quiet)
    (hb : ∀ arrayId params bad lost counts, r.body ≠ .imageBegin arrayId params bad lost counts)
    (he : ∀ first parts, r.body ≠ .imageEnd first parts) :
    recordIsDurable block page r s
      = { s with jc := s.jc.kept page r, agenda := [.recordDurable r, .roomServe, .storeNext] } := by
  rw [recordIsDurable_eq, imageBegun_other hb, imageEnded_other he]
  show ({ s with jc := s.jc.kept page r, agenda := ((s.agenda ++ [_]) ++ [_]) ++ [_] } : State) = _
  rw [show s.agenda = [] from hs]
  rfl

/-- The journal once the one record that it holds is durable. -/
def Journal.emptied (j : Journal) (page : Nat) (r : Record) : Journal :=
  { j with
    queue := [], durable := applyRecord r.seq r.body j.durable, nextPage := page + 1, op := none
    counters := { j.counters with durable := min (j.counters.durable + 1) 4294967295 } }

theorem kept_emptied {j : Journal} {page : Nat} {r : Record} (hq : j.queue = [r]) (hsp : j.storePlace = [])
    (hi : j.imageRecord = none) : j.kept page r = j.emptied page r := by
  have hqueue : j.queue.filter (fun k => k.seq ≠ r.seq) = [] := by
    rw [hq]
    exact List.filter_cons_of_neg (by simp)
  rw [Journal.kept, Journal.emptied, hqueue, hsp, hi]
  rfl

/-- The last record of the journal is durable: its owner acts, and the store rests. -/
theorem readBack_rests {s v : State} {start block page : Nat} {r : Record} (hs : s.quiet)
    (hop : s.jc.op = some (.readBack start block page r)) (hq : s.jc.queue = [r]) (hsp : s.jc.storePlace = [])
    (hi : s.jc.imageRecord = none) (hw : s.jc.roomWait = []) (hst : s.jc.state = .writing) (hh : s.jc.head = some block)
    (hc : (s.storeBlock block).cond = .head) (hp : page + 1 < 256) (hn : ∀ b, (s.storeBlock b).cond ≠ .awaiting)
    (hb : ∀ arrayId params bad lost counts, r.body ≠ .imageBegin arrayId params bad lost counts)
    (he : ∀ first parts, r.body ≠ .imageEnd first parts)
    (hv : ownerDurable r { s with jc := s.jc.emptied page r } = v) (hjc : v.jc = s.jc.emptied page r) (hqv : v.agenda = [])
    (hcl : v.clock = s.clock) (hpend : v.pending = s.pending) (hj : v.jobsIdle = s.jobsIdle) :
    exec (.readBackEnd (pageBytes r.seq r.body)) s = .next v := by
  have hblock (b : Nat) : v.storeBlock b = s.storeBlock b := by
    rw [State.storeBlock, hjc]
    rfl
  have hserve : serveRoom v = v := serveRoom_none (by rw [hjc]; exact hw)
  have hkick : kickStore v = v := by
    refine kickStore_rests (by rw [hjc]; rfl) (Or.inl ?_) (openNext_imageDue_stays (by rw [hjc]; exact hh)
      (by rw [hjc]; exact hp) (by rw [hblock, hc]) (by rw [hjc]; show s.jc.state ≠ _; rw [hst]; nofun))
      ((nextRecord_of (by rw [hjc]; rfl) (by rw [hjc]; exact hsp)).trans (by rw [hjc]; exact hi)) (by simpa only [hblock] using hn)
    rw [hjc]
    show (decide (s.jc.state = .writing) || _) = true
    rw [decide_eq_true hst, Bool.true_or]
  rw [execReadBackEnd_good hop, recordIsDurable_plain block page hs hb he, kept_emptied hq hsp hi]
  refine congrArg Host.Outcome.next (finish_three (i := .recordDurable r) (j := .roomServe) (k := .storeNext) (u := v) (v := v)
    (w := v) rfl ?_ hqv hserve hqv hkick hqv hcl hpend hj)
  refine Eq.trans (congrArg (ownerDurable r) ?_) hv
  exact cleared_eq (t := { s with jc := s.jc.emptied page r }) hs

/-! ## Parameters (R55, R80, R81) -/

theorem forEach_postRowStart (l : List Nat) (s : State) :
    forEach (fun n s => s.post (.rowStart n)) l s = { s with agenda := s.agenda ++ l.map Internal.rowStart } := by
  induction l generalizing s with
  | nil =>
    rw [List.map_nil, List.append_nil]
    rfl
  | cons n rest ih =>
    rw [forEach, ih, List.map_cons, ← List.singleton_append, ← List.append_assoc]
    rfl

theorem passTokens_eq (s : State) : passTokens s = { s with
    me := { s.me with tokenOrder := [] }, agenda := s.agenda ++ s.me.tokenOrder.map Internal.rowStart } := forEach_postRowStart ..

theorem moveRate_durable (u : State) (q v : Nat) (tag : ReqTag) :
    ownerDurable ⟨q, .param .moveRate v, .me, some tag⟩ u = State.answer tag .ok .empty { u with
      me := { u.me with moveRate := v, tokenOrder := if v = 0 then [] else u.me.tokenOrder },
      agenda := u.agenda ++ (if v = 0 then u.me.tokenOrder.map Internal.rowStart else []) } := by
  refine congrArg (State.answer tag .ok .empty) ?_
  show (if v = 0 then passTokens { u with me := { u.me with moveRate := v } } else { u with me := { u.me with moveRate := v } }) = _
  by_cases hv : v = 0
  · rw [if_pos hv, if_pos hv, if_pos hv, passTokens_eq]
  · rw [if_neg hv, if_neg hv, if_neg hv, List.append_nil]

/-! ## Members (R32, R33, R37, R38) -/

/-- The state told of a durable MEMBER record. -/
def State.memberTold (u : State) (q id : Nat) (cond : MemberCond) (reply : Option ReqTag) : State :=
  ownerDurable ⟨q, .member id cond, .pm, reply⟩ u

section
variable {u : State} {q : Nat} {tag : ReqTag} {id k : Nat} {reply : Option ReqTag}

theorem memberTold_verified {capacity : Nat} {formatOk durable : Bool} (hb : u.pm.busy = some (.joining tag id (some k) true durable))
    (hm : (u.member id).state = .joining) :
    u.memberTold q id (.admission capacity formatOk) reply = State.answer tag .ok (.labelSeq k)
      (State.offerNotice (.memberState id .joining .available)
        { u with pm := { u.pm with
          members := tableWrite Member.absent u.pm.members id { u.member id with state := .available, labelSeq := some k },
          busy := none } }) := by
  have hcomplete : u.memberTold q id (.admission capacity formatOk) reply = joinComplete tag id k u := by
    show pmDurable _ u = _
    unfold pmDurable
    rw [hb]
    exact if_pos rfl
  have hchange := changeMember_of_mp (r := u) (t := u) (id := id)
    (m := { u.member id with state := .available, labelSeq := some k }) hm rfl (by nofun) rfl
  rw [hcomplete, joinComplete, hchange]
  refine congrArg (State.answer tag .ok (.labelSeq k)) (Eq.symm ?_)
  exact offerNotice_of_mp (s := u) _ rfl

theorem memberTold_numbered {capacity : Nat} {formatOk durable : Bool} (hb : u.pm.busy = some (.joining tag id (some k) false durable)) :
    u.memberTold q id (.admission capacity formatOk) reply
      = { u with pm := { u.pm with busy := some (.joining tag id (some k) false true) } } := by
  show pmDurable _ u = _
  unfold pmDurable
  rw [hb]
  exact if_pos rfl

theorem memberTold_joinFailed (hb : u.pm.busy = some (.joinFailed tag id)) :
    u.memberTold q id .unadmitted reply = State.answer tag .driveError .empty { u with pm := { u.pm with busy := none } } := by
  show pmDurable _ u = _
  unfold pmDurable
  rw [hb]
  exact if_pos rfl

theorem memberTold_released {was : Member} (hb : u.pm.busy = some (.releasing tag id was)) :
    u.memberTold q id .unadmitted (some tag) = State.answer tag .ok .empty { u with pm := { u.pm with busy := none } } := by
  show pmDurable _ u = _
  unfold pmDurable
  rw [hb]
  exact if_pos rfl

theorem memberTold_failing (hb : u.pm.busy = some (.failing tag id)) :
    u.memberTold q id .failed (some tag) = State.answer tag .ok .empty { u with pm := { u.pm with busy := none } } := by
  show pmDurable _ u = _
  unfold pmDurable
  rw [hb]
  exact if_pos rfl

/-- A MEMBER record that no configuration request waits for changes nothing more. -/
theorem memberTold_unasked {cond : MemberCond} (h : (cond = .failed ∧ reply = none) ∨ cond = .available ∨ cond = .active) :
    u.memberTold q id cond reply = u := by
  show pmDurable _ u = _
  unfold pmDurable
  cases u.pm.busy with
  | none => rfl
  | some w => obtain ⟨rfl, rfl⟩ | rfl | rfl := h <;> cases w <;> rfl

end

/-! ## Bands (R34) -/

/-- The state in which a member has left one state for another, with its record queued. -/
def State.bandChanged (u : State) (id : Nat) (old : MemberState) (m : Member) (cond : MemberCond) : State :=
  State.post (.recordQueued ⟨u.jc.nextSeq, .member id cond, .pm, none⟩)
    (State.withRecord .pm (.member id cond) none (State.offerNotice (.memberState id old m.state)
      { u with pm := { u.pm with members := tableWrite Member.absent u.pm.members id m } }))

theorem pmRecord_changeMember {u : State} {id : Nat} {m : Member} {old : MemberState} (ho : u.journalOpen)
    (hold : (u.member id).state = old) (hne : old ≠ m.state) (cond : MemberCond) :
    pmRecord (.member id cond) (changeMember id m u) = u.bandChanged id old m cond := by
  subst hold
  obtain ⟨p, hp⟩ := offerNotice_eq (.memberState id (u.member id).state m.state) (u.setMember id m)
  have hchange : changeMember id m u = State.offerNotice (.memberState id (u.member id).state m.state)
      { u with pm := { u.pm with members := tableWrite Member.absent u.pm.members id m } } := changeMember_moves hne
  have hjc : (changeMember id m u).jc = u.jc := by
    rw [changeMember_moves hne, hp]
    rfl
  have hopen : (changeMember id m u).journalOpen := by
    unfold State.journalOpen State.headSpent State.storeBlock
    rw [hjc]
    exact ho
  rw [pmRecord, queueRecord_open hopen, hjc, hchange, State.bandChanged]

theorem joinBand_activates {u : State} {k : Nat} {p : Position} (ho : u.journalOpen) (hm : (u.member p.member).state = .available) :
    joinBand k p u = u.bandChanged p.member .available
      { u.member p.member with state := .active, bands := (u.member p.member).bands ++ [⟨k, p.start⟩] } .active := by
  have hadd : (u.member p.member).addBand ⟨k, p.start⟩
      = { u.member p.member with state := .active, bands := (u.member p.member).bands ++ [⟨k, p.start⟩] } := by
    rw [Member.addBand, if_pos hm]
  unfold joinBand
  dsimp only
  rw [if_pos hm, hadd]
  exact pmRecord_changeMember ho hm (by nofun) .active

theorem leaveBand_idles {u : State} {k : Nat} {p : Position} (ho : u.journalOpen) (hm : (u.member p.member).state = .active)
    (hb : (u.member p.member).bands.filter (fun b => b.set ≠ k) = []) :
    leaveBand k p u = u.bandChanged p.member .active { u.member p.member with state := .available, bands := [] } .available := by
  have hdrop : (u.member p.member).dropBand k = { u.member p.member with state := .available, bands := [] } := by
    unfold Member.dropBand
    dsimp only
    rw [hb, if_pos ⟨hm, rfl⟩]
  unfold leaveBand
  dsimp only
  rw [hdrop, if_pos ⟨hm, rfl⟩]
  exact pmRecord_changeMember ho hm (by nofun) .available

/-! ## Sets (R40, R42) -/

section
variable {u t : State} {tag : ReqTag} {k : Nat} (hn : ((u.set k).positions.map Position.member).Nodup)
include hn

theorem setEstablished_members :
    (∀ p ∈ (u.set k).positions, (setEstablished tag k u).member p.member = (u.member p.member).addBand ⟨k, p.start⟩)
      ∧ (∀ id, (∀ p ∈ (u.set k).positions, p.member ≠ id) → (setEstablished tag k u).member id = u.member id) := by
  obtain ⟨m, hform, -⟩ := setEstablished_eq (tag := tag) hn
  have hread (id : Nat) : (setEstablished tag k u).member id = (u.setJoined k).member id := by
    rw [hform]
    rfl
  exact ⟨fun p hp => (hread _).trans ((setJoined_stepped hn).same p hp),
    fun id hid => (hread id).trans ((setJoined_stepped hn).other id hid)⟩

theorem setEstablished_sets :
    (setEstablished tag k u).set k = { u.set k with
        failedCount := u.failedPositions (u.set k).positions, state := setStateOf (u.failedPositions (u.set k).positions) }
      ∧ ∀ j, j ≠ k → (setEstablished tag k u).set j = u.set j := by
  obtain ⟨m, hform, -⟩ := setEstablished_eq (tag := tag) hn
  obtain ⟨members, m', j', a, hw⟩ := (setJoined_stepped hn).only.form
  rw [hform, hw]
  let e : SetEntry := { u.set k with
    failedCount := u.failedPositions (u.set k).positions, state := setStateOf (u.failedPositions (u.set k).positions) }
  exact ⟨tableRead_tableWrite_same SetEntry.unused u.pm.sets k e, fun j hj => tableRead_tableWrite_other SetEntry.unused u.pm.sets e hj⟩

theorem setEstablished_kept : ∃ members sets m j a, setEstablished tag k u = { u with
    pm := { u.pm with members := members, sets := sets, busy := none }, mp := m, jc := j, agenda := a }
      ∧ j.durable = u.jc.durable
      ∧ ((∀ p ∈ (u.set k).positions, (u.member p.member).state ≠ .available) →
          m = (State.answer tag .ok (.setDefined k (u.set k).rows (u.set k).slots) (u.offerNotice (.setState k .pending
            (setStateOf (u.failedPositions (u.set k).positions)) (u.failedPositions (u.set k).positions)))).mp
            ∧ j = u.jc ∧ a = u.agenda) := by
  obtain ⟨m, hform, hmp⟩ := setEstablished_eq (tag := tag) hn
  have hstep := setJoined_stepped hn
  obtain ⟨members, m', j', a, hw⟩ := hstep.only.form
  refine ⟨members, _, m, j', a, hform.trans (by rw [hw]), ?_, fun h => ?_⟩
  · have hdurable : (u.setJoined k).jc.durable = u.jc.durable := hstep.only.durable
    rw [hw] at hdurable
    exact hdurable
  · obtain ⟨hmp', hjc, ha⟩ := hstep.calm fun p hp => if_neg (h p hp)
    refine ⟨hmp hmp', ?_, ?_⟩
    · rw [hw] at hjc
      exact hjc
    · rw [hw] at ha
      exact ha

theorem setRetired_members :
    (∀ p ∈ (u.set k).positions, (setRetired tag k u).member p.member = (u.member p.member).dropBand k)
      ∧ (∀ id, (∀ p ∈ (u.set k).positions, p.member ≠ id) → (setRetired tag k u).member id = u.member id) := by
  obtain ⟨m, hform, -⟩ := setRetired_eq u tag k
  have hread (id : Nat) : (setRetired tag k u).member id = (u.setUnjoined k).member id := by
    rw [hform]
    rfl
  exact ⟨fun p hp => (hread _).trans ((setUnjoined_stepped hn).same p hp),
    fun id hid => (hread id).trans ((setUnjoined_stepped hn).other id hid)⟩

theorem setRetired_sets :
    (setRetired tag k u).set k = SetEntry.unused ∧ ∀ j, j ≠ k → (setRetired tag k u).set j = u.set j := by
  obtain ⟨m, hform, -⟩ := setRetired_eq u tag k
  obtain ⟨members, m', j', a, hw⟩ := (setUnjoined_stepped hn).only.form
  rw [hform, hw]
  exact ⟨tableRead_tableWrite_same SetEntry.unused u.pm.sets k SetEntry.unused,
    fun j hj => tableRead_tableWrite_other SetEntry.unused u.pm.sets SetEntry.unused hj⟩

theorem setRetired_kept : ∃ members sets m j a, setRetired tag k u = { u with
    pm := { u.pm with members := members, sets := sets, busy := none }, mp := m, jc := j, agenda := a }
      ∧ j.durable = u.jc.durable
      ∧ ((∀ p ∈ (u.set k).positions, ((u.member p.member).dropBand k).state = (u.member p.member).state) →
          m = (State.answer tag .ok .empty (u.offerNotice (.setState k (u.set k).state .unused 0))).mp
            ∧ j = u.jc ∧ a = u.agenda ++ [.setChanged k .unused]) := by
  obtain ⟨m, hform, hmp⟩ := setRetired_eq u tag k
  have hstep := setUnjoined_stepped hn
  obtain ⟨members, m', j', a, hw⟩ := hstep.only.form
  refine ⟨members, _, m, j', a ++ [.setChanged k .unused], hform.trans (by rw [hw]), ?_, fun h => ?_⟩
  · have hdurable : (u.setUnjoined k).jc.durable = u.jc.durable := hstep.only.durable
    rw [hw] at hdurable
    exact hdurable
  · obtain ⟨hmp', hjc, ha⟩ := hstep.calm h
    refine ⟨hmp hmp', ?_, ?_⟩
    · rw [hw] at hjc
      exact hjc
    · rw [hw] at ha
      exact congrArg (· ++ [Internal.setChanged k .unused]) ha

end

/-! ## Lanes (R76, R77, R80) -/

section
variable {u : State} {n g : Nat} {target : Place} {salvage : Bool}

theorem beginDurable_starts (h : (u.lane n).cause = none) : beginDurable n g target salvage u = startAttempt n (u.setSlab g
    { u.slab g with state := .moving, target := some target, front := 0, persisted := 0, salvage := salvage }) := by
  unfold beginDurable
  dsimp only
  rw [show (State.lane (u.setSlab g
    { u.slab g with state := .moving, target := some target, front := 0, persisted := 0, salvage := salvage }) n).cause = none from h]

theorem beginDurable_aborts {cause : AbortCause} (h : (u.lane n).cause = some cause) :
    beginDurable n g target salvage u = abortLane n cause (u.setSlab g
      { u.slab g with state := .moving, target := some target, front := 0, persisted := 0, salvage := salvage }) := by
  unfold beginDurable
  dsimp only
  rw [show (State.lane (u.setSlab g
    { u.slab g with state := .moving, target := some target, front := 0, persisted := 0, salvage := salvage }) n).cause
      = some cause from h]

theorem slab_setSlab_same (b : Slab) : (u.setSlab g b).slab g = b := tableRead_tableWrite_same Slab.unused u.pm.slabs g b

end

/-- The ready count after a FILL has ended (R15). -/
theorem fillCommitted_ready {n g : Nat} {u : State} (hw : (u.lane n).pages = [] ∨ u.sp.waiting = []) :
    let t := fillCommitted n g u
    let v := (u.slab g).volume
    t.volume v = { u.volume v with ready := t.readyCount v } ∧ (∀ k, k ≠ v → t.volume k = u.volume k)
      ∧ t.mp = (u.readyTold v (t.readyCount v) (u.volume v)).mp := by
  intro t v
  obtain ⟨hended, -⟩ := fillCommitted_ends (n := n) (g := g) (u := u) hw
  obtain ⟨slots, sets, hform⟩ := hended.form
  obtain ⟨ready, hready⟩ : ∃ ready, (u.setSlab g (u.slab g).filled).readyCount v = ready := ⟨_, rfl⟩
  rw [show (u.slab g).volume = v from rfl, hready] at hform
  have hvolume : t.volume v = { u.volume v with ready := ready } := by
    show (fillCommitted n g u).volume v = _
    rw [hform]
    exact tableRead_tableWrite_same Volume.unused u.pm.volumes v { u.volume v with ready := ready }
  have hcount : t.readyCount v = ready := by
    rw [readyCount_eq, hvolume, ← hready]
    refine readyIn_congr (s := u.setSlab g (u.slab g).filled) (u.volume v) fun k => ?_
    show ((fillCommitted n g u).slab k).state = _ ↔ _
    rw [hform]
    exact Iff.rfl
  rw [hcount]
  refine ⟨hvolume, fun k hk => ?_, (congrArg State.mp hform :)⟩
  show (fillCommitted n g u).volume k = _
  rw [hform]
  exact tableRead_tableWrite_other Volume.unused u.pm.volumes { u.volume v with ready := ready } hk

/-! ## The obligation -/

/-- Settles O53: the read-back by the record, then what the owner does, record by record. -/
theorem recordsBecomeDurable : Obligations.RecordsBecomeDurable := by
  refine ⟨fun s hs => ⟨fun start block page r hop => ?_, execPageProgramEnd_idle, execReadBackEnd_idle,
    fun start block page r hop hb he => ?_, fun start block page r hop hq hsp hi hw hst hh hc hp hn => ?_⟩, fun u q => ?_⟩
  · rw [execPageProgramEnd_programming hop]
    exact conclude_quiet hs rfl rfl rfl
  · exact (execReadBackEnd_good hop).trans (congrArg (fun t => Host.Outcome.next (finish s t)) (recordIsDurable_plain block page hs hb he))
  · intro written
    refine ⟨fun v tag hbody howner hreply => ?_, fun n g target hlt hbody howner hjobs => ?_⟩
    · have howned : ownerDurable r { s with jc := written } = State.answer tag .ok .empty
          { s with jc := written, gu := { s.gu with holdLife := v } } := by
        unfold ownerDurable
        rw [howner, hbody, hreply]
        rfl
      obtain ⟨m, hm⟩ := answer_eq tag .ok .empty { s with jc := written, gu := { s.gu with holdLife := v } }
      rw [hm] at howned ⊢
      exact readBack_rests hs hop hq hsp hi hw hst hh hc hp hn (by rw [hbody]; nofun) (by rw [hbody]; nofun) howned rfl hs rfl rfl rfl
    · intro b ht hkey hjob hpages hts hhs hrefs
      let u : State := { s with jc := s.jc.emptied page r }
      have howned : ownerDurable r u = moveCommitted n g u := by
        unfold ownerDurable
        rw [howner, hbody]
        rfl
      have hended := moveCommitted_ends (n := n) (u := u) ht (Or.inl hpages)
      obtain ⟨hplace, hleft, hothers⟩ := moveCommitted_slots (n := n) (u := u) ht (Or.inl hpages) hkey hts hhs
      obtain ⟨hfree, hset⟩ := hleft.freed hrefs
      have hslabs := @hended.slab_other
      have hlanes := @hended.lane_other
      obtain ⟨slots, sets, hform⟩ := hended.form
      rw [show (u.lane n).pages = [] from hpages] at hform
      have hidle : (moveCommitted n g u).jobsIdle = s.jobsIdle := by
        rw [jobsIdle_of_jobs hjobs, jobsIdle_of_jobs (by rw [hform]; exact hjobs)]
      refine ⟨moveCommitted n g u, readBack_rests hs hop hq hsp hi hw hst hh hc hp hn (by rw [hbody]; nofun) (by rw [hbody]; nofun)
        howned (by rw [hform]) (by rw [hform]; exact hs) (by rw [hform]) (by rw [hform]) hidle, hended.slab, fun k hk => hslabs hk,
        hplace, hfree, fun q hq hq' => hothers q hq hq', hset, hleft.others, hended.lane, fun m hm => hlanes hm, ?_⟩
      rw [hform]
      exact ⟨rfl, rfl, rfl, rfl, rfl, rfl, rfl⟩
  · intro told ok kept
    refine ⟨fun v tag => ⟨rfl, rfl, rfl, rfl, rfl, rfl, moveRate_durable u q v tag, fun hb => ?_⟩,
      fun tag id k durable capacity formatOk reply => ⟨memberTold_verified, memberTold_numbered, memberTold_joinFailed,
        fun was => memberTold_released, memberTold_failing, memberTold_unasked (Or.inl ⟨rfl, rfl⟩),
        memberTold_unasked (Or.inr (Or.inl rfl)), memberTold_unasked (Or.inr (Or.inr rfl))⟩,
      fun tag k unit bandLength positions reply hb => ?_, fun tag k reply hb => ?_,
      fun ho k p => ⟨joinBand_activates ho, leaveBand_idles ho⟩, fun tag v id base limit pool reply hb => ?_,
      fun w parts reply hb hn => ?_, fun n g target salvage reply => ?_, fun n g value reply => ?_, fun n g reply hw => ?_,
      fun n tag volume first count g place d block => ⟨rfl, rfl, rfl, ?_⟩⟩
    · show pmDurable _ u = _
      unfold pmDurable
      rw [hb]
      rfl
    · intro e hn t failed state
      have ht : t = setEstablished tag k u := by
        show pmDurable _ u = _
        unfold pmDurable
        rw [hb]
      obtain ⟨hsame, hother⟩ := setEstablished_members (tag := tag) hn
      obtain ⟨hset, hsets⟩ := setEstablished_sets (tag := tag) hn
      obtain ⟨members, sets, m, j, a, hform, hdurable, hcalm⟩ := setEstablished_kept (tag := tag) hn
      rw [← ht] at hsame hother hset hsets hform
      refine ⟨hsame, hother, hset, hsets, ?_⟩
      rw [hform]
      exact ⟨rfl, rfl, rfl, rfl, rfl, rfl, ⟨rfl, rfl, rfl, hdurable, rfl⟩, hcalm⟩
    · intro e hn t bands idle
      have ht : t = setRetired tag k u := by
        show pmDurable _ u = _
        unfold pmDurable
        rw [hb]
      obtain ⟨hsame, hother⟩ := setRetired_members (tag := tag) hn
      obtain ⟨hset, hsets⟩ := setRetired_sets (tag := tag) hn
      obtain ⟨members, sets, m, j, a, hform, hdurable, hcalm⟩ := setRetired_kept (tag := tag) hn
      rw [← ht] at hsame hother hset hsets hform
      have hidle (id : Nat) (h : idle id) : (u.member id).dropBand k = { u.member id with state := .available, bands := [] } := by
        unfold Member.dropBand
        dsimp only
        rw [if_pos h, show (u.member id).bands.filter (fun b => b.set ≠ k) = [] from h.2]
      have hbusy (id : Nat) (h : ¬idle id) : (u.member id).dropBand k = { u.member id with bands := bands id } := by
        unfold Member.dropBand
        dsimp only
        rw [if_neg h]
      refine ⟨fun p hp => ⟨fun h => (hsame p hp).trans (hidle _ h), fun h => (hsame p hp).trans (hbusy _ h)⟩, hother, hset, hsets, ?_⟩
      rw [hform]
      exact ⟨rfl, rfl, rfl, rfl, rfl, rfl, ⟨rfl, rfl, rfl, hdurable, rfl⟩,
        fun h => hcalm fun p hp => (congrArg Member.state (hbusy _ (h p hp)) :)⟩
    · show pmDurable _ u = _
      unfold pmDurable
      rw [hb]
      rfl
    · intro t jobs
      have ht : t = growthEffect w u := by
        show pmDurable _ u = _
        unfold pmDurable
        rw [hb]
      have htaken : GrowthTaken w u t := ht ▸ growthEffect_taken hn
      have hlawful := htaken.lawful hb hn
      obtain ⟨⟨slabs, counters, volumes, hform⟩, hsame, hother, hvolume, hvolumes⟩ := htaken
      have hme : t.me = _ := congrArg State.me hform
      have hpm : t.pm = _ := congrArg State.pm hform
      refine ⟨(congrArg MoveEngine.jobs hme :), hsame, hother, hvolume, hvolumes, (congrArg PlacementMap.busy hpm :),
        (congrArg PlacementMap.slots hpm :), (congrArg PlacementMap.sets hpm :), (congrArg PlacementMap.members hpm :),
        (congrArg MoveEngine.lanes hme :), (congrArg State.sp hform :), ⟨(congrArg State.gu hform :), (congrArg State.dp hform :),
        (congrArg State.sm hform :), (congrArg (fun x : State => x.jc.durable) hform :), (congrArg State.part hform :)⟩,
        (congrArg State.jc hform :), (congrArg State.mp hform :), hlawful⟩
    · intro begun
      exact ⟨fun hcause => beginDurable_starts hcause, fun cause hcause => beginDurable_aborts hcause⟩
    · intro t
      have ht : t = if u.replacePending g ∨ (u.slab g).front < value then u else u.setSlab g { u.slab g with persisted := value } := rfl
      refine ⟨fun hr hv => ht.trans (if_neg ?_), fun h => ht.trans (if_pos h), fun h => ?_⟩
      · rw [hr]
        exact fun h => h.elim Bool.false_ne_true (Nat.not_lt.2 hv)
      · by_cases hc : u.replacePending g = true ∨ (u.slab g).front < value
        · rw [ht, if_pos hc]
          exact h
        · rw [ht, if_neg hc, slab_setSlab_same]
          exact Nat.not_lt.1 fun hlt => hc (Or.inr hlt)
    · intro b free ends
      have hends {t : State} {b' : Slab} {counters : MoveCounters} {mp : MsgPort} {volumes : List (Nat × Volume)}
          (h : JobEnded n g b' counters mp volumes u t) : ends t counters := by
        have hother := @h.slab_other
        have hlane := @h.lane_other
        refine ⟨fun k hk => hother hk, h.lane, fun m hm => hlane hm, ?_⟩
        obtain ⟨_, _, rfl⟩ := h.form
        exact ⟨rfl, rfl, rfl, rfl, ⟨rfl, rfl, rfl, rfl, rfl⟩, rfl⟩
      refine ⟨fun hh => ?_, fun p hp hkey hts hhs => ?_⟩
      · intro t
        obtain ⟨hended, hslots⟩ := fillCommitted_ends (n := n) (g := g) (u := u) (Or.inr hw)
        obtain ⟨hslot, hothers, hsets⟩ := hslots hh
        obtain ⟨hvolume, hvolumes, hmp⟩ := fillCommitted_ready (n := n) (g := g) (u := u) (Or.inr hw)
        exact ⟨hended.slab, hvolume, hvolumes, hslot, hothers, hsets, hmp, hends hended⟩
      · intro left t r
        have hmove := moveCommitted_ends (n := n) hp (Or.inr hw)
        have habort := abortDurable_ends (n := n) hp (Or.inr hw)
        obtain ⟨hplace, hleft, hothers⟩ := moveCommitted_slots (n := n) hp (Or.inr hw) hkey hts hhs
        obtain ⟨hhome, hleft', hothers'⟩ := abortDurable_slots (n := n) hp (Or.inr hw) hkey hts hhs
        exact ⟨hmove.slab, hplace, ⟨hleft.freed, hleft.draining, hleft.others, hothers, hmove.volumes_eq⟩, hmove.mp_eq,
          hends hmove, habort.slab, hhome, ⟨hleft'.freed, hleft'.draining, hleft'.others, hothers', habort.volumes_eq⟩, habort.mp_eq,
          hends habort⟩
    · show jcDurable _ u = u
      unfold jcDurable
      cases u.jc.format <;> rfl

end Sys2Proof.Machine
end

section
/-! PROOFS. Failed operations on the map store in service: programs and erases (R146, R152, R153, R157). -/

namespace Sys2Proof.Machine

theorem storeGoesOn_service {s : State} (hf : s.jc.format = none) (ha : s.agenda = []) : storeGoesOn s = kickStore s := by
  unfold storeGoesOn
  rw [hf]
  exact if_pos ha

theorem storeGoesOn_freezing {s : State} (hf : s.jc.format = none) (ha : s.agenda ≠ []) : storeGoesOn s = moveSpentHead s := by
  unfold storeGoesOn
  rw [hf]
  exact if_neg ha

theorem formatWriting_none {j : Journal} (hf : j.format = none) : j.formatWriting = false := by
  unfold Journal.formatWriting
  rw [hf]
  rfl

theorem active_writing {j : Journal} (h : j.state = .writing) : j.active = true := by
  rw [Journal.active, decide_eq_true h, Bool.true_or]

theorem execStoreOpTimeout_none {s : State} (h : s.jc.op = none) : exec .storeOpTimeout s = .next s := by
  show execStoreOpTimeout s = _
  unfold execStoreOpTimeout
  rw [h]

theorem execStoreOpTimeout_early {s : State} {op : StoreOp} (h : s.jc.op = some op) (hd : s.clock.now < op.limit) :
    exec .storeOpTimeout s = .next s := by
  show execStoreOpTimeout s = _
  unfold execStoreOpTimeout
  rw [h]
  exact if_neg (Nat.not_le.2 hd)

theorem execEraseEnd_idle {s : State} (h : ∀ start block, s.jc.op ≠ some (.erase start block)) (success : Bool) :
    exec (.eraseEnd success) s = .next s := by
  show execEraseEnd success s = _
  unfold execEraseEnd
  split
  · next start block hop => exact absurd hop (h start block)
  all_goals rfl

/-! ## Programs in service (R152) -/

section
variable {s : State} {block page : Nat} {r : Record} {kind : FaultKind} {c : Instr}
  (hs : s.quiet) (hf : s.jc.format = none) (hst : s.jc.state = .writing) (hfails : ProgramFails s c kind block page r)
  (hh : s.jc.head = some block) (hc : (s.storeBlock block).cond = .head) (hr : s.jc.nextRecord = some r)
include hs hf hst hfails hh hc hr

/-- The same record at the next page (R152). -/
theorem serviceProgram_again (hn : (s.storeBlock block).failedPages ≠ 2) (hp : page + 1 < 256) :
    exec c s = .next (s.storeFaulted kind block { s.jc with
      blocks := tableWrite StoreBlock.written s.jc.blocks block
        { s.storeBlock block with failedPages := (s.storeBlock block).failedPages + 1 },
      nextPage := page + 1, op := some (.program s.clock.now block (page + 1) r),
      counters := { s.jc.counters with programFailures := min (s.jc.counters.programFailures + 1) 4294967295 } }) := by
  let e : StoreBlock := { s.storeBlock block with failedPages := (s.storeBlock block).failedPages + 1 }
  let u : State := { s with jc := s.jc.programLost block page e, mp := (s.offerFault (storeFault kind block)).mp }
  have hprog : programFailed kind block page s = u := (programFailed_kept hn).trans (storeFaulted_eq ..)
  have hself : u.storeBlock block = e := tableRead_tableWrite_same StoreBlock.written s.jc.blocks block e
  have hcond : (u.storeBlock block).cond = .head := by rw [hself, ← hc]
  have hkick : kickStore u = u.programs block r :=
    kickStore_programs rfl (Or.inl (active_writing (j := u.jc) hst))
      (openNext_imageDue_stays (s := u) hh hp hcond (by rw [show u.jc.state = s.jc.state from rfl, hst]; nofun)) hr
      (headSpent_open hh hp hcond) hh
  rw [hfails.exec, hprog, storeGoesOn_service (s := u) hf hs, hkick, storeFaulted_eq]
  exact conclude_quiet hs rfl rfl rfl

/-- The journal once the third failed program has retired the head in service. -/
def Journal.headRetired (j : Journal) (block page : Nat) : Journal :=
  { j with
    blocks := tableWrite StoreBlock.written j.blocks block ⟨.bad, 3⟩, nextPage := page + 1, op := none
    storePlace := j.storePlace ++ [⟨j.nextSeq, .blockRetire block, .jc, none⟩], nextSeq := j.nextSeq + 1
    counters := { j.counters with
      programFailures := min (j.counters.programFailures + 1) 4294967295
      retired := min (j.counters.retired + 1) 4294967295 } }

omit hs hst hfails hh hr in
theorem programFailed_service (hb : block < 64) (hn : s.jc.nextSeq ≤ 4294967295) (h2 : (s.storeBlock block).failedPages = 2) :
    programFailed kind block page s = { s with
      mp := (s.offerFault (storeFault kind block)).mp, jc := s.jc.headRetired block page
      agenda := s.agenda ++ if s.usableBlocks ≤ 16 then [.freeze .fewBlocks] else [] } := by
  have hplaced : ((s.jc.programLost block page { s.storeBlock block with failedPages := 3 }).badBlock block
        ⟨.bad, 3⟩).retirePlaced block = s.jc.headRetired block page := by
    have hblocks : tableWrite StoreBlock.written (tableWrite StoreBlock.written s.jc.blocks block
        { s.storeBlock block with failedPages := 3 }) block ⟨.bad, 3⟩ = tableWrite StoreBlock.written s.jc.blocks block ⟨.bad, 3⟩ :=
      tableWrite_tableWrite ..
    unfold Journal.retirePlaced
    rw [if_neg fun h => Bool.false_ne_true ((formatWriting_none (j := s.jc) hf).symm.trans h.1), Journal.headRetired, ← hblocks]
    rfl
  rw [programFailed_retires h2 hb (by rw [hc]; nofun) hn, hplaced, storeFaulted_eq]

variable {next : Nat} (hb : block < 64) (hlow : r.seq < s.jc.nextSeq) (hseq : s.jc.nextSeq ≤ 4294967295)
  (h2 : (s.storeBlock block).failedPages = 2) (hn : s.followingBlock block = some next) (hne : (s.storeBlock next).cond = .erased)

/-- The journal once the head retired in service has moved on. -/
def Journal.headReplaced (j : Journal) (block next : Nat) (e : StoreBlock) : Journal :=
  { j with
    blocks := tableWrite StoreBlock.written (tableWrite StoreBlock.written j.blocks block ⟨.bad, 3⟩) next { e with cond := .head }
    head := some next, nextPage := 0, op := none, nextSeq := j.nextSeq + 1
    storePlace := j.storePlace ++ [⟨j.nextSeq, .blockRetire block, .jc, none⟩]
    counters := { j.counters with
      programFailures := min (j.counters.programFailures + 1) 4294967295
      retired := min (j.counters.retired + 1) 4294967295 } }

omit hs hf hst hfails hc hr in
include hn hne in
/-- What stands after the retired head, and where the head moves. -/
theorem headRetired_moves {u : State} {page : Nat} (hu : u.jc = s.jc.headRetired block page) :
    u.followingBlock block = some next ∧ (u.storeBlock next).cond = .erased ∧ u.headSpent = true
      ∧ moveHead block next u = { u with jc := s.jc.headReplaced block next (s.storeBlock next) } := by
  have hself : u.storeBlock block = ⟨.bad, 3⟩ := by
    rw [State.storeBlock, hu]
    exact tableRead_tableWrite_same StoreBlock.written s.jc.blocks block ⟨.bad, 3⟩
  have hother {k : Nat} (hk : k ≠ block) : u.storeBlock k = s.storeBlock k := by
    rw [State.storeBlock, hu]
    exact tableRead_tableWrite_other StoreBlock.written s.jc.blocks ⟨.bad, 3⟩ hk
  have hnext : next ≠ block := followingBlock_ne hn
  refine ⟨(followingBlock_congr (s := s) (t := u) fun k hk => by rw [hother hk]).trans hn, by rw [hother hnext]; exact hne,
    (headSpent_iff (s := u) (by rw [hu]; exact hh)).2 (Or.inr (by rw [hself]; nofun)), ?_⟩
  rw [moveHead_retired (by rw [hself]; nofun), hu, hother hnext]
  rfl

include hb hseq h2 hn hne

include hlow in
/-- The next block becomes the head, and the same record is programmed to it (R152, R154). -/
theorem serviceProgram_moves (hu : 17 ≤ s.usableBlocks) (h9 : 9 ≤ (s.blocksIn .erased).length) :
    exec c s = .next (s.storeFaulted kind block
      { s.jc.headReplaced block next (s.storeBlock next) with op := some (.program s.clock.now next 0 r) }) := by
  let u : State := { s with mp := (s.offerFault (storeFault kind block)).mp, jc := s.jc.headRetired block page }
  have hprog : programFailed kind block page s = u := by
    rw [programFailed_service hf hc hb hseq h2, if_neg (by omega), List.append_nil]
  obtain ⟨hfollow, herased, hspent, hmoved⟩ := headRetired_moves (u := u) hh hn hne rfl
  let v : State := { u with jc := s.jc.headReplaced block next (s.storeBlock next) }
  have hnext : next ≠ block := followingBlock_ne hn
  have hself : v.storeBlock next = { s.storeBlock next with cond := .head } :=
    tableRead_tableWrite_same StoreBlock.written (tableWrite StoreBlock.written s.jc.blocks block ⟨.bad, 3⟩) next
      { s.storeBlock next with cond := .head }
  have hother {k : Nat} (hk : k ≠ next) : v.storeBlock k = u.storeBlock k :=
    tableRead_tableWrite_other StoreBlock.written (tableWrite StoreBlock.written s.jc.blocks block ⟨.bad, 3⟩)
      { s.storeBlock next with cond := .head } hk
  have hcount : (s.blocksIn .erased).length = (v.blocksIn .erased).length + 1 := by
    refine length_blocksIn_joins (s := v) (followingBlock_lt hn) (by rw [hself]; nofun) hne fun k hk => ?_
    rw [hother hk]
    by_cases hkb : k = block
    · have hbad : u.storeBlock block = ⟨.bad, 3⟩ := tableRead_tableWrite_same StoreBlock.written s.jc.blocks block ⟨.bad, 3⟩
      rw [hkb, hbad, hc]
      exact iff_of_false nofun nofun
    · rw [show u.storeBlock k = s.storeBlock k from tableRead_tableWrite_other StoreBlock.written s.jc.blocks ⟨.bad, 3⟩ hkb]
  have hopen : imageDue (openNext u) = v := by
    rw [openNext_opens (s := u) hh hspent hfollow herased, hmoved,
      compactionCheck_off fun h => absurd h.1 (by rw [show State.blocksIn _ .erased = v.blocksIn .erased from rfl]; omega)]
    exact imageDue_off (by rw [show v.jc.state = s.jc.state from rfl, hst]; nofun)
  have hkick : kickStore u = v.programs next r :=
    kickStore_programs (s := u) rfl (Or.inl (active_writing (j := u.jc) hst)) hopen (nextRecord_placed (j := s.jc) hr hlow)
      (headSpent_open (h := next) rfl (Nat.zero_lt_succ 255) (by rw [hself])) rfl
  rw [hfails.exec, hprog, storeGoesOn_service (s := u) hf hs, hkick, storeFaulted_eq]
  exact conclude_quiet hs rfl rfl rfl

omit hst hr in
/-- With 16 blocks usable the head moves on, and the journal freezes (R153). -/
theorem serviceProgram_freezes (hu : s.usableBlocks = 16) :
    exec c s = .next (finish s (State.offerFault (storeFault kind block) { s with
      jc := s.jc.headReplaced block next (s.storeBlock next), agenda := [.freeze .fewBlocks] })) := by
  let u : State := { s with
    mp := (s.offerFault (storeFault kind block)).mp, jc := s.jc.headRetired block page, agenda := [.freeze .fewBlocks] }
  have hprog : programFailed kind block page s = u := by
    rw [programFailed_service hf hc hb hseq h2, if_pos (by omega), show s.agenda = [] from hs]
    rfl
  obtain ⟨hfollow, herased, hspent, hmoved⟩ := headRetired_moves (u := u) hh hn hne rfl
  have hmove : moveSpentHead u = { u with jc := s.jc.headReplaced block next (s.storeBlock next) } := by
    unfold moveSpentHead
    rw [show u.jc.head = some block from hh]
    dsimp only
    rw [if_pos hspent, hfollow]
    dsimp only
    rw [if_pos herased, hmoved]
  rw [hfails.exec, hprog, storeGoesOn_freezing (s := u) hf (List.cons_ne_nil _ _), hmove]
  exact congrArg (fun t => Host.Outcome.next (finish s t)) (offerFault_of_mp (s := s) (t := { s with
    jc := s.jc.headReplaced block next (s.storeBlock next), agenda := [.freeze .fewBlocks] }) _ rfl).symm

end

/-! ## Erases in service (R153, R157) -/

section
variable {s : State} {start block head : Nat} {c : Instr} (hs : s.quiet) (hf : s.jc.format = none) (hst : s.jc.state = .writing)
  (hop : s.jc.op = some (.erase start block)) (hh : s.jc.head = some head) (hc : (s.storeBlock head).cond = .head)
  (hp : s.jc.nextPage < 256) (hne : block ≠ head)
include hs hf hst hop hh hc hp hne

theorem serviceErase_fails {kind : FaultKind} (hfail : EraseFails s c kind start) (hb : block < 64)
    (hbad : (s.storeBlock block).cond ≠ .bad) (hu : 17 ≤ s.usableBlocks) (hq : s.jc.queue = []) (hsp : s.jc.storePlace = [])
    (hi : s.jc.imageRecord = none) (hseq : s.jc.nextSeq ≤ 4294967295) :
    exec c s = .next (State.offerFault (storeFault kind block)
      { s with jc := { s.jc with
        blocks := tableWrite StoreBlock.written s.jc.blocks block { s.storeBlock block with cond := .bad },
        storePlace := [⟨s.jc.nextSeq, .blockRetire block, .jc, none⟩], nextSeq := s.jc.nextSeq + 1,
        op := some (.program s.clock.now head s.jc.nextPage ⟨s.jc.nextSeq, .blockRetire block, .jc, none⟩),
        counters := { s.jc.counters with
          eraseFailures := min (s.jc.counters.eraseFailures + 1) 4294967295,
          retired := min (s.jc.counters.retired + 1) 4294967295 } } }) := by
  let retire : Record := ⟨s.jc.nextSeq, .blockRetire block, .jc, none⟩
  let e : StoreBlock := { s.storeBlock block with cond := .bad }
  let w : State := { s with
    mp := (s.offerFault (storeFault kind block)).mp
    jc := { s.jc with
      op := none, counters := { s.jc.counters with eraseFailures := min (s.jc.counters.eraseFailures + 1) 4294967295 } } }
  let v : State := { w with jc := { w.jc with
    blocks := tableWrite StoreBlock.written s.jc.blocks block e, storePlace := [retire], nextSeq := s.jc.nextSeq + 1
    counters := { w.jc.counters with retired := min (s.jc.counters.retired + 1) 4294967295 } } }
  have hfailed : eraseFailed kind block s = v := by
    have hbefore : eraseFailed kind block s = retireBlock block w := by
      obtain ⟨m, hm⟩ := offerFault_eq (storeFault kind block) s
      show retireBlock block (State.onJc _ (s.offerFault (storeFault kind block))) = retireBlock block
        { s with mp := (s.offerFault (storeFault kind block)).mp, jc := _ }
      rw [hm]
      rfl
    have hplaced : (w.jc.badBlock block e).retirePlaced block = v.jc := by
      unfold Journal.retirePlaced
      rw [if_neg fun h => Bool.false_ne_true ((formatWriting_none (j := s.jc) hf).symm.trans h.1),
        show (w.jc.badBlock block e).storePlace = [] from hsp]
      rfl
    rw [hbefore, retireBlock_eq (s := w) hb hbad hseq, show (w.storeBlock block : StoreBlock) = s.storeBlock block from rfl, hplaced,
      if_neg (show ¬w.usableBlocks ≤ 16 from Nat.not_le.2 hu), List.append_nil]
  have hcond : (v.storeBlock head).cond = .head := by
    rw [← hc]
    exact congrArg StoreBlock.cond (tableRead_tableWrite_other StoreBlock.written s.jc.blocks e hne.symm)
  have hnext : v.jc.nextRecord = some retire := by
    show lowerRecord (lowerRecord s.jc.queue.head? (some retire)) s.jc.imageRecord = some retire
    rw [hq, hi]
    rfl
  have hkick : kickStore v = v.programs head retire :=
    kickStore_programs rfl (Or.inl (active_writing (j := v.jc) hst))
      (openNext_imageDue_stays (s := v) hh hp hcond (by rw [show v.jc.state = s.jc.state from rfl, hst]; nofun)) hnext
      (headSpent_open hh hp hcond) hh
  have hlost : eraseLost kind block s = kickStore v := by
    unfold eraseLost
    rw [hf]
    exact (congrArg storeGoesOn hfailed).trans (storeGoesOn_service (s := v) hf hs)
  rw [hfail.exec hop, hlost, hkick, conclude_quiet (s := s) (t := v.programs head retire) hs rfl rfl rfl]
  have hoffer : State.offerFault (storeFault kind block) { v.programs head retire with mp := s.mp } = v.programs head retire :=
    offerFault_of_mp (s := s) (t := { v.programs head retire with mp := s.mp }) _ rfl
  exact congrArg Host.Outcome.next hoffer.symm

theorem serviceErase_done (hr : s.jc.nextRecord = none) (hn : ∀ b, b ≠ block → (s.storeBlock b).cond ≠ .awaiting) :
    exec (.eraseEnd true) s = .next { s with jc := { s.jc with
      blocks := tableWrite StoreBlock.written s.jc.blocks block ⟨.erased, 0⟩, op := none } } := by
  let v : State := { s with jc := { s.jc with
    blocks := tableWrite StoreBlock.written s.jc.blocks block ⟨.erased, 0⟩, op := none } }
  have hself : v.storeBlock block = ⟨.erased, 0⟩ := tableRead_tableWrite_same StoreBlock.written s.jc.blocks block ⟨.erased, 0⟩
  have hother {k : Nat} (hk : k ≠ block) : v.storeBlock k = s.storeBlock k :=
    tableRead_tableWrite_other StoreBlock.written s.jc.blocks ⟨.erased, 0⟩ hk
  have hkick : kickStore v = v := by
    refine kickStore_rests rfl (Or.inl (active_writing (j := v.jc) hst)) (openNext_imageDue_stays (s := v) hh hp
      (by rw [hother hne.symm]; exact hc) (by rw [show v.jc.state = s.jc.state from rfl, hst]; nofun)) hr fun b => ?_
    by_cases hb : b = block
    · rw [hb, hself]
      nofun
    · rw [hother hb]
      exact hn b hb
  have hdone : eraseDone block s = kickStore v := by
    unfold eraseDone
    rw [hf]
    rfl
  rw [execEraseEnd_erasing hop, if_pos rfl, hdone, hkick]
  exact conclude_quiet hs rfl rfl rfl

end

end Sys2Proof.Machine
end

section
/-! PROOFS. The ring, its compaction, and the entry into FROZEN (R154 to R158). -/

namespace Sys2Proof.Machine

/-! ## The head moves on (R154) -/

/-- The state in which a spent head is WRITTEN and another block is the head. -/
def State.headMoved (s : State) (h b : Nat) : State :=
  { s with jc := { s.jc with
    blocks := tableWrite StoreBlock.written
      (tableWrite StoreBlock.written s.jc.blocks h { s.storeBlock h with cond := .written }) b { s.storeBlock b with cond := .head }
    head := some b, nextPage := 0 } }

section
variable {s : State} {h b : Nat} (hc : (s.storeBlock h).cond = .head) (hb : b ≠ h)
include hb

theorem headMoved_storeBlock :
    (s.headMoved h b).storeBlock b = { s.storeBlock b with cond := .head }
      ∧ (s.headMoved h b).storeBlock h = { s.storeBlock h with cond := .written }
      ∧ ∀ k, k ≠ b → k ≠ h → (s.headMoved h b).storeBlock k = s.storeBlock k := by
  let blocks := tableWrite StoreBlock.written s.jc.blocks h { s.storeBlock h with cond := .written }
  refine ⟨tableRead_tableWrite_same StoreBlock.written blocks b { s.storeBlock b with cond := .head }, ?_, fun k hk hk' => ?_⟩
  · exact (tableRead_tableWrite_other StoreBlock.written blocks { s.storeBlock b with cond := .head } hb.symm).trans
      (tableRead_tableWrite_same StoreBlock.written s.jc.blocks h { s.storeBlock h with cond := .written })
  · exact (tableRead_tableWrite_other StoreBlock.written blocks { s.storeBlock b with cond := .head } hk).trans
      (tableRead_tableWrite_other StoreBlock.written s.jc.blocks { s.storeBlock h with cond := .written } hk')

include hc

theorem moveHead_eq : moveHead h b s = s.headMoved h b := by
  have hother : (s.condition h .written).storeBlock b = s.storeBlock b :=
    tableRead_tableWrite_other StoreBlock.written s.jc.blocks { s.storeBlock h with cond := .written } hb
  have hmoved : moveHead h b s = ((s.condition h .written).condition b .head).onJc (fun j => { j with head := some b, nextPage := 0 }) := by
    unfold moveHead
    rw [if_pos hc]
  rw [hmoved, State.condition, hother]
  rfl

variable (he : (s.storeBlock b).cond = .erased) (hlt : b < 64)
include he hlt

/-- The counts of the ring once its head has moved. -/
theorem headMoved_counts : (s.blocksIn .erased).length = ((s.headMoved h b).blocksIn .erased).length + 1
    ∧ (s.headMoved h b).blocksIn .awaiting = s.blocksIn .awaiting := by
  obtain ⟨hself, hold, hother⟩ := headMoved_storeBlock (s := s) hb
  constructor
  · refine length_blocksIn_joins hlt (by rw [hself]; nofun) he fun k hk => ?_
    by_cases hkh : k = h
    · rw [hkh, hold, hc]
      exact iff_of_false nofun nofun
    · rw [hother k hk hkh]
  · refine blocksIn_congr fun k _ => ?_
    by_cases hk : k = b
    · rw [hk, hself, he]
      exact iff_of_false nofun nofun
    · by_cases hkh : k = h
      · rw [hkh, hold, hc]
        exact iff_of_false nofun nofun
      · rw [hother k hk hkh]

theorem compactionCheck_headMoved :
    (¬((s.blocksIn .erased).length ≤ 8 ∧ s.jc.state = .writing ∧ s.blocksIn .awaiting = []) →
        compactionCheck (s.headMoved h b) = s.headMoved h b)
      ∧ ((s.blocksIn .erased).length ≤ 8 ∧ s.jc.state = .writing ∧ s.blocksIn .awaiting = [] →
        compactionCheck (s.headMoved h b) = beginCompaction (s.headMoved h b)) := by
  obtain ⟨hcount, hawait⟩ := headMoved_counts hc hb he hlt
  have hiff : (((s.headMoved h b).blocksIn .erased).length < 8 ∧ (s.headMoved h b).jc.state = .writing
        ∧ (s.headMoved h b).blocksIn .awaiting = [])
      ↔ ((s.blocksIn .erased).length ≤ 8 ∧ s.jc.state = .writing ∧ s.blocksIn .awaiting = []) := by
    rw [hawait, hcount]
    exact Iff.rfl
  exact ⟨fun hn => compactionCheck_off (mt hiff.1 hn), fun hy => if_pos (hiff.2 hy)⟩

end

section
variable {s : State} {h b : Nat} (hh : s.jc.head = some h) (hs : s.headSpent = true)
include hh hs

theorem openNext_none (hb : s.followingBlock h = none) : openNext s = s.post (.freeze .noErasedBlock) := by
  unfold openNext
  rw [hh]
  dsimp only
  rw [if_pos hs, hb]

theorem openNext_awaiting (hb : s.followingBlock h = some b) (hc : (s.storeBlock b).cond = .awaiting) : openNext s = s := by
  unfold openNext
  rw [hh]
  dsimp only
  rw [if_pos hs, hb]
  dsimp only
  rw [hc]

theorem openNext_written (hb : s.followingBlock h = some b) (hc : (s.storeBlock b).cond = .written) :
    openNext s = s.post (.freeze .noErasedBlock) := by
  unfold openNext
  rw [hh]
  dsimp only
  rw [if_pos hs, hb]
  dsimp only
  rw [hc]

end

/-! ## The image as it is written (R148, R155) -/

/-- The state in which an image record has taken its number. -/
def State.imageTaken (s : State) (body : RecordBody) (rest : List RecordBody) : State :=
  { s with jc := { s.jc with
    imageBuilt := true, image := rest, imageRecord := some ⟨s.jc.nextSeq, body, .jc, none⟩, nextSeq := s.jc.nextSeq + 1 } }

theorem nextImageRecord_built {s : State} {body : RecordBody} {rest : List RecordBody} (hb : s.jc.imageBuilt = true)
    (hi : s.jc.image = body :: rest) (hn : s.jc.nextSeq ≤ 4294967295) : nextImageRecord s = s.imageTaken body rest := by
  unfold nextImageRecord
  rw [if_pos hb]
  dsimp only
  rw [hi]
  refine (if_pos hn).trans ?_
  rw [State.imageTaken, ← hb]
  rfl

theorem nextImageRecord_builds {s : State} (hb : s.jc.imageBuilt = false) (hn : s.jc.nextSeq ≤ 4294967295) :
    nextImageRecord s = s.imageTaken
      (.imageBegin s.jc.durable.arrayId s.jc.durable.params s.jc.durable.bad s.jc.durable.lost s.jc.durable.imageCounts)
      (s.jc.durable.imageParts.map RecordBody.imagePart ++ [.imageEnd s.jc.nextSeq s.jc.durable.imageParts.length]) := by
  let u : State := { s with jc := { s.jc with
    imageBuilt := true, image := s.jc.durable.image ++ [.imageEnd s.jc.nextSeq s.jc.durable.imageParts.length] } }
  have hbuild : nextImageRecord s = nextImageRecord u := by
    unfold nextImageRecord
    rw [if_neg (by rw [hb]; exact Bool.false_ne_true), if_pos (show u.jc.imageBuilt = true from rfl)]
    rfl
  exact hbuild.trans ((nextImageRecord_built (s := u) rfl rfl hn).trans rfl)

/-- In compaction, with nothing queued, the image's next record is programmed. -/
theorem kickStore_image {s : State} {h : Nat} {body : RecordBody} {rest : List RecordBody} (hst : s.jc.state = .compacting)
    (hop : s.jc.op = none) (hq : s.jc.queue = []) (hsp : s.jc.storePlace = []) (hi : s.jc.imageRecord = none)
    (hh : s.jc.head = some h) (hspent : s.headSpent = false) (hnext : nextImageRecord s = s.imageTaken body rest) :
    kickStore s = (s.imageTaken body rest).programs h ⟨s.jc.nextSeq, body, .jc, none⟩ := by
  have hactive : s.jc.active = true := by rw [Journal.active, decide_eq_true hst, Bool.or_true]
  have hdue : imageDue (openNext s) = s.imageTaken body rest := by
    rw [openNext_stays hspent]
    exact (if_pos ⟨hst, hq, hsp, hi, hspent⟩).trans hnext
  exact kickStore_programs hop (Or.inl hactive) hdue (nextRecord_of hq hsp) hspent hh

/-! ## The image durable (R155) -/

theorem imageBegun_service {r : Record} {arrayId bad : BitVec 64} {params : Params} {lost : Bool} {counts : ImageCounts}
    (hr : r.body = .imageBegin arrayId params bad lost counts) (block : Nat) {s : State} (hf : s.jc.format = none) :
    imageBegun r block s = { s with jc := { s.jc with imageStart := some (r.seq, block) } } := by
  unfold imageBegun
  rw [hr]
  exact congrArg (fun j => ({ s with jc := j } : State))
    (if_neg (by rw [formatWriting_none hf]; exact Bool.false_ne_true))

/-- The blocks made stale, one after another. -/
theorem forEach_awaiting {l : List Nat} (hn : l.Nodup) (s : State) :
    ∃ blocks, forEach (fun b s => State.condition b .awaiting s) l s = { s with jc := { s.jc with blocks := blocks } }
      ∧ (∀ b ∈ l, tableRead StoreBlock.written blocks b = { s.storeBlock b with cond := .awaiting })
      ∧ ∀ b, b ∉ l → tableRead StoreBlock.written blocks b = s.storeBlock b := by
  induction l generalizing s with
  | nil => exact ⟨s.jc.blocks, rfl, fun _ h => absurd h List.not_mem_nil, fun _ _ => rfl⟩
  | cons b rest ih =>
    obtain ⟨hb, hrest⟩ := List.nodup_cons.1 hn
    obtain ⟨blocks, hform, hin, hout⟩ := ih hrest (s.condition b .awaiting)
    have hother {k : Nat} (hk : k ≠ b) : (s.condition b .awaiting).storeBlock k = s.storeBlock k :=
      tableRead_tableWrite_other StoreBlock.written s.jc.blocks { s.storeBlock b with cond := .awaiting } hk
    refine ⟨blocks, hform, fun k hk => ?_, fun k hk => ?_⟩
    · rcases List.mem_cons.1 hk with rfl | hk
      · exact (hout k hb).trans
          (tableRead_tableWrite_same StoreBlock.written s.jc.blocks k { s.storeBlock k with cond := .awaiting })
      · rw [hin k hk, hother fun h => hb (h ▸ hk)]
    · rw [hout k fun h => hk (List.mem_cons_of_mem _ h), hother fun h => hk (h ▸ List.mem_cons_self)]

theorem endCompaction_eq {s : State} {seq begun h : Nat} (hi : s.jc.imageStart = some (seq, begun)) (hh : s.jc.head = some h) :
    ∃ blocks, endCompaction s = { s with
        jc := { s.jc with
          blocks := blocks, state := .writing, admission := true, newestImage := some (seq, begun), imageStart := none
          imageBuilt := false
          counters := { s.jc.counters with compactions := min (s.jc.counters.compactions + 1) 4294967295 } }
        mp := (s.offerNotice (.journalState .writing none)).mp }
      ∧ ∀ b, b < 64 → tableRead StoreBlock.written blocks b = { s.storeBlock b with
          cond := if (s.storeBlock b).cond = .written ∧ ringDistance h b < ringDistance h begun then .awaiting
            else (s.storeBlock b).cond } := by
  have hstale : staleBlocks s begun = (s.blocksIn .written).filter (fun b => ringDistance h b < ringDistance h begun) := by
    unfold staleBlocks
    rw [hh]
  obtain ⟨blocks, hform, hin, hout⟩ := forEach_awaiting ((blocksIn_nodup s .written).filter
    (fun b => ringDistance h b < ringDistance h begun)) s
  refine ⟨blocks, ?_, fun b hb => ?_⟩
  · unfold endCompaction
    rw [hi]
    dsimp only
    rw [hstale, hform]
    exact offerNotice_of_mp (s := s) _ rfl
  · have hmem : b ∈ (s.blocksIn .written).filter (fun b => ringDistance h b < ringDistance h begun)
        ↔ (s.storeBlock b).cond = .written ∧ ringDistance h b < ringDistance h begun := by
      rw [List.mem_filter, mem_blocksIn, decide_eq_true_iff]
      exact ⟨fun ⟨⟨_, hw⟩, hd⟩ => ⟨hw, hd⟩, fun ⟨hw, hd⟩ => ⟨⟨hb, hw⟩, hd⟩⟩
    by_cases hold : (s.storeBlock b).cond = .written ∧ ringDistance h b < ringDistance h begun
    · rw [if_pos hold, hin b (hmem.2 hold)]
    · rw [if_neg hold, hout b (mt hmem.1 hold)]

/-! ## FROZEN (R158) -/

theorem unmade_eq (l : List (JOwner × List Work)) :
    unmade l = l.flatMap (fun e => e.2.map (fun w => Internal.recordUnmade e.1 w)) := by
  induction l with
  | nil => rfl
  | cons e rest ih => rw [unmade, ih, List.flatMap_cons]

theorem enterFrozen_eq (cause : FrozenCause) (u : State) : enterFrozen cause u = State.offerNotice (.journalState .frozen (some cause))
    { u with
      part := .frozen,
      agenda := u.agenda ++ ((u.jc.queue ++ u.jc.storePlace).map Internal.recordDiscarded
        ++ u.jc.roomWait.flatMap (fun e => e.2.map (fun w => Internal.recordUnmade e.1 w))
        ++ [.laneFrozen 0, .laneFrozen 1, .laneFrozen 2, .laneFrozen 3, .pmFrozen]),
      jc := { u.jc with
        state := .frozen, cause := some cause, op := none, queue := [], storePlace := [], roomWait := [],
        admission := false, imageBuilt := false, image := [], imageRecord := none, imageStart := none,
        counters := { u.jc.counters with
          discarded := min (u.jc.counters.discarded + (u.jc.queue ++ u.jc.storePlace).length) 4294967295 } } } := by
  have htold : (u.jc.queue ++ u.jc.storePlace).map Internal.recordDiscarded ++ unmade u.jc.roomWait
      ++ (List.range 4).map .laneFrozen ++ [.pmFrozen]
      = (u.jc.queue ++ u.jc.storePlace).map Internal.recordDiscarded
        ++ u.jc.roomWait.flatMap (fun e => e.2.map (fun w => Internal.recordUnmade e.1 w))
        ++ [.laneFrozen 0, .laneFrozen 1, .laneFrozen 2, .laneFrozen 3, .pmFrozen] := by
    rw [unmade_eq, List.append_assoc _ ((List.range 4).map _)]
    rfl
  rw [← htold]
  rfl

theorem ownerDiscarded_asked {owner : JOwner} (h : owner = .gu ∨ owner = .me ∨ owner = .dp ∨ owner = .sm) (u : State) (q : Nat)
    (body : RecordBody) (tag : ReqTag) :
    handle (.recordDiscarded ⟨q, body, owner, some tag⟩) u = u.answer tag .journalDown .empty
      ∧ handle (.recordUnmade owner ⟨body, some tag⟩) u = u.answer tag .journalDown .empty := by
  obtain rfl | rfl | rfl | rfl := h <;> exact ⟨rfl, rfl⟩

/-! ## A lane's records that are not made (R76, R80, R122) -/

theorem addDamage_eq (d : Damage) (u : State) :
    addDamage d u = State.offerNotice (.damageAdded d (decide (0 < (damageAdd d u.me.damage).2)))
      { u with me := { u.me with
        damage := (damageAdd d u.me.damage).1,
        lost := if (damageAdd d u.me.damage).1 = [] then false else u.me.lost || decide (0 < (damageAdd d u.me.damage).2),
        counters := { u.me.counters with
          damageOverflow := min (u.me.counters.damageOverflow + (damageAdd d u.me.damage).2) 4294967295 } } } := rfl

section
variable {u : State} {n : Nat} (hs : (u.lane n).state = .waitPages) (hp : (u.lane n).pages = []) (hr : u.jc.roomWait = [])
  (hl : u.onPageList n = false)
include hs hp hr hl

theorem askPages_lists (hw : u.sp.waiting ≠ [] ∨ u.sp.free.length < (u.rowSet (u.lane n)).width * ((u.rowSet (u.lane n)).unit / 16)) :
    askPages n u = { u with sp := { u.sp with
      waiting := u.sp.waiting ++ [(n, (u.rowSet (u.lane n)).width * ((u.rowSet (u.lane n)).unit / 16))] } } :=
  askPages_waits hs hp (by rw [State.waitsForRoom, hr]; rfl) hl hw

theorem askPages_served (hw : u.sp.waiting = [])
    (hf : (u.rowSet (u.lane n)).width * ((u.rowSet (u.lane n)).unit / 16) ≤ u.sp.free.length) :
    askPages n u = { u.setLane n { u.lane n with
        pages := u.sp.free.take ((u.rowSet (u.lane n)).width * ((u.rowSet (u.lane n)).unit / 16)) } with
      sp := { u.sp with free := u.sp.free.drop ((u.rowSet (u.lane n)).width * ((u.rowSet (u.lane n)).unit / 16)) },
      agenda := u.agenda ++ [.pagesGranted n] } := by
  have hwait : u.waitsForRoom (.lane n) = false := by rw [State.waitsForRoom, hr]; rfl
  unfold askPages
  dsimp only
  rw [if_pos ⟨hs, hp, hwait, hl⟩, if_pos ⟨hw, hf⟩, reservePages_eq hs, hp, List.nil_append]
  rfl

end

/-- A claim given up changes no other slot. -/
theorem leaveClaim_others (home place : Place) (s : State) {k : Place} (hp : slotKey k ≠ slotKey place) (hh : slotKey k ≠ slotKey home) :
    (leaveClaim home place s).slot k = s.slot k :=
  (writeSlot_slot_other _ _ hp).trans ((writeSlot_slot_other _ _ hh).trans (writeSlot_slot_other _ s hp))

/-- The state in which the slots of a lane's claim are given up and the lane is IDLE (R76). -/
def State.claimGivenUp (s : State) (n : Nat) (home place : Place) : State :=
  (leaveClaim home place (dropWorks n (fun _ => true) s)).setLane n Lane.idle

theorem claimGivenUp_form (s : State) (n : Nat) (home place : Place) : ∃ room slots sets,
    s.claimGivenUp n home place = { s with
      pm := { s.pm with slots := slots, sets := sets }, jc := { s.jc with roomWait := room }
      me := { s.me with lanes := tableWrite Lane.idle s.me.lanes n Lane.idle } } := by
  obtain ⟨room, hroom, -⟩ := dropWorks_form n (fun _ => true) s
  obtain ⟨slots, sets, hform⟩ := leaveClaim_form home place { s with jc := { s.jc with roomWait := room } }
  refine ⟨room, slots, sets, ?_⟩
  rw [State.claimGivenUp, hroom, hform]
  rfl

theorem reads_setLane (n : Nat) (l : Lane) (s : State) :
    (∀ k, (s.setLane n l).slot k = s.slot k) ∧ ∀ g, (s.setLane n l).set g = s.set g := ⟨fun _ => rfl, fun _ => rfl⟩

theorem removeJob_parts (j : Job) (cause : AbortCause) (s : State) : (removeJob j cause s).me.lanes = s.me.lanes
    ∧ (removeJob j cause s).pm.slots = s.pm.slots ∧ (removeJob j cause s).pm.sets = s.pm.sets := by
  rw [removeJob_eq, offerNotice_of_mp (s := s) _ (by rfl)]
  exact ⟨rfl, rfl, rfl⟩

theorem claimGivenUp_slots {s : State} {n : Nat} {home place : Place} (hkey : slotKey place ≠ slotKey home)
    (hstate : (s.slot place).state = .target) (hrefs : (s.slot place).refs = 0) (hhome : (s.slot home).state = .home) :
    (s.claimGivenUp n home place).slot place = Slot.free
      ∧ (s.claimGivenUp n home place).slot home = { s.slot home with lane := none }
      ∧ (s.claimGivenUp n home place).set place.set
        = { s.set place.set with freeCount := (s.set place.set).freeCount + 1 }
      ∧ ∀ k, slotKey k ≠ slotKey place → slotKey k ≠ slotKey home → (s.claimGivenUp n home place).slot k = s.slot k := by
  obtain ⟨room, hroom, -⟩ := dropWorks_form n (fun _ => true) s
  obtain ⟨hfree, hcleared, hset⟩ := leaveClaim_slots (s := { s with jc := { s.jc with roomWait := room } }) hkey hstate hrefs hhome
  obtain ⟨hslots, hsets⟩ := reads_setLane n Lane.idle (leaveClaim home place { s with jc := { s.jc with roomWait := room } })
  rw [State.claimGivenUp, hroom, hslots, hslots, hsets]
  exact ⟨hfree, hcleared, hset, fun k hp hh => (hslots k).trans (leaveClaim_others home place _ hp hh)⟩

theorem claimGivenUp_lane (s : State) (n : Nat) (home place : Place) : (s.claimGivenUp n home place).lane n = Lane.idle
    ∧ ∀ m, m ≠ n → (s.claimGivenUp n home place).lane m = s.lane m := by
  obtain ⟨room, slots, sets, hform⟩ := claimGivenUp_form s n home place
  rw [hform]
  exact ⟨tableRead_tableWrite_same Lane.idle s.me.lanes n Lane.idle, fun m hm => tableRead_tableWrite_other Lane.idle s.me.lanes Lane.idle hm⟩

section
variable {u : State} {n : Nat} {j : Job} {place : Place} (hj : (u.lane n).job = some j) (ht : (u.lane n).target = some place)
  (hp : (u.lane n).pages = [])
include hj ht hp

omit hj ht hp in
theorem releaseSlots_setLane (home place : Place) (l : Lane) (w : State) :
    forEach State.releaseSlot [home, place] ((w.leavePlace place).setLane n l) = (leaveClaim home place w).setLane n l := by
  have hrelease (p : Place) (s : State) : (s.setLane n l).releaseSlot p = (s.releaseSlot p).setLane n l := by
    unfold State.releaseSlot
    rw [(reads_setLane n l s).1, writeSlot_setLane]
  rw [forEach, forEach, forEach, hrelease, hrelease, leaveClaim]

/-- The lane of an abandoned claim, its slots given up, and the lane set IDLE. -/
theorem laneToIdle_claim : laneToIdle n (u.heldPlaces (u.lane n)) ((dropWorks n (fun _ => true) u).leavePlace place)
    = u.claimGivenUp n (u.slab j.slab).home place := by
  have hslab : (u.lane n).slab = j.slab := by rw [Lane.slab, hj]; rfl
  let w := dropWorks n (fun _ => true) u
  have hlane : ((w.leavePlace place).lane n).pages = [] := by
    obtain ⟨slots, sets, h⟩ := writeSlot_slots_sets place { w.slot place with state := .draining }.drained w
    rw [State.leavePlace, h]
    exact hp
  rw [laneToIdle_emptied _ hlane, State.heldPlaces, State.homePlace, hslab, ht]
  exact releaseSlots_setLane (u.slab j.slab).home place Lane.idle w

/-- An abandoned claim without a cause puts its job back before the MOVE jobs. -/
theorem abandonClaim_requeues : abandonClaim n none u = (u.claimGivenUp n (u.slab j.slab).home place).onMe
    (fun m => { m with jobs := fillPart m.jobs ++ [j] ++ movePart m.jobs }) := by
  unfold abandonClaim
  dsimp only
  rw [hj, ht]
  exact congrArg (fun s : State => s.onMe (fun m => { m with jobs := fillPart m.jobs ++ [j] ++ movePart m.jobs }))
    (laneToIdle_claim hj ht hp)

theorem abandonClaim_jobs_none : (abandonClaim n none u).me.jobs
      = u.me.jobs.takeWhile (fun i => i.kind = .fill) ++ [j] ++ u.me.jobs.dropWhile (fun i => i.kind = .fill)
    ∧ (abandonClaim n none u).pm.slabs = u.pm.slabs ∧ (abandonClaim n none u).mp = u.mp := by
  obtain ⟨room, slots, sets, hform⟩ := claimGivenUp_form u n (u.slab j.slab).home place
  rw [abandonClaim_requeues hj ht hp, hform]
  exact ⟨rfl, rfl, rfl⟩

theorem abandonClaim_jobs_some (cause : AbortCause) : (abandonClaim n (some cause) u).me.jobs = u.me.jobs
    ∧ (abandonClaim n (some cause) u).slab j.slab = { u.slab j.slab with mark := false }
    ∧ (abandonClaim n (some cause) u).mp = (u.offerNotice (.jobAborted (u.slab j.slab).volume
        (j.slab - (u.volume (u.slab j.slab).volume).base) j.slab j.kind cause 0)).mp := by
  obtain ⟨room, slots, sets, hform⟩ := claimGivenUp_form u n (u.slab j.slab).home place
  have hremoved := (abandonClaim_removes hj ht hp (cause := cause)).trans ((congrArg (removeJob j cause) hform).trans
    ((removeJob_eq j cause _).trans (offerNotice_of_mp (s := u) _ (by rfl))))
  rw [hremoved]
  exact ⟨rfl, tableRead_tableWrite_same Slab.unused u.pm.slabs j.slab _, rfl⟩

/-- Whatever becomes of the job, an abandoned claim leaves the lanes and the slots as the claim given up does. -/
theorem abandonClaim_parts (cause : Option AbortCause) :
    (abandonClaim n cause u).me.lanes = (u.claimGivenUp n (u.slab j.slab).home place).me.lanes
      ∧ (abandonClaim n cause u).pm.slots = (u.claimGivenUp n (u.slab j.slab).home place).pm.slots
      ∧ (abandonClaim n cause u).pm.sets = (u.claimGivenUp n (u.slab j.slab).home place).pm.sets := by
  cases cause with
  | none =>
    rw [abandonClaim_requeues hj ht hp]
    exact ⟨rfl, rfl, rfl⟩
  | some c =>
    rw [abandonClaim_removes hj ht hp]
    exact removeJob_parts j c (u.claimGivenUp n (u.slab j.slab).home place)

end

end Sys2Proof.Machine
end

section
/-! PROOFS. The parts of an image (R156). -/

namespace Sys2Proof.Machine

/-! ## Packing -/

theorem packParts_flatten (entries : List (List Byte)) (cur : List Byte) :
    (packParts entries cur).flatten = cur ++ entries.flatten := by
  induction entries generalizing cur with
  | nil => cases cur <;> simp [packParts]
  | cons e rest ih =>
    unfold packParts
    split
    · rw [ih, List.flatten_cons, List.append_assoc]
    · rw [List.flatten_cons, ih, List.flatten_cons]

/-- Entries that fit a part each are packed into parts that fit. -/
theorem packParts_length {entries : List (List Byte)} (he : ∀ e ∈ entries, e.length ≤ 244) {cur : List Byte}
    (hc : cur.length ≤ 244) : ∀ part ∈ packParts entries cur, part.length ≤ 244 := by
  induction entries generalizing cur with
  | nil =>
    cases cur with
    | nil => simp [packParts]
    | cons b rest => simpa [packParts] using hc
  | cons e rest ih =>
    obtain ⟨hfirst, hrest⟩ := List.forall_mem_cons.1 he
    unfold packParts
    split
    next hfits => exact ih hrest (by rw [List.length_append]; exact hfits)
    next => exact List.forall_mem_cons.2 ⟨hc, ih hrest hfirst⟩

/-! ## The entries -/

/-- Entries of one length, one after another. -/
theorem length_flatMap_eq {α : Type} {f : α → List Byte} {k : Nat} (h : ∀ a, (f a).length = k) (l : List α) :
    (l.flatMap f).length = k * l.length := by
  induction l with
  | nil => rfl
  | cons a rest ih => rw [List.flatMap_cons, List.length_append, h, ih, List.length_cons, Nat.mul_add, Nat.mul_one, Nat.add_comm]

theorem length_bandBytes (b : Band) : (bandBytes b).length = 7 := by simp [bandBytes]

theorem length_positionBytes (p : Position) : (positionBytes p).length = 7 := by simp [positionBytes]

theorem length_placementBytes (p : Placement) : (placementBytes p).length = 4 := length_beBytes 4 _

theorem length_memberEntry (e : Nat × Member) : (memberEntry e).length = 40 := by
  have hbands : ((e.2.bands.take 4).flatMap bandBytes).length = 7 * min 4 e.2.bands.length := by
    rw [length_flatMap_eq length_bandBytes, List.length_take]
  unfold memberEntry
  simp only [List.length_append, length_beBytes, List.length_replicate, hbands]
  omega

theorem length_setEntryBytes {e : Nat × Option SetDef} (h : ∀ d, e.2 = some d → d.positions.length ≤ 16) :
    (setEntryBytes e).length ≤ 122 := by
  unfold setEntryBytes
  split
  · exact Nat.zero_le 122
  next d hd =>
    have hw := h d hd
    simp only [List.length_append, length_beBytes, length_flatMap_eq length_positionBytes, List.length_cons, List.length_nil]
    omega

theorem length_volumeEntry (e : Nat × Volume) : (volumeEntry e).length = 20 := by simp [volumeEntry]

theorem length_slabEntry (e : Nat × Slab) : (slabEntry e).length = 16 := by simp [slabEntry, placeBytes, boolByte]

theorem length_damageEntry (d : Damage) : (damageEntry d).length = 14 := by simp [damageEntry]

/-- Entries of a table, packed. -/
theorem packed_length {α : Type} {f : α → List Byte} {l : List α} (h : ∀ a ∈ l, (f a).length ≤ 244) :
    ∀ part ∈ packParts (l.map f) [], part.length ≤ 244 :=
  packParts_length (List.forall_mem_map.2 h) (Nat.zero_le 244)

/-! ## The parts of a lasting state -/

/-- The parts of the tables, without a growth. -/
def Account.tableParts (a : Account) : List (List Byte) :=
  packParts (a.members.map memberEntry) [] ++ packParts (a.sets.map setEntryBytes) [] ++ packParts (a.volumes.map volumeEntry) []
    ++ packParts (a.slabs.map slabEntry) [] ++ packParts (a.damage.map damageEntry) []

theorem imageParts_none {a : Account} (h : a.growth = none) : a.imageParts = a.tableParts := by
  unfold Account.imageParts
  rw [h]
  exact List.append_nil _

theorem imageParts_some {a : Account} {g : OpenGrowth} (h : a.growth = some g) :
    a.imageParts = a.tableParts ++ (RecordBody.growOpen g.volume g.old g.new g.pool).payload
      :: g.parts.map (fun placements => placements.flatMap placementBytes) := by
  unfold Account.imageParts
  rw [h]
  rfl

theorem tableParts_flatten (a : Account) : a.tableParts.flatten
    = (a.members.map memberEntry).flatten ++ (a.sets.map setEntryBytes).flatten ++ (a.volumes.map volumeEntry).flatten
      ++ (a.slabs.map slabEntry).flatten ++ (a.damage.map damageEntry).flatten := by
  simp only [Account.tableParts, List.flatten_append, packParts_flatten, List.nil_append]

theorem tableParts_length {a : Account} (h : ∀ e ∈ a.sets, ∀ d, e.2 = some d → d.positions.length ≤ 16) :
    ∀ part ∈ a.tableParts, part.length ≤ 244 := by
  have hmembers := packed_length (f := memberEntry) (l := a.members) fun e _ => Nat.le_trans (Nat.le_of_eq (length_memberEntry e)) (by decide)
  have hsets := packed_length (f := setEntryBytes) (l := a.sets) fun e he => Nat.le_trans (length_setEntryBytes (h e he)) (by decide)
  have hvolumes := packed_length (f := volumeEntry) (l := a.volumes) fun e _ => Nat.le_trans (Nat.le_of_eq (length_volumeEntry e)) (by decide)
  have hslabs := packed_length (f := slabEntry) (l := a.slabs) fun e _ => Nat.le_trans (Nat.le_of_eq (length_slabEntry e)) (by decide)
  have hdamage := packed_length (f := damageEntry) (l := a.damage) fun e _ => Nat.le_trans (Nat.le_of_eq (length_damageEntry e)) (by decide)
  intro part hpart
  rcases List.mem_append.1 hpart with hpart | hpart
  · rcases List.mem_append.1 hpart with hpart | hpart
    · rcases List.mem_append.1 hpart with hpart | hpart
      · rcases List.mem_append.1 hpart with hpart | hpart
        · exact hmembers part hpart
        · exact hsets part hpart
      · exact hvolumes part hpart
    · exact hslabs part hpart
  · exact hdamage part hpart

theorem growthParts_length {parts : List (List Placement)} (h : ∀ placements ∈ parts, placements.length ≤ 61) :
    ∀ part ∈ parts.map (fun placements => placements.flatMap placementBytes), part.length ≤ 244 :=
  List.forall_mem_map.2 fun placements hp => by
    have hlen := h placements hp
    rw [length_flatMap_eq length_placementBytes]
    omega

theorem imageCounts_none {a : Account} (h : a.growth = none) :
    a.imageCounts = ⟨a.members.length, a.sets.length, a.volumes.length, a.slabs.length, a.damage.length, 0⟩ := by
  unfold Account.imageCounts
  rw [h]

theorem imageCounts_some {a : Account} {g : OpenGrowth} (h : a.growth = some g) :
    a.imageCounts = { { a with growth := none }.imageCounts with growth := g.parts.length + 1 } := by
  unfold Account.imageCounts
  rw [h]

end Sys2Proof.Machine
end

section
/-! PROOFS. The map store's operations in service end (R152 to R158): the parts put together. -/

namespace Sys2Proof.Machine

/-! ## The image's records are durable (R155) -/

/-- What the journal posts once a record is durable. -/
def durableTold (r : Record) : List Internal := [.recordDurable r, .roomServe, .storeNext]

theorem recordIsDurable_posts {s v : State} {block page : Nat} {r : Record} (ha : v.agenda = [])
    (hv : imageEnded r (imageBegun r block { s with jc := s.jc.kept page r }) = v) :
    recordIsDurable block page r s = { v with agenda := durableTold r } := by
  rw [recordIsDurable_eq, hv]
  show ({ v with agenda := ((v.agenda ++ [_]) ++ [_]) ++ [_] } : State) = _
  rw [ha]
  rfl

section
variable {s : State} {start block page : Nat} {r : Record} (hs : s.quiet) (hop : s.jc.op = some (.readBack start block page r))
include hs hop

theorem imageBegin_durable {arrayId bad : BitVec 64} {params : Params} {lost : Bool} {counts : ImageCounts}
    (hf : s.jc.format = none) (hr : r.body = .imageBegin arrayId params bad lost counts) :
    exec (.readBackEnd (pageBytes r.seq r.body)) s = .next (finish s { s with
      agenda := durableTold r, jc := { s.jc.kept page r with imageStart := some (r.seq, block) } }) := by
  let v : State := { s with jc := { s.jc.kept page r with imageStart := some (r.seq, block) } }
  have hbegun : imageEnded r (imageBegun r block { s with jc := s.jc.kept page r }) = v := by
    rw [imageBegun_service hr block (s := { s with jc := s.jc.kept page r }) hf, imageEnded_other (by rw [hr]; nofun)]
  exact (execReadBackEnd_good hop).trans
    (congrArg (fun t => Host.Outcome.next (finish s t)) (recordIsDurable_posts (s := s) (v := v) hs hbegun))

theorem imageEnd_durable {first parts seq begun h : Nat} (hr : r.body = .imageEnd first parts) (hst : s.jc.state = .compacting)
    (hi : s.jc.imageStart = some (seq, begun)) (hh : s.jc.head = some h) :
    ∃ blocks, exec (.readBackEnd (pageBytes r.seq r.body)) s = .next (finish s { s with
        agenda := durableTold r, mp := (s.offerNotice (.journalState .writing none)).mp
        jc := { s.jc.kept page r with
          blocks := blocks, state := .writing, admission := true, newestImage := some (seq, begun), imageStart := none
          imageBuilt := false
          counters := { (s.jc.kept page r).counters with compactions := min (s.jc.counters.compactions + 1) 4294967295 } } })
      ∧ ∀ b, b < 64 → tableRead StoreBlock.written blocks b = { s.storeBlock b with
          cond := if (s.storeBlock b).cond = .written ∧ ringDistance h b < ringDistance h begun then .awaiting
            else (s.storeBlock b).cond } := by
  let u : State := { s with jc := s.jc.kept page r }
  obtain ⟨blocks, hended, hcond⟩ := endCompaction_eq (s := u) hi hh
  refine ⟨blocks, ?_, hcond⟩
  let v : State := { s with
    mp := (s.offerNotice (.journalState .writing none)).mp
    jc := { s.jc.kept page r with
      blocks := blocks, state := .writing, admission := true, newestImage := some (seq, begun), imageStart := none
      imageBuilt := false
      counters := { (s.jc.kept page r).counters with compactions := min (s.jc.counters.compactions + 1) 4294967295 } } }
  have hmp : (u.offerNotice (.journalState .writing none)).mp = (s.offerNotice (.journalState .writing none)).mp := by
    rw [offerNotice_of_mp (s := s) (t := u) (.journalState .writing none) rfl]
  have hbegun : imageEnded r (imageBegun r block u) = endCompaction u := by
    rw [imageBegun_other (by rw [hr]; nofun)]
    unfold imageEnded
    rw [hr]
    exact if_pos hst
  rw [hmp] at hended
  exact (execReadBackEnd_good hop).trans
    (congrArg (fun t => Host.Outcome.next (finish s t)) (recordIsDurable_posts (s := s) (v := v) hs (hbegun.trans hended)))

end

/-! ## The journal freezes (R158) -/

theorem freeze_inactive {u : State} (h : u.jc.active = false) (cause : FrozenCause) : handle (.freeze cause) u = u :=
  if_neg (by rw [h]; exact Bool.false_ne_true)

theorem freeze_active {u : State} (h : u.jc.active = true) (cause : FrozenCause) : handle (.freeze cause) u = enterFrozen cause u :=
  if_pos h

/-! ## A claim whose record will not be durable (R76) -/

theorem laneFrozen_other {u : State} {n : Nat} (h : (u.lane n).state ≠ .claiming) : handle (.laneFrozen n) u = u := if_neg h

theorem laneFrozen_claiming {u : State} {n : Nat} (h : (u.lane n).state = .claiming) :
    handle (.laneFrozen n) u = abandonClaim n (u.lane n).cause u := if_pos h

theorem abandonClaim_lanes_slots {u : State} {n : Nat} {j : Job} {place : Place} (cause : Option AbortCause)
    (hj : (u.lane n).job = some j) (ht : (u.lane n).target = some place) (hp : (u.lane n).pages = [])
    (hkey : slotKey place ≠ slotKey (u.slab j.slab).home) (hstate : (u.slot place).state = .target)
    (hrefs : (u.slot place).refs = 0) (hhome : (u.slot (u.slab j.slab).home).state = .home) :
    let told := abandonClaim n cause u
    told.lane n = Lane.idle ∧ (∀ m, m ≠ n → told.lane m = u.lane m) ∧ told.slot place = Slot.free
      ∧ told.set place.set = { u.set place.set with freeCount := (u.set place.set).freeCount + 1 }
      ∧ told.slot (u.slab j.slab).home = { u.slot (u.slab j.slab).home with lane := none }
      ∧ ∀ k, slotKey k ≠ slotKey place → slotKey k ≠ slotKey (u.slab j.slab).home → told.slot k = u.slot k := by
  intro told
  let w := u.claimGivenUp n (u.slab j.slab).home place
  obtain ⟨hlanes, hslots, hsets⟩ := abandonClaim_parts hj ht hp cause
  have hlane (m : Nat) : told.lane m = w.lane m := congrArg (tableRead Lane.idle · m) hlanes
  have hslot (k : Place) : told.slot k = w.slot k := congrArg (tableRead Slot.free · (slotKey k)) hslots
  have hset (g : Nat) : told.set g = w.set g := congrArg (tableRead SetEntry.unused · g) hsets
  obtain ⟨hidle, hothers⟩ := claimGivenUp_lane u n (u.slab j.slab).home place
  obtain ⟨hfree, hcleared, hcount, hkeep⟩ := claimGivenUp_slots (n := n) hkey hstate hrefs hhome
  exact ⟨(hlane n).trans hidle, fun m hm => (hlane m).trans (hothers m hm), (hslot place).trans hfree,
    (hset place.set).trans hcount, (hslot _).trans hcleared, fun k hk hk' => (hslot k).trans (hkeep k hk hk')⟩

/-! ## The parts together -/

/-- A spent head moves on, and a compaction begins where the ring is short (R154). -/
theorem openNext_moves {s : State} {h b : Nat} (hh : s.jc.head = some h) (hc : (s.storeBlock h).cond = .head)
    (hp : 256 ≤ s.jc.nextPage) (hb : s.followingBlock h = some b) (he : (s.storeBlock b).cond = .erased) :
    (¬((s.blocksIn .erased).length ≤ 8 ∧ s.jc.state = .writing ∧ s.blocksIn .awaiting = []) → openNext s = s.headMoved h b)
      ∧ ((s.blocksIn .erased).length ≤ 8 ∧ s.jc.state = .writing ∧ s.blocksIn .awaiting = [] →
        openNext s = beginCompaction (s.headMoved h b)) := by
  have hne : b ≠ h := followingBlock_ne hb
  have hopens : openNext s = compactionCheck (s.headMoved h b) := by
    rw [openNext_opens hh ((headSpent_iff hh).2 (Or.inl hp)) hb he, moveHead_eq hc hne]
  obtain ⟨hstays, hbegins⟩ := compactionCheck_headMoved hc hne he (followingBlock_lt hb)
  rw [hopens]
  exact ⟨hstays, hbegins⟩

/-- Settles O54: one lemma for each operation's end, for the ring, for the image and for the entry into FROZEN. -/
theorem storeOperationsEnd : Obligations.StoreOperationsEnd := by
  refine ⟨fun s hs => ⟨execStoreOpTimeout_none, execEraseEnd_idle, fun hf hst head hh hc hp =>
      ⟨fun start block page r kind c hfails hblock hlast hr hn => ?_,
        fun start block page r kind c hfails hblock hlt hr hlow hseq h2 next hnext herased => ?_,
        fun start block kind c hop hfail hne hlt hbad hu hq hsp hi hseq => serviceErase_fails hs hf hst hop hh hc hp hne hfail hlt hbad hu
          hq hsp hi hseq,
        fun start block hop => ⟨execStoreOpTimeout_early hop, fun hne hr hn => serviceErase_done hs hf hst hop hh hc hp hne hr hn⟩⟩⟩,
    fun s h b _ hh hc hp => ?_, fun s h hst hop hq hsp hi hh hspent hn => ?_, fun a hg hsets => ?_, fun a growth hg => ?_,
    fun s start block page r hs hf hop => ?_, fun u cause => ⟨fun h => freeze_inactive h cause, fun h => ?_⟩,
    fun u q body tag owner ho => ownerDiscarded_asked ho u q body tag, fun u n g front place kind d => ?_,
    fun u q n g target salvage => ?_⟩
  · subst hblock
    exact serviceProgram_again hs hf hst ⟨start, hfails⟩ hh hc hr hn hlast
  · subst hblock
    intro retired faulted
    exact ⟨fun hu h9 => serviceProgram_moves hs hf hst ⟨start, hfails⟩ hh hc hr hlt hlow hseq h2 hnext herased hu h9,
      fun hu => serviceProgram_freezes hs hf ⟨start, hfails⟩ hh hc hlt hseq h2 hnext herased hu⟩
  · have hspent : s.headSpent = true := (headSpent_iff hh).2 (Or.inl hp)
    refine ⟨openNext_none hh hspent, fun hb => ⟨fun he hn => (openNext_moves hh hc hp hb he).1 hn,
      fun he hy => ((openNext_moves hh hc hp hb he).2 hy).trans rfl, openNext_awaiting hh hspent hb, openNext_written hh hspent hb⟩⟩
  · refine ⟨fun hb => ?_, fun body rest hb himage => ?_⟩
    · exact kickStore_image hst hop hq hsp hi hh hspent (nextImageRecord_builds hb hn)
    · rw [kickStore_image hst hop hq hsp hi hh hspent (nextImageRecord_built hb himage hn)]
      rfl
  · rw [imageParts_none hg]
    exact ⟨tableParts_length hsets, tableParts_flatten a, imageCounts_none hg⟩
  · refine ⟨(imageParts_some hg).trans (congrArg (· ++ _) (imageParts_none (a := { a with growth := none }) rfl).symm), imageCounts_some hg, growthParts_length⟩
  · intro written told
    refine ⟨fun arrayId params bad lost counts hr => ?_, fun first parts seq begun h hr hst hi hh => ?_⟩
    · have hkept : s.jc.kept page r = written := by
        rw [Journal.kept, hr]
        rfl
      rw [imageBegin_durable hs hop hf hr, hkept]
      rfl
    · have hkept : s.jc.kept page r = written := by
        rw [Journal.kept, hr]
        rfl
      obtain ⟨blocks, hexec, hcond⟩ := imageEnd_durable hs hop hr hst hi hh
      rw [hkept] at hexec
      exact ⟨_, hexec, rfl, hcond, rfl, rfl, rfl⟩
  · rw [freeze_active h]
    exact enterFrozen_eq cause u
  · exact ⟨rfl, rfl, rfl, rfl, congrArg (askPages n) (addDamage_eq d u), askPages_none,
      fun hs hp hr hl => ⟨askPages_lists hs hp hr hl, fun hw hf => askPages_served hs hp hr hl hw hf⟩⟩
  · refine ⟨rfl, rfl, laneFrozen_other, fun j place hs hj ht hp hkey hstate hrefs hhome => ?_⟩
    have htold : handle (.laneFrozen n) u = abandonClaim n (u.lane n).cause u := laneFrozen_claiming hs
    obtain ⟨hidle, hlanes, hfree, hcount, hcleared, hslots⟩ :=
      abandonClaim_lanes_slots (u.lane n).cause hj ht hp hkey hstate hrefs hhome
    rw [htold]
    refine ⟨hidle, hlanes, hfree, hcount, hcleared, hslots, fun hcause => ?_, fun cause hcause => ?_⟩
    · rw [hcause]
      exact abandonClaim_jobs_none hj ht hp
    · rw [hcause]
      exact abandonClaim_jobs_some hj ht hp cause

end Sys2Proof.Machine
end

section
/-! PROOFS. The commit check of a row (R80, R98 to R103, R121). -/

namespace Sys2Proof.Machine

/-! ## A lane's pages (R79, R109) -/

/-- Two records of a lane that differ in its pages alone. -/
def Lane.PagesOnly (l l' : Lane) : Prop := ∃ pages, l' = { l with pages := pages }

theorem Lane.PagesOnly.refl (l : Lane) : l.PagesOnly l := ⟨l.pages, rfl⟩

theorem Lane.PagesOnly.trans {l l' l'' : Lane} (h : l.PagesOnly l') (h' : l'.PagesOnly l'') : l.PagesOnly l'' := by
  obtain ⟨_, rfl⟩ := h
  obtain ⟨pages, rfl⟩ := h'
  exact ⟨pages, rfl⟩

theorem setLane_pagesOnly (s : State) (n m : Nat) (pages : List Nat) :
    (s.lane m).PagesOnly ((s.setLane n { s.lane n with pages := pages }).lane m) := by
  by_cases h : m = n
  · rw [h, lane_setLane_same]
    exact ⟨pages, rfl⟩
  · rw [lane_setLane_other _ s h]
    exact Lane.PagesOnly.refl _

theorem reservePages_pagesOnly (n count : Nat) (s : State) (m : Nat) : (s.lane m).PagesOnly ((reservePages n count s).lane m) := by
  unfold reservePages
  split
  · exact setLane_pagesOnly s n m ((s.lane n).pages ++ s.sp.free.take count)
  · exact Lane.PagesOnly.refl _

theorem servePages_pagesOnly (k : Nat) (s : State) (m : Nat) : (s.lane m).PagesOnly ((servePages k s).lane m) := by
  induction k generalizing s with
  | zero => exact Lane.PagesOnly.refl _
  | succ k ih =>
    rw [servePages]
    split
    · exact Lane.PagesOnly.refl _
    · next n count rest hw =>
      split
      · exact (reservePages_pagesOnly n count (s.onSp (fun p => { p with waiting := rest })) m).trans (ih _)
      · exact Lane.PagesOnly.refl _

theorem releasePages_pagesOnly (n : Nat) (s : State) (m : Nat) : (s.lane m).PagesOnly ((releasePages n s).lane m) :=
  (setLane_pagesOnly s n m []).trans (servePages_pagesOnly 4 (givePages n s) m)

/-- A change of the staging pool's wait lists, of lanes and of the agenda alone. -/
def PoolOnly (s t : State) : Prop := ∃ sp lanes a, t = { s with sp := sp, me := { s.me with lanes := lanes }, agenda := a }

namespace PoolOnly

theorem refl (s : State) : PoolOnly s s := ⟨s.sp, s.me.lanes, s.agenda, rfl⟩

theorem trans {s t u : State} (h : PoolOnly s t) (h' : PoolOnly t u) : PoolOnly s u := by
  obtain ⟨_, _, _, rfl⟩ := h
  obtain ⟨sp, lanes, a, rfl⟩ := h'
  exact ⟨sp, lanes, a, rfl⟩

theorem setLane (n : Nat) (l : Lane) (s : State) : PoolOnly s (s.setLane n l) :=
  ⟨s.sp, tableWrite Lane.idle s.me.lanes n l, s.agenda, rfl⟩

theorem reservePages (n count : Nat) (s : State) : PoolOnly s (reservePages n count s) := by
  unfold Machine.reservePages
  split
  · exact ⟨_, _, _, rfl⟩
  · exact refl s

theorem askPages (n : Nat) (s : State) : PoolOnly s (askPages n s) := by
  unfold Machine.askPages
  dsimp only
  split
  · split
    · exact reservePages _ _ s
    · exact ⟨_, s.me.lanes, s.agenda, rfl⟩
  · exact refl s

theorem startAttempt (n : Nat) (s : State) : PoolOnly s (startAttempt n s) := by
  by_cases h : s.me.paused = true ∧ (s.lane n).lockout = false
  · rw [startAttempt_paused h.1 h.2]
    exact setLane n _ s
  · rw [startAttempt_tries (by rwa [Classical.not_and_iff_not_or_not, Bool.not_eq_true, Bool.not_eq_false] at h)]
    exact (setLane n _ s).trans (askPages n _)

theorem releasePages (n : Nat) (s : State) : PoolOnly s (releasePages n s) := by
  obtain ⟨free, waiting, lanes, a, h, -⟩ := releaseAs_form n { s.lane n with pages := [] } s
  exact ⟨_, lanes, _, h⟩

theorem releaseRecovery (n : Nat) (s : State) : PoolOnly s (releaseRecovery n s) := by
  obtain ⟨holder, wait, a, h, -⟩ := releaseRecovery_form n s
  exact ⟨_, s.me.lanes, _, h⟩

variable {s t : State} (h : PoolOnly s t)
include h

theorem pm_eq : t.pm = s.pm := by
  obtain ⟨_, _, _, rfl⟩ := h
  rfl

theorem me_eq : { t.me with lanes := s.me.lanes } = s.me := by
  obtain ⟨_, _, _, rfl⟩ := h
  rfl

theorem counters_eq : t.me.counters = s.me.counters := (congrArg MoveEngine.counters h.me_eq :)

theorem paused_eq : t.me.paused = s.me.paused := (congrArg MoveEngine.paused h.me_eq :)

theorem clock_eq : t.clock = s.clock := by
  obtain ⟨_, _, _, rfl⟩ := h
  rfl

theorem jc_eq : t.jc = s.jc := by
  obtain ⟨_, _, _, rfl⟩ := h
  rfl

theorem slab_eq (g : Nat) : t.slab g = s.slab g := congrArg (fun m : PlacementMap => tableRead Slab.unused m.slabs g) h.pm_eq

end PoolOnly

theorem askPages_pagesOnly (n : Nat) (s : State) (m : Nat) : (s.lane m).PagesOnly ((askPages n s).lane m) := by
  unfold askPages
  dsimp only
  split
  · split
    · exact reservePages_pagesOnly n _ s m
    · exact Lane.PagesOnly.refl _
  · exact Lane.PagesOnly.refl _

/-- The state of a lane that begins an attempt (R79, R93). -/
def State.attemptState (s : State) (n : Nat) : LaneState :=
  if s.me.paused = true ∧ (s.lane n).lockout = false then .paused else .waitPages

/-- The lane's record at an attempt, up to its pages. -/
theorem startAttempt_lane (n : Nat) (s : State) : Lane.PagesOnly
    { s.lane n with state := s.attemptState n, work := RowWork.none, backoffEnd := none } ((startAttempt n s).lane n) := by
  by_cases h : s.me.paused = true ∧ (s.lane n).lockout = false
  · rw [startAttempt_paused h.1 h.2, lane_setLane_same, State.attemptState, if_pos h]
    exact Lane.PagesOnly.refl _
  · have hlane := askPages_pagesOnly n (s.setLane n (s.tried n)) n
    rw [lane_setLane_same] at hlane
    rw [startAttempt_tries (by rwa [Classical.not_and_iff_not_or_not, Bool.not_eq_true, Bool.not_eq_false] at h), State.attemptState, if_neg h]
    exact hlane

/-! ## A row's damage (R121, R122) -/

/-- A change of the journal, the Message Port, the Damage List and the agenda alone. -/
def DamageOnly (s t : State) : Prop := ∃ mp jc a damage lost overflow, t = { s with
  mp := mp, jc := jc, agenda := a
  me := { s.me with damage := damage, lost := lost, counters := { s.me.counters with damageOverflow := overflow } } }

namespace DamageOnly

theorem refl (s : State) : DamageOnly s s := ⟨s.mp, s.jc, s.agenda, s.me.damage, s.me.lost, s.me.counters.damageOverflow, rfl⟩

theorem trans {s t u : State} (h : DamageOnly s t) (h' : DamageOnly t u) : DamageOnly s u := by
  obtain ⟨_, _, _, _, _, _, rfl⟩ := h
  obtain ⟨mp, jc, a, damage, lost, overflow, rfl⟩ := h'
  exact ⟨mp, jc, a, damage, lost, overflow, rfl⟩

theorem of_journal {s t : State} (h : JournalOnly s t) : DamageOnly s t := by
  obtain ⟨mp, jc, a, rfl⟩ := h
  exact ⟨mp, jc, a, s.me.damage, s.me.lost, s.me.counters.damageOverflow, rfl⟩

theorem addDamage (d : Damage) (s : State) : DamageOnly s (addDamage d s) := by
  rw [addDamage_eq, offerNotice_of_mp (s := s) _ (by rfl)]
  exact ⟨_, s.jc, s.agenda, _, _, _, rfl⟩

theorem commitDamage (n : Nat) (d : Damage) (s : State) : DamageOnly s (commitDamage n d s) := by
  unfold Machine.commitDamage
  split
  · exact addDamage d s
  · exact of_journal (JournalOnly.queueRecord _ _ s)

theorem forEach_commitDamage (n : Nat) (l : List Damage) (s : State) : DamageOnly s (forEach (Machine.commitDamage n) l s) := by
  induction l generalizing s with
  | nil => exact refl s
  | cons d rest ih => exact (commitDamage n d s).trans (ih _)

variable {s t : State} (h : DamageOnly s t)
include h

theorem pm_eq : t.pm = s.pm := by
  obtain ⟨_, _, _, _, _, _, rfl⟩ := h
  rfl

theorem lane_eq (n : Nat) : t.lane n = s.lane n := by
  obtain ⟨_, _, _, _, _, _, rfl⟩ := h
  rfl

theorem paused_eq : t.me.paused = s.me.paused := by
  obtain ⟨_, _, _, _, _, _, rfl⟩ := h
  rfl

theorem rowsCopied_eq : t.me.counters.rowsCopied = s.me.counters.rowsCopied := by
  obtain ⟨_, _, _, _, _, _, rfl⟩ := h
  rfl

end DamageOnly

end Sys2Proof.Machine
end

section
/-! PROOFS. Rows that commit and rows that break (R80, R96 to R103). -/

namespace Sys2Proof.Machine

/-! ## A row that commits (R80, R98) -/

/-- A lane's record once its row has committed. -/
def Lane.passed (l : Lane) : Lane := { l with breaks := 0, watch := none, lockout := false, row := l.row + 1, work := RowWork.none }

/-- The state in which the front has passed the row: its pages are free, and the row is counted. -/
def State.rowPassed (s : State) (n : Nat) (j : Job) : State :=
  let free := releasePages n s
  let row := (free.setLane n { free.lane n with
    breaks := 0, watch := none, lockout := false, row := (s.lane n).row + 1, work := RowWork.none }).setSlab j.slab
      { free.slab j.slab with front := (s.lane n).row + 1 }
  if j.kind = .move then { row with me := { row.me with counters := { row.me.counters with
    rowsCopied := min (row.me.counters.rowsCopied + 1) 4294967295 } } }
  else row

/-- The state in which the row's damage is noted, before its FRONT. -/
def State.rowDamaged (s : State) (n : Nat) (j : Job) : State := forEach (commitDamage n) (s.lane n).work.damage (s.rowPassed n j)

/-- The state in which the row's FRONT is queued where it is due. -/
def State.rowFronted (s : State) (n : Nat) (j : Job) : State :=
  if (s.rowDamaged n j).frontDue j.slab then queueRecord (.lane n) (.front j.slab ((s.lane n).row + 1)) (s.rowDamaged n j)
  else s.rowDamaged n j

/-- The state in which the row has ended. -/
def State.rowEnded (s : State) (n : Nat) (j : Job) : State :=
  if (s.lane n).lockout = true then (s.rowFronted n j).post (.reevaluate j.slab) else s.rowFronted n j

theorem commitRow_eq (n : Nat) (j : Job) (s : State) : commitRow n j s = nextRow n j (s.rowEnded n j) := rfl

theorem nextRow_last {n : Nat} {j : Job} {s : State} (h : (s.lane n).row = (s.rowSet (s.lane n)).rows) :
    nextRow n j s = queueRecord (.lane n) (.jobEnd j.slab j.kind) (s.setLane n { s.lane n with state := .finishing }) := if_pos h

theorem nextRow_next {n : Nat} {j : Job} {s : State} (h : (s.lane n).row ≠ (s.rowSet (s.lane n)).rows) :
    nextRow n j s = startAttempt n s := if_neg h

theorem frontDue_iff (s : State) (g : Nat) : s.frontDue g = true ↔ s.me.ckptRows ≤ (s.slab g).front - (s.slab g).persisted
    ∧ (∀ r ∈ s.jc.queue, ∀ value, r.body ≠ .front g value) ∧ s.jc.state ≠ .frozen := by
  have hfront (r : Record) : r.frontOf g = true ↔ ∃ value, r.body = .front g value := by
    unfold Record.frontOf
    split
    · next g' value hbody =>
      rw [hbody, decide_eq_true_iff]
      exact ⟨fun h => ⟨value, by rw [h]⟩, fun ⟨_, h⟩ => by cases h; rfl⟩
    · next hbody => exact iff_of_false Bool.false_ne_true fun ⟨value, h⟩ => hbody g value h
  have hqueue : s.jc.queue.any (fun r => r.frontOf g) = false ↔ ∀ r ∈ s.jc.queue, ∀ value, r.body ≠ .front g value := by
    rw [List.any_eq_false]
    exact forall₂_congr fun r _ => by rw [hfront, not_exists]
  unfold State.frontDue
  dsimp only
  rw [Bool.and_eq_true, Bool.and_eq_true, decide_eq_true_iff, Bool.not_eq_true', Bool.not_eq_true', decide_eq_false_iff_not, hqueue,
    and_assoc]

/-- The row passed: what it changes. -/
theorem rowPassed_eq (n : Nat) (j : Job) (s : State) :
    (s.rowPassed n j).pm = (s.setSlab j.slab { s.slab j.slab with front := (s.lane n).row + 1 }).pm
      ∧ (s.lane n).passed.PagesOnly ((s.rowPassed n j).lane n)
      ∧ (s.rowPassed n j).me.paused = s.me.paused
      ∧ (s.rowPassed n j).me.counters.rowsCopied
        = if j.kind = .move then min (s.me.counters.rowsCopied + 1) 4294967295 else s.me.counters.rowsCopied := by
  have hpool := PoolOnly.releasePages n s
  obtain ⟨pages, hpages⟩ := releasePages_pagesOnly n s n
  have hpm : (releasePages n s).pm = s.pm := hpool.pm_eq
  have hslab : (releasePages n s).slab j.slab = s.slab j.slab := hpool.slab_eq j.slab
  have hrow : ∀ row : State, row = ((releasePages n s).setLane n { (releasePages n s).lane n with
        breaks := 0, watch := none, lockout := false, row := (s.lane n).row + 1, work := RowWork.none }).setSlab j.slab
          { (releasePages n s).slab j.slab with front := (s.lane n).row + 1 } →
      row.pm = (s.setSlab j.slab { s.slab j.slab with front := (s.lane n).row + 1 }).pm
        ∧ (s.lane n).passed.PagesOnly (row.lane n) ∧ row.me.paused = s.me.paused ∧ row.me.counters = s.me.counters := by
    rintro row rfl
    refine ⟨?_, ⟨pages, (lane_setLane_same n _ (releasePages n s)).trans (by rw [hpages]; rfl)⟩, hpool.paused_eq, hpool.counters_eq⟩
    show ({ (releasePages n s).pm with slabs := tableWrite Slab.unused (releasePages n s).pm.slabs j.slab _ } : PlacementMap) = _
    rw [hslab, hpm]
    rfl
  obtain ⟨hrpm, hrlane, hrpaused, hrcount⟩ := hrow _ rfl
  unfold State.rowPassed
  dsimp only
  by_cases hk : j.kind = .move
  · rw [if_pos hk, if_pos hk]
    exact ⟨hrpm, hrlane, hrpaused, congrArg (fun c : MoveCounters => min (c.rowsCopied + 1) 4294967295) hrcount⟩
  · rw [if_neg hk, if_neg hk]
    exact ⟨hrpm, hrlane, hrpaused, congrArg MoveCounters.rowsCopied hrcount⟩

theorem rowEnded_damage (n : Nat) (j : Job) (s : State) : DamageOnly (s.rowPassed n j) (s.rowEnded n j) := by
  refine (DamageOnly.forEach_commitDamage n (s.lane n).work.damage (s.rowPassed n j)).trans ?_
  have hfronted : DamageOnly (s.rowDamaged n j) (s.rowFronted n j) := by
    unfold State.rowFronted
    split
    · exact DamageOnly.of_journal (JournalOnly.queueRecord _ _ _)
    · exact DamageOnly.refl _
  refine hfronted.trans ?_
  unfold State.rowEnded
  split
  · exact DamageOnly.of_journal (JournalOnly.post _ _)
  · exact DamageOnly.refl _

/-- The row ended: what it changes of the map, of the lane and of the counts. -/
structure RowOver (s : State) (n : Nat) (j : Job) (t : State) : Prop where
  pm : t.pm = (s.setSlab j.slab { s.slab j.slab with front := (s.lane n).row + 1 }).pm
  lane : (s.lane n).passed.PagesOnly (t.lane n)
  paused : t.me.paused = s.me.paused
  counted : t.me.counters.rowsCopied
    = if j.kind = .move then min (s.me.counters.rowsCopied + 1) 4294967295 else s.me.counters.rowsCopied

theorem rowEnded_over (n : Nat) (j : Job) (s : State) : RowOver s n j (s.rowEnded n j) := by
  obtain ⟨hpm, hlane, hpaused, hcounted⟩ := rowPassed_eq n j s
  have h := rowEnded_damage n j s
  exact ⟨h.pm_eq.trans hpm, by rw [h.lane_eq]; exact hlane, h.paused_eq.trans hpaused, h.rowsCopied_eq.trans hcounted⟩

/-- A slab's front does not change the geometry that a lane writes. -/
theorem RowOver.rowSet {s t : State} {n : Nat} {j : Job} (h : RowOver s n j t) (hj : (s.lane n).job = some j) :
    t.rowSet (t.lane n) = s.rowSet (s.lane n) := by
  obtain ⟨pages, hlane⟩ := h.lane
  have hhome : (t.slab j.slab).home = (s.slab j.slab).home := by
    rw [show t.slab j.slab = { s.slab j.slab with front := (s.lane n).row + 1 } from
      (congrArg (fun m : PlacementMap => tableRead Slab.unused m.slabs j.slab) h.pm).trans
        (tableRead_tableWrite_same Slab.unused s.pm.slabs j.slab _)]
  have hplace : t.writtenPlace (t.lane n) = s.writtenPlace (s.lane n) := by
    rw [State.writtenPlace, State.writtenPlace, hlane]
    show (s.lane n).target.getD (((s.lane n).job.map (fun i => (t.slab i.slab).home)).getD ⟨0, 0⟩) = _
    rw [hj]
    exact congrArg (s.lane n).target.getD hhome
  rw [State.rowSet, State.rowSet, hplace]
  have hsets : t.pm.sets = s.pm.sets := (congrArg PlacementMap.sets h.pm :)
  exact congrArg (tableRead SetEntry.unused · (s.writtenPlace (s.lane n)).set) hsets

/-- The row committed: the slab, the lane and the counts. -/
theorem commitRow_over {s : State} {n : Nat} {j : Job} (hj : (s.lane n).job = some j) :
    (commitRow n j s).pm = (s.setSlab j.slab { s.slab j.slab with front := (s.lane n).row + 1 }).pm
      ∧ (commitRow n j s).me.counters.rowsCopied
        = (if j.kind = .move then min (s.me.counters.rowsCopied + 1) 4294967295 else s.me.counters.rowsCopied)
      ∧ ∃ state pages backoff, (commitRow n j s).lane n
          = { (s.lane n).passed with state := state, pages := pages, backoffEnd := backoff }
        ∧ ((s.lane n).row + 1 = (s.rowSet (s.lane n)).rows → state = .finishing)
        ∧ ((s.lane n).row + 1 ≠ (s.rowSet (s.lane n)).rows → state = if s.me.paused = true then .paused else .waitPages) := by
  have hover := rowEnded_over n j s
  have hset := hover.rowSet hj
  obtain ⟨pages, hlane⟩ := hover.lane
  let t := s.rowEnded n j
  have hrow : (t.lane n).row = (s.lane n).row + 1 := congrArg Lane.row hlane
  rw [commitRow_eq]
  by_cases hlast : (s.lane n).row + 1 = (s.rowSet (s.lane n)).rows
  · have hjournal := JournalOnly.queueRecord (.lane n) (.jobEnd j.slab j.kind) (t.setLane n { t.lane n with state := .finishing })
    rw [nextRow_last (s := t) (by rw [hrow, hset, hlast])]
    have hdamage := DamageOnly.of_journal hjournal
    refine ⟨hdamage.pm_eq.trans hover.pm, hdamage.rowsCopied_eq.trans hover.counted, .finishing, pages, (s.lane n).backoffEnd, ?_,
      fun _ => rfl, fun h => absurd hlast h⟩
    rw [hdamage.lane_eq, lane_setLane_same, hlane]
    rfl
  · have hpool := PoolOnly.startAttempt n t
    obtain ⟨pages', hattempt⟩ := startAttempt_lane n t
    rw [nextRow_next (s := t) (by rw [hrow, hset]; exact hlast)]
    have hstate : t.attemptState n = if s.me.paused = true then .paused else .waitPages := by
      rw [State.attemptState, hover.paused, show (t.lane n).lockout = false from congrArg Lane.lockout hlane]
      simp only [and_true]
    refine ⟨hpool.pm_eq.trans hover.pm, (congrArg MoveCounters.rowsCopied hpool.counters_eq).trans hover.counted, _, pages', none, ?_,
      fun h => absurd h hlast, fun _ => hstate⟩
    rw [hattempt, hlane]
    rfl

/-! ## A row that breaks (R98 to R103) -/

/-- A lane's record once its row's check has found the watch BROKEN. -/
def Lane.brokenOff (l : Lane) : Lane := { l with watch := none, breaks := l.breaks + 1, work := RowWork.none }

/-- The state in which the row is discarded, before the lane goes on. -/
def State.rowBroken (s : State) (n : Nat) : State :=
  ((releasePages n (releaseRecovery n s)).onLane n
    (fun l => { l with watch := none, breaks := l.breaks + 1, work := RowWork.none })).onMe
      (fun m => { m with counters := { m.counters with watchBreaks := bump m.counters.watchBreaks } })

/-- How a lane goes on after a discarded row (R98 to R100, R103). -/
def breakOn (n : Nat) (s : State) : State :=
  let l := s.lane n
  if s.me.lockAfter ≤ l.breaks then
    let s := s.onLane n (fun l => { l with lockout := true, state := .lockoutWait })
    let s := s.onMe (fun m => { m with counters := { m.counters with lockouts := bump m.counters.lockouts } })
    if s.writeOverlaps l.slab l.row (s.rowSet l).width (s.rowSet l).unit then s else startAttempt n s
  else if s.me.paused then s.onLane n (fun l => { l with state := .paused })
  else
    let delay := drawnDelay s.clock.lfsr l.breaks s.me.backoffBits
    if delay = 0 then startAttempt n s
    else s.onLane n (fun l => { l with state := .backoff, backoffEnd := some (s.now + Config.ms delay) })

theorem breakRow_eq (n : Nat) (s : State) : breakRow n s = breakOn n (s.rowBroken n) := by
  unfold breakRow breakOn State.rowBroken
  rfl

/-- The row discarded: what it changes. -/
theorem rowBroken_eq (n : Nat) (s : State) : (s.rowBroken n).pm = s.pm ∧ (s.rowBroken n).clock = s.clock
    ∧ (∃ lanes, (s.rowBroken n).me = { s.me with
        lanes := lanes, counters := { s.me.counters with watchBreaks := min (s.me.counters.watchBreaks + 1) 4294967295 } })
    ∧ (s.lane n).brokenOff.PagesOnly ((s.rowBroken n).lane n) := by
  let u := releasePages n (releaseRecovery n s)
  have hpool : PoolOnly s u := (PoolOnly.releaseRecovery n s).trans (PoolOnly.releasePages n _)
  have hrecovery : (releaseRecovery n s).lane n = s.lane n := by
    obtain ⟨holder, wait, a, h, -⟩ := releaseRecovery_form n s
    rw [h]
    rfl
  obtain ⟨pages, hpages⟩ := releasePages_pagesOnly n (releaseRecovery n s) n
  rw [hrecovery] at hpages
  have hlane : (s.rowBroken n).lane n = (u.lane n).brokenOff := lane_setLane_same n (u.lane n).brokenOff u
  have hme : (s.rowBroken n).me = { u.me with
      lanes := tableWrite Lane.idle u.me.lanes n (u.lane n).brokenOff
      counters := { u.me.counters with watchBreaks := min (u.me.counters.watchBreaks + 1) 4294967295 } } := rfl
  obtain ⟨sp, lanes, a, hform⟩ := id hpool
  refine ⟨hpool.pm_eq, hpool.clock_eq, ⟨tableWrite Lane.idle lanes n (u.lane n).brokenOff, ?_⟩, ⟨pages, ?_⟩⟩
  · rw [hme, show u.me = { s.me with lanes := lanes } from congrArg State.me hform]
  · rw [hlane, show u.lane n = { s.lane n with pages := pages } from hpages]
    rfl

section
variable {n : Nat} {t : State}

/-- The state in which a lockout is set. -/
def State.lockedOut (t : State) (n : Nat) : State :=
  { t.setLane n { t.lane n with lockout := true, state := .lockoutWait } with
    me := { (t.setLane n { t.lane n with lockout := true, state := .lockoutWait }).me with
      counters := { t.me.counters with lockouts := min (t.me.counters.lockouts + 1) 4294967295 } } }

theorem lockedOut_lane : (t.lockedOut n).lane n = { t.lane n with lockout := true, state := .lockoutWait } :=
  lane_setLane_same n { t.lane n with lockout := true, state := .lockoutWait } t

theorem breakOn_locks (h : t.me.lockAfter ≤ (t.lane n).breaks) :
    breakOn n t = t.lockedOut n ∨ breakOn n t = startAttempt n (t.lockedOut n) := by
  unfold breakOn
  dsimp only
  rw [if_pos h]
  split
  · exact Or.inl rfl
  · exact Or.inr rfl

theorem breakOn_pauses (h : ¬t.me.lockAfter ≤ (t.lane n).breaks) (hp : t.me.paused = true) :
    breakOn n t = t.setLane n { t.lane n with state := .paused } := by
  unfold breakOn
  dsimp only
  rw [if_neg h, if_pos hp]
  rfl

theorem breakOn_retries (h : ¬t.me.lockAfter ≤ (t.lane n).breaks) (hp : t.me.paused = false)
    (hd : drawnDelay t.clock.lfsr (t.lane n).breaks t.me.backoffBits = 0) : breakOn n t = startAttempt n t := by
  unfold breakOn
  dsimp only
  rw [if_neg h, if_neg (by rw [hp]; exact Bool.false_ne_true), if_pos hd]

theorem breakOn_backs (h : ¬t.me.lockAfter ≤ (t.lane n).breaks) (hp : t.me.paused = false)
    (hd : drawnDelay t.clock.lfsr (t.lane n).breaks t.me.backoffBits ≠ 0) :
    breakOn n t = t.setLane n { t.lane n with
      state := .backoff
      backoffEnd := some (t.clock.now + drawnDelay t.clock.lfsr (t.lane n).breaks t.me.backoffBits * 1000) } := by
  unfold breakOn
  dsimp only
  rw [if_neg h, if_neg (by rw [hp]; exact Bool.false_ne_true), if_neg hd]
  rfl

/-- What a lane that goes on leaves: the map, the row, the break count, no watch, and the counts but for the lockouts. -/
def BreakKept (n : Nat) (t u : State) : Prop :=
  u.pm = t.pm ∧ (u.lane n).row = (t.lane n).row ∧ (u.lane n).breaks = (t.lane n).breaks ∧ (u.lane n).watch = (t.lane n).watch
    ∧ u.me.counters.watchBreaks = t.me.counters.watchBreaks

theorem startAttempt_breakKept (n : Nat) (t : State) : BreakKept n t (startAttempt n t)
    ∧ ((startAttempt n t).lane n).lockout = (t.lane n).lockout ∧ (startAttempt n t).me.counters = t.me.counters := by
  obtain ⟨pages, hlane⟩ := startAttempt_lane n t
  have hpool := PoolOnly.startAttempt n t
  rw [BreakKept, hlane]
  exact ⟨⟨hpool.pm_eq, rfl, rfl, rfl, congrArg MoveCounters.watchBreaks hpool.counters_eq⟩, rfl, hpool.counters_eq⟩

theorem setLane_breakKept {l : Lane} (hr : l.row = (t.lane n).row) (hb : l.breaks = (t.lane n).breaks)
    (hw : l.watch = (t.lane n).watch) : BreakKept n t (t.setLane n l) := by
  rw [BreakKept, lane_setLane_same]
  exact ⟨rfl, hr, hb, hw, rfl⟩

theorem lockedOut_breakKept (n : Nat) (t : State) : BreakKept n t (t.lockedOut n) := by
  rw [BreakKept, lockedOut_lane]
  exact ⟨rfl, rfl, rfl, rfl, rfl⟩

theorem breakOn_lockout (h : t.me.lockAfter ≤ (t.lane n).breaks) : BreakKept n t (breakOn n t)
    ∧ ((breakOn n t).lane n).lockout = true ∧ (breakOn n t).me.counters.lockouts = min (t.me.counters.lockouts + 1) 4294967295 := by
  rcases breakOn_locks h with hu | hu
  · rw [hu, lockedOut_lane]
    exact ⟨lockedOut_breakKept n t, rfl, rfl⟩
  · obtain ⟨⟨hpm, hrow, hbreaks, hwatch, hcount⟩, hlock, hcounters⟩ := startAttempt_breakKept n (t.lockedOut n)
    obtain ⟨hpm', hrow', hbreaks', hwatch', hcount'⟩ := lockedOut_breakKept n t
    rw [hu]
    exact ⟨⟨hpm.trans hpm', hrow.trans hrow', hbreaks.trans hbreaks', hwatch.trans hwatch', hcount.trans hcount'⟩,
      hlock.trans (congrArg Lane.lockout lockedOut_lane), congrArg MoveCounters.lockouts hcounters⟩

theorem breakOn_kept (n : Nat) (t : State) : BreakKept n t (breakOn n t) := by
  by_cases hlock : t.me.lockAfter ≤ (t.lane n).breaks
  · exact (breakOn_lockout hlock).1
  · cases hp : t.me.paused with
    | true =>
      rw [breakOn_pauses hlock hp]
      exact setLane_breakKept rfl rfl rfl
    | false =>
      by_cases hd : drawnDelay t.clock.lfsr (t.lane n).breaks t.me.backoffBits = 0
      · rw [breakOn_retries hlock hp hd]
        exact (startAttempt_breakKept n t).1
      · rw [breakOn_backs hlock hp hd]
        exact setLane_breakKept rfl rfl rfl

end

/-- A row that breaks: the slab, the lane and the counts. -/
theorem breakRow_over (n : Nat) (s : State) :
    let l := s.lane n
    let t := breakRow n s
    let delay := s.clock.lfsr.toNat % 2 ^ (min (l.breaks + 1) s.me.backoffBits)
    t.pm = s.pm ∧ (t.lane n).row = l.row ∧ (t.lane n).breaks = l.breaks + 1 ∧ (t.lane n).watch = none
      ∧ t.me.counters.watchBreaks = min (s.me.counters.watchBreaks + 1) 4294967295
      ∧ (s.me.lockAfter ≤ l.breaks + 1 → (t.lane n).lockout = true
          ∧ t.me.counters.lockouts = min (s.me.counters.lockouts + 1) 4294967295)
      ∧ (l.breaks + 1 < s.me.lockAfter → s.me.paused = true → (t.lane n).state = .paused)
      ∧ (l.breaks + 1 < s.me.lockAfter → s.me.paused = false → delay ≠ 0 →
          (t.lane n).state = .backoff ∧ (t.lane n).backoffEnd = some (s.clock.now + delay * 1000)) := by
  intro l t delay
  obtain ⟨hpm, hclock, ⟨lanes, hme⟩, ⟨pages, hlane⟩⟩ := rowBroken_eq n s
  obtain ⟨kpm, krow, kbreaks, kwatch, kcount⟩ := breakOn_kept n (s.rowBroken n)
  have hbreaks : ((s.rowBroken n).lane n).breaks = l.breaks + 1 := (congrArg Lane.breaks hlane :)
  have hafter : (s.rowBroken n).me.lockAfter = s.me.lockAfter := (congrArg MoveEngine.lockAfter hme :)
  have hpaused : (s.rowBroken n).me.paused = s.me.paused := (congrArg MoveEngine.paused hme :)
  have hbits : (s.rowBroken n).me.backoffBits = s.me.backoffBits := (congrArg MoveEngine.backoffBits hme :)
  have ht : t = breakOn n (s.rowBroken n) := breakRow_eq n s
  rw [ht]
  refine ⟨kpm.trans hpm, krow.trans (congrArg Lane.row hlane :), kbreaks.trans hbreaks, kwatch.trans (congrArg Lane.watch hlane :),
    kcount.trans (congrArg (fun m : MoveEngine => m.counters.watchBreaks) hme :), fun h => ?_, fun h hp => ?_, fun h hp hd => ?_⟩
  · obtain ⟨-, hlock, hcount⟩ := breakOn_lockout (n := n) (t := s.rowBroken n) (by rw [hafter, hbreaks]; exact h)
    exact ⟨hlock, hcount.trans (congrArg (fun m : MoveEngine => min (m.counters.lockouts + 1) 4294967295) hme :)⟩
  · rw [breakOn_pauses (by rw [hafter, hbreaks]; exact Nat.not_le.2 h) (hpaused.trans hp), lane_setLane_same]
  · have hdelay : drawnDelay (s.rowBroken n).clock.lfsr ((s.rowBroken n).lane n).breaks (s.rowBroken n).me.backoffBits = delay := by
      rw [hclock, hbreaks, hbits]
      rfl
    rw [breakOn_backs (by rw [hafter, hbreaks]; exact Nat.not_le.2 h) (hpaused.trans hp) (by rw [hdelay]; exact hd), lane_setLane_same,
      hdelay, hclock]
    exact ⟨rfl, rfl⟩

end Sys2Proof.Machine
end

section
/-! PROOFS. A row's watch, its pages, its reads and its writes (R96, R109, R112, R118). -/

namespace Sys2Proof.Machine

/-! ## A grant meets a watch (R51, R96) -/

theorem meetGrant_watch {s : State} {g first count n : Nat} {w : Watch} (hl : s.laneOf g = some n) (hw : (s.lane n).watch = some w)
    (hi : w.intact = true) (ho : overlapsRow (s.rowSet (s.lane n)).width (s.rowSet (s.lane n)).unit w.row
      (first - s.volumeSlab g * s.slabBlocks) (first - s.volumeSlab g * s.slabBlocks + count - 1) = true) :
    ((meetGrant g first count s).lane n).watch = some { w with intact := false } := by
  obtain ⟨free, hbreak⟩ := breakWatch_eq n s
  rw [meetGrant_breaks hl hw hi ho, hbreak]
  refine (congrArg Lane.watch (tableRead_tableWrite_same Lane.idle s.me.lanes n _)).trans ?_
  rw [Lane.watchBroken, hw]
  rfl

/-! ## The commit check -/

theorem commitCheck_intact {s : State} {n : Nat} {j : Job} {w : Watch} (hj : (s.lane n).job = some j) (hw : (s.lane n).watch = some w)
    (h : w.intact = true) : commitCheck n s = commitRow n j s := by
  unfold commitCheck
  dsimp only
  rw [hj, hw]
  exact if_pos h

theorem commitCheck_broken {s : State} {n : Nat} {j : Job} {w : Watch} (hj : (s.lane n).job = some j) (hw : (s.lane n).watch = some w)
    (h : w.intact = false) : commitCheck n s = breakRow n s := by
  unfold commitCheck
  dsimp only
  rw [hj, hw]
  exact if_neg (by rw [h]; exact Bool.false_ne_true)

theorem commitCheck_fill {s : State} {n : Nat} {j : Job} (hj : (s.lane n).job = some j) (hw : (s.lane n).watch = none)
    (hk : j.kind = .fill) (h : (s.lane n).writes = true) : commitCheck n s = commitRow n j s := by
  unfold commitCheck
  dsimp only
  rw [hj, hw]
  exact if_pos ⟨hk, h⟩

/-! ## The page wait list served (R109, R110) -/

theorem servePages_short {s : State} {m count : Nat} {rest : List (Nat × Nat)} (hw : s.sp.waiting = (m, count) :: rest)
    (h : s.sp.free.length < count) (k : Nat) : servePages k s = s := by
  cases k with
  | zero => rfl
  | succ k =>
    rw [servePages, hw]
    exact if_neg (Nat.not_le.2 h)

theorem servePages_first {s : State} {m count : Nat} {rest : List (Nat × Nat)} (hw : s.sp.waiting = (m, count) :: rest)
    (h : count ≤ s.sp.free.length) (hs : (s.lane m).state = .waitPages)
    (hn : ∀ k more rest', rest = (k, more) :: rest' → s.sp.free.length - count < more) (k : Nat) :
    servePages (k + 1) s = { s.setLane m { s.lane m with pages := (s.lane m).pages ++ s.sp.free.take count } with
      sp := { s.sp with free := s.sp.free.drop count, waiting := rest }, agenda := s.agenda ++ [.pagesGranted m] } := by
  have hserve : servePages (k + 1) s
      = servePages k (reservePages m count (s.onSp (fun p => { p with waiting := rest }))) := by
    rw [servePages, hw]
    exact if_pos h
  rw [hserve, reservePages_eq (s := s.onSp (fun p => { p with waiting := rest })) hs]
  cases rest with
  | nil => exact servePages_none rfl k
  | cons e rest' =>
    obtain ⟨m', more⟩ := e
    refine servePages_short rfl ?_ k
    show (s.sp.free.drop count).length < more
    rw [List.length_drop]
    exact hn m' more rest' rfl

/-! ## Commands handed over -/

theorem handOverAll_setLane (n : Nat) (l : Lane) (cmds : List Cmd) (s : State) :
    handOverAll n cmds (s.setLane n l) = forEach handOver cmds (s.setLane n { l with commands := l.commands + cmds.length }) := by
  rw [handOverAll, onLane_setLane]

/-! ## A row begins (R79, R95, R112, R117) -/

section
variable {s : State} {n : Nat} (hs : (s.lane n).state = .waitToken) (ho : n ∉ s.me.tokenOrder)
include hs ho

theorem rowStart_eq : rowStart n s = if (s.lane n).moves = true then
      if ((setWatch n s).lane n).broken = true then (setWatch n s).post (.commitCheck n) else issueReads n (setWatch n s)
    else issueWrites n (stageFill n s) :=
  if_pos ⟨hs, by simpa using ho⟩

/-- A lane's record with its watch set. -/
def State.watched (s : State) (n : Nat) (intact : Bool) : Lane := { s.lane n with watch := some ⟨(s.lane n).row, intact⟩ }

omit hs ho in
theorem setWatch_eq : setWatch n s = s.setLane n (s.watched n ((s.lane n).lockout
    || !s.writeOverlaps (s.lane n).slab (s.lane n).row (s.rowSet (s.lane n)).width (s.rowSet (s.lane n)).unit)) := rfl

theorem rowStart_broken (hm : (s.lane n).moves = true) (hi : ¬((s.lane n).lockout = true
    ∨ s.writeOverlaps (s.lane n).slab (s.lane n).row (s.rowSet (s.lane n)).width (s.rowSet (s.lane n)).unit = false)) :
    rowStart n s = (s.setLane n (s.watched n false)).post (.commitCheck n) := by
  have hintact : ((s.lane n).lockout || !s.writeOverlaps (s.lane n).slab (s.lane n).row (s.rowSet (s.lane n)).width
      (s.rowSet (s.lane n)).unit) = false := by
    obtain ⟨hlock, hover⟩ := not_or.1 hi
    rw [Bool.or_eq_false_iff, Bool.not_eq_false']
    exact ⟨Bool.eq_false_iff.2 hlock, eq_true_of_ne_false hover⟩
  rw [rowStart_eq hs ho, if_pos hm, setWatch_eq, hintact, lane_setLane_same]
  exact if_pos rfl

theorem rowStart_reads (hm : (s.lane n).moves = true) (hi : (s.lane n).lockout = true
    ∨ s.writeOverlaps (s.lane n).slab (s.lane n).row (s.rowSet (s.lane n)).width (s.rowSet (s.lane n)).unit = false) :
    rowStart n s = forEach handOver ((s.laneRuns (s.lane n)).map (s.runCmd n (s.lane n)))
      (s.setLane n { s.watched n true with
        state := .reading, commands := (s.lane n).commands + (s.laneRuns (s.lane n)).length }) := by
  have hintact : ((s.lane n).lockout || !s.writeOverlaps (s.lane n).slab (s.lane n).row (s.rowSet (s.lane n)).width
      (s.rowSet (s.lane n)).unit) = true := by
    rw [Bool.or_eq_true, Bool.not_eq_true']
    exact hi
  rw [rowStart_eq hs ho, if_pos hm, setWatch_eq, hintact, lane_setLane_same]
  refine (if_neg Bool.false_ne_true).trans ?_
  unfold issueReads
  dsimp only
  rw [lane_setLane_same, onLane_setLane, handOverAll_setLane, List.length_map]
  rfl

theorem rowStart_fills (hm : (s.lane n).moves = false) : rowStart n s = issueWrites n (stageFill n s) := by
  rw [rowStart_eq hs ho, if_neg (by rw [hm]; exact Bool.false_ne_true)]

end

/-! ## The source runs of a row (R112) -/

/-- The runs of a range: they cover it, in order, and none crosses the boundary of a unit. -/
theorem sourceRuns_cover {unit : Nat} (hu : 1 ≤ unit) (k first stop : Nat) (hk : stop - first ≤ k) :
    (∀ o, (first ≤ o ∧ o < stop) ↔ ∃ r ∈ sourceRuns unit k first stop, r.1 ≤ o ∧ o < r.1 + r.2)
      ∧ (sourceRuns unit k first stop).Pairwise (fun a b => a.1 + a.2 ≤ b.1)
      ∧ ∀ r ∈ sourceRuns unit k first stop, first ≤ r.1 ∧ r.1 + r.2 ≤ (r.1 / unit + 1) * unit := by
  induction k generalizing first with
  | zero =>
    refine ⟨fun o => ⟨fun h => absurd h (by omega), fun ⟨_, h, _⟩ => absurd h List.not_mem_nil⟩, List.Pairwise.nil,
      fun _ h => absurd h List.not_mem_nil⟩
  | succ k ih =>
    rw [sourceRuns]
    by_cases hlt : first < stop
    · rw [if_pos hlt]
      let next := min stop ((first / unit + 1) * unit)
      have hbound : first < (first / unit + 1) * unit := by
        have hmod := Nat.div_add_mod first unit
        have hlow := Nat.mod_lt first hu
        rw [Nat.add_mul, Nat.one_mul, Nat.mul_comm]
        omega
      have hfirst : first < next := Nat.lt_min.2 ⟨hlt, hbound⟩
      have hstop : next ≤ stop := Nat.min_le_left _ _
      have hunit : next ≤ (first / unit + 1) * unit := Nat.min_le_right _ _
      obtain ⟨hcover, hpair, hruns⟩ := ih next (by omega)
      refine ⟨fun o => ⟨fun h => ?_, ?_⟩, List.pairwise_cons.2 ⟨fun r hr => ?_, hpair⟩, fun r hr => ?_⟩
      · by_cases ho : o < next
        · exact ⟨(first, next - first), List.mem_cons_self, h.1, by show o < first + (next - first); omega⟩
        · obtain ⟨r, hr, h⟩ := (hcover o).1 ⟨Nat.not_lt.1 ho, h.2⟩
          exact ⟨r, List.mem_cons_of_mem _ hr, h⟩
      · rintro ⟨r, hr, hlow, hhigh⟩
        rcases List.mem_cons.1 hr with rfl | hr
        · have hhigh' : o < first + (next - first) := hhigh
          exact ⟨hlow, by omega⟩
        · have := (hcover o).2 ⟨r, hr, hlow, hhigh⟩
          omega
      · have := (hruns r hr).1
        show first + (next - first) ≤ r.1
        omega
      · rcases List.mem_cons.1 hr with rfl | hr
        · refine ⟨Nat.le_refl _, ?_⟩
          show first + (next - first) ≤ (first / unit + 1) * unit
          omega
        · have := hruns r hr
          omega
    · rw [if_neg hlt]
      refine ⟨fun o => ⟨fun h => absurd h (by omega), fun ⟨_, h, _⟩ => absurd h List.not_mem_nil⟩, List.Pairwise.nil,
        fun _ h => absurd h List.not_mem_nil⟩

/-- The blocks of a run within one unit stand one after another. -/
theorem memberBlock_add {h : SetEntry} (hw : 2 ≤ h.width) (slot first : Nat) {i : Nat}
    (hi : first + i < (first / h.unit + 1) * h.unit) :
    memberBlock h slot (first + i) = ((memberBlock h slot first).1, (memberBlock h slot first).2 + i) := by
  obtain ⟨d, hd⟩ : ∃ d, h.width = d + 2 := ⟨h.width - 2, by omega⟩
  -- the unit of the offset decides its row and its place in the row
  have hunit : (first + i) / h.unit = first / h.unit :=
    Nat.le_antisymm (Nat.lt_succ_iff.1 (Nat.div_lt_of_lt_mul (by rw [Nat.mul_comm]; exact hi)))
      (Nat.div_le_div_right (Nat.le_add_right first i))
  have hspan : rowSpan h.width h.unit = h.unit * (d + 1) := by
    rw [rowSpan, hd, Nat.mul_comm]
    rfl
  have hrow (o : Nat) : o / rowSpan h.width h.unit = o / h.unit / (d + 1) := by rw [hspan, Nat.div_div_eq_div_mul]
  have hwithin (o : Nat) : o - o / rowSpan h.width h.unit * rowSpan h.width h.unit = o % (h.unit * (d + 1)) := by
    rw [hspan, Nat.mod_eq_sub_div_mul]
  have hmod (o : Nat) : o % (h.unit * (d + 1)) % h.unit = o % h.unit := Nat.mod_mul_right_mod o h.unit (d + 1)
  have hplace (o : Nat) : o % (h.unit * (d + 1)) / h.unit = o / h.unit % (d + 1) := Nat.mod_mul_right_div_self o h.unit (d + 1)
  have hrest : (first + i) % h.unit = first % h.unit + i := by
    have h1 := Nat.div_add_mod (first + i) h.unit
    have h2 := Nat.div_add_mod first h.unit
    rw [hunit] at h1
    omega
  unfold memberBlock
  dsimp only
  rw [hwithin, hwithin, hmod, hmod, hplace, hplace, hrow, hrow, hunit, hrest, Nat.add_assoc]

end Sys2Proof.Machine
end

section
/-! PROOFS. Lost units settled, and the row's commands (R111 to R118). -/

namespace Sys2Proof.Machine

/-! ## Lost units (R113 to R115) -/

theorem layBlock_lane (position : Nat) (b : Block) (s : State) (m : Nat) : (s.layBlock position b).lane m = s.lane m := rfl

theorem onMe_lane {f : MoveEngine → MoveEngine} {s : State} (hf : (f s.me).lanes = s.me.lanes) (m : Nat) :
    (s.onMe f).lane m = s.lane m := congrArg (tableRead Lane.idle · m) hf

theorem poisonOffset_eq (n o : Nat) (s : State) : poisonOffset n o s = s.layBlock (s.rowPosition n o)
    (poisonBlock (s.tagPlace (s.lane n) (s.rowSet (s.lane n)).rows o)) := by
  rw [poisonOffset, State.rowPosition]

theorem poisonOffset_lane (n o : Nat) (s : State) (m : Nat) : (poisonOffset n o s).lane m = s.lane m :=
  (congrArg (fun t : State => t.lane m) (poisonOffset_eq n o s)).trans (layBlock_lane _ _ s m)

theorem forEach_poisonOffset_lane (n : Nat) (l : List Nat) (s : State) (m : Nat) :
    (forEach (poisonOffset n) l s).lane m = s.lane m := by
  induction l generalizing s with
  | nil => rfl
  | cons o rest ih => rw [forEach, ih, poisonOffset_lane]

theorem poisonUnit_lost (n unit : Nat) (s : State) : ((poisonUnit n unit s).lane n).work.lost = (s.lane n).work.lost := by
  unfold poisonUnit
  dsimp only
  split
  · rfl
  · next first rest hoffsets =>
    rw [noteDamage]
    dsimp only
    rw [lane_onLane_same, lane_onLane_same, onMe_lane rfl, forEach_poisonOffset_lane]

theorem forEach_poisonUnit_lost (n : Nat) (units : List Nat) (s : State) :
    ((forEach (poisonUnit n) units s).lane n).work.lost = (s.lane n).work.lost := by
  induction units generalizing s with
  | nil => rfl
  | cons unit rest ih => rw [forEach, ih, poisonUnit_lost]

theorem rebuildBlock_lane (n unit i : Nat) (s : State) (m : Nat) : (rebuildBlock n unit i s).lane m = s.lane m := by
  unfold rebuildBlock
  dsimp only
  split
  · split
    · rw [onMe_lane rfl, poisonOffset_lane, layBlock_lane]
    · rw [layBlock_lane, layBlock_lane]
  · rw [layBlock_lane]

theorem rebuildUnit_lane (n unit : Nat) (s : State) (m : Nat) : (rebuildUnit n unit s).lane m = s.lane m := by
  have hblocks : ∀ (l : List Nat) (t : State), (forEach (rebuildBlock n unit) l t).lane m = t.lane m := by
    intro l
    induction l with
    | nil => exact fun _ => rfl
    | cons i rest ih => exact fun t => by rw [forEach, ih, rebuildBlock_lane]
  exact (onMe_lane rfl m).trans (hblocks _ s)

theorem releaseRecovery_lane (n : Nat) (s : State) (m : Nat) : (releaseRecovery n s).lane m = s.lane m := by
  obtain ⟨holder, wait, a, h, -⟩ := releaseRecovery_form n s
  rw [h]
  rfl

/-- A lane's record once some of its lost units are settled. -/
def Lane.settled (l : Lane) (lost units : List Nat) : Lane :=
  { l with work := { l.work with
    lost := lost.filter (fun v => !units.contains v), rebuilding := none, badUnits := [], parityBad := false } }

theorem unitsSettled_eq {n : Nat} {t : State} {lost : List Nat} (h : (t.lane n).work.lost = lost) (units : List Nat) :
    unitsSettled n units t = (t.setLane n ((t.lane n).settled lost units)).post (.settleLost n) := by
  rw [← h]
  rfl

section
variable {s : State} {n : Nat} (hs : (s.lane n).state = .reading ∨ (s.lane n).state = .recovering) (hb : (s.lane n).broken = false)
include hs hb

theorem settleLost_none (h : (s.lane n).work.lost = []) : settleLost n s = issueWrites n (stageParity n (stagePad n s)) := by
  refine (if_pos ⟨hs, hb⟩).trans ?_
  rw [h]

variable {unit : Nat} {rest : List Nat} (h : (s.lane n).work.lost = unit :: rest)
include h

/-- The home set of a lane's slab. -/
def State.homeSet (s : State) (n : Nat) : SetEntry := s.set (s.homePlace (s.lane n)).set

/-- The lost units of the source row of a unit. -/
def State.lostWith (s : State) (n unit : Nat) : List Nat :=
  (s.lane n).work.lost.filter (fun v => v / ((s.homeSet n).width - 1) = unit / ((s.homeSet n).width - 1))

/-- The member of the parity unit of a unit's source row. -/
def State.parityMember (s : State) (n unit : Nat) : Nat :=
  ((s.homeSet n).positions.getD (parityPosition (s.homeSet n).width (unit / ((s.homeSet n).width - 1))) ⟨0, 0⟩).member

theorem settleLost_eq : settleLost n s =
    if 2 ≤ (s.lostWith n unit).length then unitsSettled n (s.lostWith n unit) (forEach (poisonUnit n) (s.lostWith n unit) s)
    else if (s.member (s.parityMember n unit)).state = .failed then unitsSettled n [unit] (poisonUnit n unit s)
    else askRecovery n s := by
  have hlost : s.lostWith n unit = (unit :: rest).filter
      (fun v => v / ((s.homeSet n).width - 1) = unit / ((s.homeSet n).width - 1)) := by rw [State.lostWith, h]
  refine (if_pos ⟨hs, hb⟩).trans ?_
  rw [hlost, h]
  rfl

theorem settleLost_row (h2 : 2 ≤ (s.lostWith n unit).length) :
    settleLost n s = unitsSettled n (s.lostWith n unit) (forEach (poisonUnit n) (s.lostWith n unit) s) :=
  (settleLost_eq hs hb h).trans (if_pos h2)

theorem settleLost_unit (h1 : (s.lostWith n unit).length ≤ 1) (hf : (s.member (s.parityMember n unit)).state = .failed) :
    settleLost n s = unitsSettled n [unit] (poisonUnit n unit s) :=
  (settleLost_eq hs hb h).trans ((if_neg (by omega)).trans (if_pos hf))

theorem settleLost_asks (h1 : (s.lostWith n unit).length ≤ 1) (hf : (s.member (s.parityMember n unit)).state ≠ .failed) :
    settleLost n s = askRecovery n s :=
  (settleLost_eq hs hb h).trans ((if_neg (by omega)).trans (if_neg hf))

end

theorem askRecovery_granted {s : State} (n : Nat) (h : s.sp.holder = none ∧ s.sp.recoveryWait = []) :
    askRecovery n s = { s.setLane n { s.lane n with state := .recovering } with
      sp := { s.sp with holder := some n }, agenda := s.agenda ++ [.recoveryGranted n] } := if_pos h

theorem askRecovery_waits {s : State} (n : Nat) (h : s.sp.holder ≠ none ∨ s.sp.recoveryWait ≠ []) :
    askRecovery n s = { s.setLane n { s.lane n with state := .recovering } with
      sp := { s.sp with recoveryWait := s.sp.recoveryWait ++ [n] } } :=
  if_neg fun ⟨hh, hw⟩ => h.elim (fun h => h hh) fun h => h hw

/-! ## The reads of a reconstruction (R111, R114) -/

theorem recoveryGranted_reads {s : State} {n unit : Nat} {rest : List Nat} (hh : s.sp.holder = some n)
    (hs : (s.lane n).state = .recovering) (h : (s.lane n).work.lost = unit :: rest) (hr : (s.lane n).work.rebuilding = none) :
    recoveryGranted n s = forEach handOver ((List.range (s.survivors (s.lane n) unit).length).map (fun k =>
        laneCmd n (s.lane n) (.rebuild ((s.survivors (s.lane n) unit).getD k none)) .read
          (s.survivorPlace (s.lane n) unit ((s.survivors (s.lane n) unit).getD k none))
          ((List.range (s.homeSet n).unit).map (recoveryPosition (s.homeSet n).unit k))))
      (s.setLane n { s.lane n with
        work := { (s.lane n).work with rebuilding := some unit, badUnits := [], parityBad := false }
        commands := (s.lane n).commands + (s.survivors (s.lane n) unit).length }) := by
  have hstart : recoveryGranted n s = startRebuild n s := if_pos ⟨hh, hs, hr⟩
  rw [hstart]
  unfold startRebuild
  dsimp only
  rw [h]
  refine (handOverAll_setLane n _ _ s).trans ?_
  rw [List.length_map, List.length_range, ← h]
  rfl

theorem finishRebuild_done {s : State} {n unit : Nat} (h : (s.lane n).work.rebuilding = some unit)
    (hp : (s.lane n).work.parityBad = false) (hb : (s.lane n).work.badUnits = []) :
    finishRebuild n s = unitsSettled n [unit] (releaseRecovery n (rebuildUnit n unit s)) := by
  unfold finishRebuild
  dsimp only
  rw [h]
  exact if_pos ⟨hp, hb⟩

theorem finishRebuild_poisons {s : State} {n unit : Nat} (h : (s.lane n).work.rebuilding = some unit)
    (hb : (s.lane n).work.parityBad = true ∨ (s.lane n).work.badUnits ≠ []) :
    finishRebuild n s = unitsSettled n (unit :: (s.lane n).work.badUnits)
      (releaseRecovery n (forEach (poisonUnit n) (unit :: (s.lane n).work.badUnits) s)) := by
  unfold finishRebuild
  dsimp only
  rw [h]
  refine if_neg ?_
  rintro ⟨hp, hbad⟩
  rcases hb with hb | hb
  · rw [hp] at hb
    cases hb
  · exact hb hbad

/-! ## The row's writes (R117, R118) -/

/-- A lane's record at its writes. -/
def Lane.writing (l : Lane) (positions : List Nat) : Lane :=
  { l with state := .writing, work := { l.work with unsettled := positions, failedOnce := [], again := false } }

theorem issueWrites_none {s : State} {n : Nat} (h : s.writtenPositions (s.lane n) = []) :
    issueWrites n s = (s.setLane n ((s.lane n).writing [])).post (.commitCheck n) := by
  unfold issueWrites
  dsimp only
  rw [h]
  rfl

theorem issueWrites_some {s : State} {n : Nat} (h : s.writtenPositions (s.lane n) ≠ []) :
    issueWrites n s = forEach handOver ((s.writtenPositions (s.lane n)).map (fun p => s.unitCmd n (s.lane n) (.write p) .write p))
      (s.setLane n { (s.lane n).writing (s.writtenPositions (s.lane n)) with
        commands := (s.lane n).commands + (s.writtenPositions (s.lane n)).length }) := by
  unfold issueWrites
  dsimp only
  rw [if_neg (by rw [List.isEmpty_iff]; exact h)]
  refine (handOverAll_setLane n _ _ s).trans ?_
  rw [List.length_map]
  rfl

theorem unitAt_getD (width row p : Nat) : (unitAt width row p).getD (width - 1)
    = if p = width - 1 - row % width then width - 1 else if p < width - 1 - row % width then p else p - 1 := by
  unfold unitAt parityPosition
  dsimp only
  split
  · rfl
  · split <;> rfl

end Sys2Proof.Machine
end

section
/-! PROOFS. Rows, put together (R80, R95 to R103, R109 to R118, R121, R122). -/

namespace Sys2Proof.Machine

/-! ## The parts of a row -/

/-- The row committed, as the commit check of a MOVE row and of a FILL row finds it. -/
theorem commitCheck_commits {s : State} {n : Nat} {j : Job} (hj : (s.lane n).job = some j)
    (h : (j.kind = .move ∧ ∃ row, (s.lane n).watch = some ⟨row, true⟩)
      ∨ (j.kind = .fill ∧ (s.lane n).watch = none ∧ (s.lane n).writes = true)) : commitCheck n s = commitRow n j s := by
  rcases h with ⟨-, row, hw⟩ | ⟨hk, hw, hwrites⟩
  · exact commitCheck_intact hj hw rfl
  · exact commitCheck_fill hj hw hk hwrites

theorem rowFronted_due {s : State} {n : Nat} {j : Job} (h : (s.rowDamaged n j).frontDue j.slab = true) :
    s.rowFronted n j = queueRecord (.lane n) (.front j.slab ((s.lane n).row + 1)) (s.rowDamaged n j) := if_pos h

theorem rowFronted_early {s : State} {n : Nat} {j : Job} (h : ¬(s.rowDamaged n j).frontDue j.slab = true) :
    s.rowFronted n j = s.rowDamaged n j := if_neg h

/-- The slab and the lane of a row committed. -/
theorem commitRow_slab {s : State} {n : Nat} {j : Job} (hj : (s.lane n).job = some j) :
    (commitRow n j s).slab j.slab = { s.slab j.slab with front := (s.lane n).row + 1 }
      ∧ ∀ g, g ≠ j.slab → (commitRow n j s).slab g = s.slab g := by
  obtain ⟨hpm, -⟩ := commitRow_over hj
  have hslab (g : Nat) : (commitRow n j s).slab g = (s.setSlab j.slab { s.slab j.slab with front := (s.lane n).row + 1 }).slab g :=
    congrArg (fun m : PlacementMap => tableRead Slab.unused m.slabs g) hpm
  exact ⟨(hslab j.slab).trans (tableRead_tableWrite_same Slab.unused s.pm.slabs j.slab _),
    fun g hg => (hslab g).trans (tableRead_tableWrite_other Slab.unused s.pm.slabs _ hg)⟩

/-- Pages released: the free list, and the head of the wait list where it can be served. -/
theorem releasePages_serves {s : State} {n m count : Nat} {rest : List (Nat × Nat)} (hw : s.sp.waiting = (m, count) :: rest)
    (hne : m ≠ n) (hf : count ≤ ((s.lane n).pages.foldr insertRising s.sp.free).length) (hs : (s.lane m).state = .waitPages)
    (hn : ∀ k more rest', rest = (k, more) :: rest' → ((s.lane n).pages.foldr insertRising s.sp.free).length - count < more) :
    releasePages n s =
      { (givePages n s).setLane m { s.lane m with
          pages := (s.lane m).pages ++ ((s.lane n).pages.foldr insertRising s.sp.free).take count } with
        sp := { s.sp with free := ((s.lane n).pages.foldr insertRising s.sp.free).drop count, waiting := rest }
        agenda := s.agenda ++ [.pagesGranted m] } := by
  have hlane : (givePages n s).lane m = s.lane m := givePages_lane_other s hne
  rw [releasePages_eq, servePages_first (s := givePages n s) hw hf (by rw [hlane]; exact hs) hn 3, hlane]
  rfl

/-- A run's command: where it reads, and where its blocks go. -/
theorem runCmd_blocks {s : State} {n : Nat} {l : Lane} (hw : 2 ≤ (s.set (s.homePlace l).set).width)
    {r : Nat × Nat} (hfirst : s.rowBase l ≤ r.1)
    (hunit : r.1 + r.2 ≤ (r.1 / (s.set (s.homePlace l).set).unit + 1) * (s.set (s.homePlace l).set).unit) {i : Nat} (hi : i < r.2) :
    ((s.runCmd n l r).member, (s.runCmd n l r).dbn + i) = memberBlock (s.set (s.homePlace l).set) (s.homePlace l).slot (r.1 + i)
      ∧ ((List.range r.2).map (fun i => l.position (r.1 - s.rowBase l + i))).getD i 0
        = l.pages.getD ((r.1 + i - s.rowBase l) / 16) 0 * 16 + (r.1 + i - s.rowBase l) % 16 := by
  refine ⟨(memberBlock_add hw (s.homePlace l).slot r.1 (by omega)).symm, ?_⟩
  rw [getD_of_lt _ (by rw [List.length_map, List.length_range]; exact hi), List.getElem_map, List.getElem_range,
    Lane.position, ← Nat.sub_add_comm hfirst]

/-- Settles O46: the commit check by `commitRow_over` and `breakRow_over`, the rest stage by stage. -/
theorem rowsCommitOrBreak : Obligations.RowsCommitOrBreak := by
  refine ⟨fun s n j w hj hw hk => ?_, fun s n j hj hw hk hwrites => ?_, fun s n j hj h => ?_, fun s n => ?_, fun u n d => ?_,
    fun s n hs ho => ?_, fun s n => ?_, fun s n => ?_, fun s n hs hb => ?_, fun s n unit rest hh hs hlost hr => ?_,
    fun s n unit hr => ?_, fun s n => ⟨fun h => if_neg h, fun h hw => ?_, fun m rest h hw => ?_⟩⟩
  · intro l geometry
    refine ⟨fun hl first count => ⟨fun ⟨hi, ho⟩ => meetGrant_watch hl hw hi ho, fun hno => ?_⟩, fun hi => ?_, fun hi => ?_⟩
    · refine meetGrant_passes fun m v hm hv hvi hvo => hno ?_
      obtain rfl : n = m := Option.some.inj (hl.symm.trans hm)
      obtain rfl : w = v := Option.some.inj (hw.symm.trans hv)
      exact ⟨hvi, hvo⟩
    · obtain ⟨-, hcounted, state, pages, backoff, hlane, hlast, hnext⟩ := commitRow_over hj
      obtain ⟨hslab, hothers⟩ := commitRow_slab hj
      rw [if_pos hk] at hcounted
      rw [commitCheck_intact hj hw hi]
      dsimp only
      rw [hlane, hslab]
      exact ⟨rfl, rfl, rfl, rfl, rfl, hcounted, rfl, fun h => Nat.le_succ_of_le h, hothers, hlast, hnext⟩
    · obtain ⟨hpm, hrow, hbreaks, hwatch, hcount, hlock, hpause, hback⟩ := breakRow_over n s
      rw [commitCheck_broken hj hw hi]
      exact ⟨congrArg (fun m : PlacementMap => tableRead Slab.unused m.slabs j.slab) hpm, hrow, hbreaks, hwatch, hcount, hlock, hpause,
        hback⟩
  · obtain ⟨-, hcounted, state, pages, backoff, hlane, hlast, hnext⟩ := commitRow_over hj
    rw [if_neg (by rw [hk]; nofun)] at hcounted
    rw [commitCheck_fill hj hw hk hwrites]
    dsimp only
    rw [hlane, (commitRow_slab hj).1]
    exact ⟨rfl, rfl, rfl, hcounted, hlast, hnext⟩
  · intro l free row counted damaged due
    have hdamaged : s.rowDamaged n j = damaged := (forEach_eq_foldl (commitDamage n) l.work.damage counted).trans rfl
    have hdue : due ↔ (s.rowDamaged n j).frontDue j.slab = true := by
      rw [hdamaged]
      exact (frontDue_iff damaged j.slab).symm
    rw [commitCheck_commits hj h, commitRow_eq]
    refine ⟨s.rowFronted n j, fun hd => ?_, fun hd => ?_, nextRow_last, nextRow_next⟩
    · rw [rowFronted_due (hdue.1 hd), hdamaged]
    · rw [rowFronted_early (mt hdue.2 hd), hdamaged]
  · intro free bare
    refine ⟨fun hw => (releasePages_eq n s).trans (servePages_none (s := givePages n s) hw 4), fun m count rest hw =>
      ⟨fun hf => (releasePages_eq n s).trans (servePages_short (s := givePages n s) hw hf 4),
        fun hf hne hm hn => releasePages_serves hw hne hf hm hn⟩⟩
  · exact ⟨addDamage_eq d u, fun hopen body => queueRecord_open hopen, fun q g reply => ⟨rfl, fun _ => rfl, rfl,
      fun hf => askPages_none (Or.inl (by rw [hf]; nofun))⟩⟩
  · exact ⟨fun hm hi => rowStart_broken hs ho hm hi, fun hm hi => rowStart_reads hs ho hm hi, fun hm => rowStart_fills hs ho hm⟩
  · intro l e h base stop hw hu
    obtain ⟨hcover, hpair, hruns⟩ := sourceRuns_cover hu (stop - base) base stop (Nat.le_refl _)
    refine ⟨hcover, hpair, fun r hr => ⟨rfl, rfl, ?_, rfl, rfl, fun i hi => ?_⟩⟩
    · exact (List.length_map _).trans List.length_range
    · obtain ⟨hfirst, hunit⟩ := hruns r hr
      obtain ⟨hblock, hpos⟩ := runCmd_blocks (n := n) hw hfirst hunit hi
      exact ⟨hblock, _, rfl, hpos⟩
  · intro l e positions cmd writing
    have hcmd : (fun p => s.unitCmd n l (.write p) .write p) = cmd := by
      funext p
      unfold State.unitCmd laneCmd
      dsimp only
      rw [unitAt_getD, List.length_map, List.length_range]
      rfl
    refine ⟨fun hp => (issueWrites_some hp).trans ?_, fun hp => (issueWrites_none hp).trans ?_⟩
    · rw [hcmd]
      rfl
    · show (s.setLane n (l.writing [])).post (.commitCheck n) = _
      have hzero : writing = l.writing [] := by
        show ({ l with state := .writing, work := { l.work with unsettled := positions, failedOnce := [], again := false }
                       commands := l.commands + positions.length } : Lane) = _
        rw [hp]
        rfl
      rw [hzero]
  · intro l h told poisons
    refine ⟨settleLost_none hs hb, fun unit rest hlost => ⟨fun h2 => ?_, fun h1 hf => ?_, fun h1 hf => ?_⟩⟩
    · exact (settleLost_row hs hb hlost h2).trans (unitsSettled_eq (forEach_poisonUnit_lost n _ s) _)
    · exact (settleLost_unit hs hb hlost h1 hf).trans (unitsSettled_eq (poisonUnit_lost n unit s) [unit])
    · have hasks : told = askRecovery n s := settleLost_asks hs hb hlost h1 hf
      rw [hasks]
      exact ⟨fun hh hw => askRecovery_granted n ⟨hh, hw⟩, askRecovery_waits n⟩
  · intro l h d row others place cmd
    have hlength : (s.survivors l unit).length = others.length + 1 := by
      rw [State.survivors, List.length_append, List.length_map]
      rfl
    have hcmd : (fun k => laneCmd n l (.rebuild ((s.survivors l unit).getD k none)) .read
        (s.survivorPlace l unit ((s.survivors l unit).getD k none))
        ((List.range (s.homeSet n).unit).map (recoveryPosition (s.homeSet n).unit k))) = cmd := by
      funext k
      unfold laneCmd
      rw [List.length_map, List.length_range]
      rfl
    refine (recoveryGranted_reads hh hs hlost hr).trans ?_
    rw [hcmd, hlength]
  · intro w settled
    have hsettled (units : List Nat) (t : State) (ht : (t.lane n).work.lost = w.lost) :
        unitsSettled n units (releaseRecovery n t) = settled units t :=
      unitsSettled_eq (by rw [releaseRecovery_lane]; exact ht) units
    refine ⟨fun hp hbad => (finishRebuild_done hr hp hbad).trans (hsettled _ _ ?_),
      fun hbad => (finishRebuild_poisons hr hbad).trans (hsettled _ _ (forEach_poisonUnit_lost n _ s))⟩
    rw [rebuildUnit_lane]
  · unfold releaseRecovery
    rw [if_pos h, hw]
    rfl
  · unfold releaseRecovery
    rw [if_pos h, hw]
    rfl

end Sys2Proof.Machine
end

section
/-! PROOFS. The claim of a FILL job whose REPLACE finds the head of the journal spent (R74, R77, R154). -/

namespace Sys2Proof.Machine

/-- A FILL job of slab 0 that waits. -/
def waitingFill : Job :=
  { kind := .fill, slab := 0, candidates := 0, salvage := false, resume := none, retained := none, cause := none }

/-- Slab 0 has its home in a FAILED set, and set 1 has a FREE slot for it. The journal is WRITING, its head has no page left, and
the block after the head is the only ERASED one. -/
def headSpentClaim : State :=
  { State.reset with
    part := .ready
    pm := { State.reset.pm with
      sets := [(0, { SetEntry.unused with state := .failed }), (1, { SetEntry.unused with state := .online, slots := 1, freeCount := 1 })]
      slots := [(0, ⟨.home, 0, some 0, none⟩)], slabs := [(0, { Slab.unused with state := .filling, mark := true })]
      volumes := [(0, { Volume.unused with pool := 2#64 })] }
    jc := { State.reset.jc with
      state := .writing, admission := true, head := some 0, nextPage := 256, op := none
      blocks := [(0, ⟨.head, 0⟩), (1, ⟨.erased, 0⟩)] } }

/-- The claim queues its REPLACE; the store opens the next block for it, and that begins a compaction, which offers JOURNAL_STATE. -/
theorem headSpentClaim_notice :
    (claimScan 0 [] [waitingFill] headSpentClaim).mp.outbound = [.notice (.journalState .compacting none)] := by decide +kernel

theorem headSpentClaim_quiet : headSpentClaim.mp.outbound = [] := rfl

/-- Refutes O44: a re-placement leaves the Message Port as it was in the statement, but the opening of a block for its REPLACE may
begin a compaction, and JOURNAL_STATE is queued. -/
theorem not_laneClaims : ¬ Obligations.LaneClaims := by
  unfold Obligations.LaneClaims
  intro h
  obtain ⟨-, -, hscan, -⟩ := h
  obtain ⟨-, -, -, -, -, hreplace, -⟩ := hscan headSpentClaim 0 [] [] waitingFill (by decide)
  obtain ⟨-, -, -, -, -, -, -, -, -, -, -, hmp, -⟩ := hreplace ⟨1, 0⟩ rfl rfl (by decide +kernel) (by decide) rfl rfl rfl rfl
  have hkept := (congrArg MsgPort.outbound hmp).trans headSpentClaim_quiet
  rw [headSpentClaim_notice] at hkept
  cases hkept

end Sys2Proof.Machine
end

section
/-! PROOFS. The scan of the map store: the pages, the images among them, and the replay (R147, R154, R163). -/

namespace Sys2Proof.Machine

/-! ## The images that stand in the store -/

theorem recordsFrom_some {vs : List ValidPage} {n seq : Nat} {bodies : List RecordBody} : recordsFrom vs seq n = some bodies ↔
    bodies.length = n ∧ ∀ i, i < bodies.length → ∃ w, pageWith vs (seq + i) = some w ∧ bodies[i]? = some w.body := by
  induction n generalizing seq bodies with
  | zero =>
    rw [recordsFrom]
    constructor
    · rintro h
      obtain rfl := Option.some.inj h
      exact ⟨rfl, fun i hi => absurd hi (Nat.not_lt_zero i)⟩
    · rintro ⟨hlen, -⟩
      rw [List.length_eq_zero_iff.1 hlen]
  | succ n ih =>
    rw [recordsFrom]
    constructor
    · intro h
      split at h
      · next v rest hv hrest =>
        obtain rfl := Option.some.inj h
        obtain ⟨hlen, hall⟩ := ih.1 hrest
        refine ⟨by rw [List.length_cons, hlen], fun i hi => ?_⟩
        cases i with
        | zero => exact ⟨v, hv, rfl⟩
        | succ i =>
          obtain ⟨w, hw, hbody⟩ := hall i (Nat.lt_of_succ_lt_succ hi)
          exact ⟨w, by rw [← hw]; congr 1; omega, hbody⟩
      · cases h
    · rintro ⟨hlen, hall⟩
      cases bodies with
      | nil => cases hlen
      | cons body rest =>
        obtain ⟨v, hv, hbody⟩ := hall 0 (Nat.zero_lt_succ _)
        have hrest : recordsFrom vs (seq + 1) n = some rest := by
          refine ih.2 ⟨Nat.succ.inj hlen, fun i hi => ?_⟩
          obtain ⟨w, hw, hb⟩ := hall (i + 1) (Nat.succ_lt_succ hi)
          exact ⟨w, by rw [← hw]; congr 1; omega, hb⟩
        rw [show pageWith vs seq = some v from hv, hrest]
        dsimp only
        rw [Option.some.inj hbody]

theorem imageOf_iff (vs : List ValidPage) (v : ValidPage) (image : FoundImage) :
    imageOf vs v = some image ↔ ∃ beginSeq parts, v.body = .imageEnd beginSeq parts ∧ beginSeq < v.seq
      ∧ pageWith vs beginSeq = some image.start ∧ image.endSeq = v.seq
      ∧ (∃ arrayId params bad lost counts, image.start.body = .imageBegin arrayId params bad lost counts)
      ∧ image.between.length = v.seq - beginSeq - 1
      ∧ (∀ i, i < image.between.length → ∃ w, pageWith vs (beginSeq + 1 + i) = some w ∧ image.between[i]? = some w.body)
      ∧ (image.between.filterMap RecordBody.partBytes).length = parts := by
  constructor
  · intro h
    unfold imageOf at h
    split at h
    · next beginSeq parts hbody =>
      split at h
      · cases h
      · next start hstart =>
        split at h
        · next hbegin hbetween =>
          split at h
          · next hcond =>
            obtain rfl := Option.some.inj h
            obtain ⟨hlen, hall⟩ := recordsFrom_some.1 hbetween
            exact ⟨beginSeq, parts, hbody, hcond.1, hstart, rfl, ⟨_, _, _, _, _, hbegin⟩, hlen, hall, hcond.2⟩
          · cases h
        · cases h
    · cases h
  · rintro ⟨beginSeq, parts, hbody, hlt, hstart, hseq, ⟨arrayId, params, bad, lost, counts, hbegin⟩, hlen, hall, hparts⟩
    unfold imageOf
    rw [hbody]
    dsimp only
    rw [hstart]
    dsimp only
    rw [hbegin, recordsFrom_some.2 ⟨hlen, hall⟩]
    dsimp only
    rw [if_pos ⟨hlt, hparts⟩, ← hseq]

/-- Of several images, the newest so far. -/
theorem foldl_newerImage {l : List FoundImage} {best : Option FoundImage} {image : FoundImage}
    (h : l.foldl newerImage best = some image) :
    (best = some image ∨ image ∈ l) ∧ (∀ b, best = some b → b.endSeq ≤ image.endSeq) ∧ ∀ f ∈ l, f.endSeq ≤ image.endSeq := by
  induction l generalizing best with
  | nil =>
    refine ⟨Or.inl h, fun b hb => ?_, fun _ hf => absurd hf List.not_mem_nil⟩
    exact Nat.le_of_eq (congrArg FoundImage.endSeq (Option.some.inj (hb.symm.trans h)))
  | cons f rest ih =>
    rw [List.foldl_cons] at h
    obtain ⟨hfrom, hbest, hrest⟩ := ih h
    have hf : f.endSeq ≤ image.endSeq ∧ (∀ b, best = some b → b.endSeq ≤ image.endSeq)
        ∧ (newerImage best f = some image → best = some image ∨ image = f) := by
      cases best with
      | none => exact ⟨hbest f rfl, nofun, fun h => Or.inr (Option.some.inj h).symm⟩
      | some b =>
        unfold newerImage at hbest ⊢
        dsimp only at hbest ⊢
        split at hbest
        · next hlt =>
          have hle := hbest f rfl
          rw [if_pos hlt]
          exact ⟨hle, fun b' hb' => by cases hb'; omega, fun h => Or.inr (Option.some.inj h).symm⟩
        · next hlt =>
          have hle := hbest b rfl
          rw [if_neg hlt]
          exact ⟨by omega, fun b' hb' => by cases hb'; exact hle, Or.inl⟩
    refine ⟨?_, hf.2.1, List.forall_mem_cons.2 ⟨hf.1, hrest⟩⟩
    rcases hfrom with hfrom | hfrom
    · exact (hf.2.2 hfrom).imp id fun h => by rw [h]; exact List.mem_cons_self
    · exact Or.inr (List.mem_cons_of_mem _ hfrom)

theorem newestImage_some {vs : List ValidPage} {image : FoundImage} (h : newestImage vs = some image) :
    (∃ v ∈ vs, imageOf vs v = some image) ∧ ∀ v ∈ vs, ∀ other, imageOf vs v = some other → other.endSeq ≤ image.endSeq := by
  obtain ⟨hfrom, -, hall⟩ := foldl_newerImage h
  refine ⟨?_, fun v hv other hother => hall other (List.mem_filterMap.2 ⟨v, hv, hother⟩)⟩
  rcases hfrom with hfrom | hfrom
  · cases hfrom
  · exact List.mem_filterMap.1 hfrom

theorem newestImage_none {vs : List ValidPage} (h : ∀ v ∈ vs, imageOf vs v = none) : newestImage vs = none := by
  have hnil : vs.filterMap (imageOf vs) = [] := List.filterMap_eq_nil_iff.2 h
  rw [newestImage, hnil]
  rfl

/-! ## The replay -/

theorem replay_eq {vs : List ValidPage} {k n seq : Nat} {a : Account} {body : Nat → RecordBody}
    (h : ∀ i, i < k → ∃ v, pageWith vs (seq + i) = some v ∧ v.body = body i) (hstop : pageWith vs (seq + k) = none) (hn : k ≤ n) :
    replay vs n seq a = ((List.range k).foldl (fun a i => applyRecord (seq + i) (body i) a) a, seq + k) := by
  induction k generalizing n seq a body with
  | zero =>
    cases n with
    | zero => rfl
    | succ n =>
      rw [replay, show pageWith vs seq = none from hstop]
      rfl
  | succ k ih =>
    obtain ⟨m, rfl⟩ : ∃ m, n = m + 1 := ⟨n - 1, by omega⟩
    obtain ⟨v, hv, hbody⟩ := h 0 (Nat.zero_lt_succ k)
    have hnext : ∀ i, i < k → ∃ w, pageWith vs (seq + 1 + i) = some w ∧ w.body = body (i + 1) := fun i hi => by
      rw [show seq + 1 + i = seq + (i + 1) by omega]
      exact h (i + 1) (Nat.succ_lt_succ hi)
    have hend : pageWith vs (seq + 1 + k) = none := by
      rw [show seq + 1 + k = seq + (k + 1) by omega]
      exact hstop
    rw [replay, show pageWith vs seq = some v from hv]
    dsimp only
    rw [ih hnext hend (Nat.le_of_succ_le_succ hn), List.range_succ_eq_map, List.foldl_cons, List.foldl_map, hbody]
    have hadd (i : Nat) : seq + 1 + i = seq + (i + 1) := by omega
    simp only [hadd, Nat.succ_eq_add_one, Nat.add_zero]

/-! ## The pages kept (R147) -/

theorem mem_keepPage {head : Nat} {v w : ValidPage} {l : List ValidPage} (h : w ∈ keepPage head v l) : w = v ∨ w ∈ l := by
  induction l with
  | nil => exact Or.inl (List.mem_singleton.1 h)
  | cons x rest ih =>
    unfold keepPage at h
    split at h
    · split at h
      · exact (List.mem_cons.1 h).imp id (List.mem_cons_of_mem x)
      · exact Or.inr h
    · rcases List.mem_cons.1 h with rfl | h
      · exact Or.inr List.mem_cons_self
      · exact (ih h).imp id (List.mem_cons_of_mem x)

theorem mem_distinctPages {vs : List ValidPage} {v : ValidPage} (h : v ∈ distinctPages vs) : v ∈ vs := by
  have hfold : ∀ (l kept : List ValidPage), v ∈ l.foldl (fun kept v => keepPage (scannedHead vs) v kept) kept → v ∈ kept ∨ v ∈ l := by
    intro l
    induction l with
    | nil => exact fun kept h => Or.inl h
    | cons x rest ih =>
      intro kept h
      rcases ih _ h with h | h
      · exact (mem_keepPage h).elim (fun h => Or.inr (h ▸ List.mem_cons_self)) Or.inl
      · exact Or.inr (List.mem_cons_of_mem x h)
  exact (hfold vs [] h).elim (fun h => absurd h List.not_mem_nil) id

theorem imageOf_none {vs : List ValidPage} {v : ValidPage} (h : ∀ first parts, v.body ≠ .imageEnd first parts) : imageOf vs v = none := by
  unfold imageOf
  split
  · next hbody => exact absurd hbody (h _ _)
  · rfl

/-! ## The end of the scan (R163, R164) -/

/-- The state in which the flush is sent and the first shelf round has begun. -/
def State.roundBegun (s : State) : State :=
  { s with
    stage := .firstRound, jc := { s.jc with op := none }
    dp := { s.dp with flush := .waiting 1 s.clock.now, sent := s.dp.sent ++ [.flush] }
    sm := { s.sm with
      roundStart := some s.clock.now, transaction := some (0, s.clock.now), abandoned := false
      counters := { s.sm.counters with polls := min (s.sm.counters.polls + 1) 4294967295 } } }

theorem becomeBlank_eq (cause : Option BlankCause) (s : State) :
    becomeBlank cause s = State.offerNotice (.partState (.blank cause)) { s with part := .blank cause }.roundBegun := rfl

theorem scanEnded_blank {pages : List (Nat × List Byte)} (s : State) (h : newestImage (distinctPages (validPages pages)) = none) :
    scanEnded pages s = becomeBlank none s := by
  unfold scanEnded
  dsimp only
  rw [h]

theorem scanEnded_image {pages : List (Nat × List Byte)} (s : State) {image : FoundImage} {newest : ValidPage}
    (h : newestImage (distinctPages (validPages pages)) = some image) (hn : newestPage (distinctPages (validPages pages)) = some newest) :
    let vs := distinctPages (validPages pages)
    let replayed := replay vs vs.length (image.endSeq + 1) (imageAccount image)
    scanEnded pages s = firstRound (setRing pages replayed.1 image replayed.2 (newest.page / 256) (loadAccount replayed.1 s)) := by
  unfold scanEnded
  dsimp only
  rw [h, hn]

theorem exec_journalScan {s : State} {start : Nat} (h : s.jc.op = some (.scan start)) (pages : List (Nat × List Byte)) :
    exec (.journalScan pages) s = conclude s (scanEnded pages s) := by
  show execJournalScan pages s = _
  unfold execJournalScan
  rw [h]

theorem exec_journalScan_none {s : State} (h : ∀ start, s.jc.op ≠ some (.scan start)) (pages : List (Nat × List Byte)) :
    exec (.journalScan pages) s = .next s := by
  show execJournalScan pages s = _
  unfold execJournalScan
  split
  · next start hop => exact absurd hop (h start)
  all_goals rfl

/-- A part that becomes BLANK. -/
theorem becomeBlank_concludes {s t : State} (hs : s.quiet) (cause : Option BlankCause) (ht : t.agenda = s.agenda) (hc : t.clock = s.clock)
    (hp : t.pending = s.pending) (hme : t.me = s.me) : conclude s (becomeBlank cause t) = .next (becomeBlank cause t) := by
  obtain ⟨m, hm⟩ := offerNotice_eq (.partState (.blank cause)) { t with part := .blank cause }.roundBegun
  rw [becomeBlank_eq, hm]
  exact conclude_quiet (ht.trans hs) hc hp hme

end Sys2Proof.Machine
end

section
/-! PROOFS. The ring after a restart (R148, R154, R163). -/

namespace Sys2Proof.Machine

/-- The blocks' conditions set, one after another. -/
theorem forEach_setStoreBlock (f : Nat → StoreBlock) {l : List Nat} (hn : l.Nodup) (s : State) :
    ∃ blocks, forEach (fun b s => s.setStoreBlock b (f b)) l s = { s with jc := { s.jc with blocks := blocks } }
      ∧ (∀ b ∈ l, tableRead StoreBlock.written blocks b = f b)
      ∧ ∀ b, b ∉ l → tableRead StoreBlock.written blocks b = s.storeBlock b := by
  induction l generalizing s with
  | nil => exact ⟨s.jc.blocks, rfl, fun _ h => absurd h List.not_mem_nil, fun _ _ => rfl⟩
  | cons b rest ih =>
    obtain ⟨hb, hrest⟩ := List.nodup_cons.1 hn
    obtain ⟨blocks, hform, hin, hout⟩ := ih hrest (s.setStoreBlock b (f b))
    refine ⟨blocks, hform, fun k hk => ?_, fun k hk => ?_⟩
    · rcases List.mem_cons.1 hk with rfl | hk
      · exact (hout k hb).trans (tableRead_tableWrite_same StoreBlock.written s.jc.blocks k (f k))
      · exact hin k hk
    · rw [List.mem_cons, not_or] at hk
      exact (hout k hk.2).trans (tableRead_tableWrite_other StoreBlock.written s.jc.blocks (f b) hk.1)

theorem writtenPages_nil (pages : List (Nat × List Byte)) (b : Nat) :
    writtenPages pages b = [] ↔ pages.all (fun p => decide (p.1 / 256 ≠ b) || pageErased p.2) = true := by
  unfold writtenPages
  rw [List.map_eq_nil_iff, List.filter_eq_nil_iff, List.all_eq_true]
  refine forall₂_congr fun p _ => ?_
  rw [Bool.and_eq_true, Bool.not_eq_true', decide_eq_true_iff, Bool.or_eq_true, decide_eq_true_iff, not_and, Bool.not_eq_false]
  exact Decidable.imp_iff_not_or

theorem foldl_max_le {l : List Nat} {m start : Nat} (h : ∀ x ∈ l, x ≤ m) (hs : start ≤ m) : l.foldl max start ≤ m := by
  induction l generalizing start with
  | nil => exact hs
  | cons x rest ih =>
    obtain ⟨hx, hrest⟩ := List.forall_mem_cons.1 h
    exact ih hrest (Nat.max_le.2 ⟨hs, hx⟩)

theorem le_foldl_max {l : List Nat} {x start : Nat} (h : x ≤ start ∨ x ∈ l) : x ≤ l.foldl max start := by
  induction l generalizing start with
  | nil => exact h.elim id fun h => absurd h List.not_mem_nil
  | cons y rest ih =>
    refine ih ?_
    rcases h with h | h
    · exact Or.inl (Nat.le_trans h (Nat.le_max_left _ _))
    · exact (List.mem_cons.1 h).imp (fun h => Nat.le_trans (Nat.le_of_eq h) (Nat.le_max_right _ _)) id

theorem lastWritten {pages : List (Nat × List Byte)} {head last : Nat}
    (hlast : ∃ p ∈ pages, p.1 = head * 256 + last ∧ last < 256 ∧ pageErased p.2 = false)
    (hall : ∀ p ∈ pages, p.1 / 256 = head → pageErased p.2 = false → p.1 % 256 ≤ last) :
    (writtenPages pages head).foldl max 0 = last := by
  refine Nat.le_antisymm (foldl_max_le (fun x hx => ?_) (Nat.zero_le _)) (le_foldl_max (Or.inr ?_))
  · obtain ⟨p, hp, rfl⟩ := List.mem_map.1 hx
    obtain ⟨hmem, hcond⟩ := List.mem_filter.1 hp
    rw [Bool.and_eq_true, Bool.not_eq_true', decide_eq_true_iff] at hcond
    exact hall p hmem hcond.1 hcond.2
  · obtain ⟨p, hp, hpage, hlt, he⟩ := hlast
    refine List.mem_map.2 ⟨p, List.mem_filter.2 ⟨hp, ?_⟩, by omega⟩
    rw [Bool.and_eq_true, Bool.not_eq_true', decide_eq_true_iff]
    exact ⟨by omega, he⟩

/-- The ring as the scan finds it, before a full head moves on. -/
def State.ringFound (s : State) (a : Account) (f : FoundImage) (next head : Nat) (page : Nat) (blocks : List (Nat × StoreBlock)) : State :=
  { s with jc := { s.jc with
    blocks := blocks, head := some head, nextPage := page, nextSeq := next, durable := a
    newestImage := some (f.start.seq, f.start.page / 256) } }

theorem setRing_eq (pages : List (Nat × List Byte)) (a : Account) (f : FoundImage) (next head : Nat) (s : State) :
    ∃ blocks, setRing pages a f next head s
        = moveSpentHead (s.ringFound a f next head ((writtenPages pages head).foldl max 0 + 1) blocks)
      ∧ ∀ b, b < 64 → tableRead StoreBlock.written blocks b = ⟨scannedCondition pages a.bad head (f.start.page / 256) b, 0⟩ := by
  obtain ⟨blocks, hform, hin, -⟩ := forEach_setStoreBlock
    (fun b => ⟨scannedCondition pages a.bad head (f.start.page / 256) b, 0⟩) (List.nodup_range (n := 64)) s
  refine ⟨blocks, ?_, fun b hb => hin b (List.mem_range.2 hb)⟩
  have hset : setRing pages a f next head s = moveSpentHead ((forEach (fun b s =>
      s.setStoreBlock b ⟨scannedCondition pages a.bad head (f.start.page / 256) b, 0⟩) (List.range 64) s).onJc
        (fun j => { j with
          head := some head, nextPage := (writtenPages pages head).foldl max 0 + 1, nextSeq := next, durable := a
          newestImage := some (f.start.seq, f.start.page / 256) })) := rfl
  rw [hset, hform]
  rfl

theorem mem_blocksAfter {h b : Nat} (hb : b ∈ blocksAfter h) : b < 64 := by
  obtain ⟨i, -, rfl⟩ := List.mem_map.1 hb
  exact Nat.mod_lt _ (Nat.zero_lt_succ 63)

theorem scannedCondition_bad {pages : List (Nat × List Byte)} {bad : BitVec 64} {head image b : Nat} :
    scannedCondition pages bad head image b = .bad ↔ bad.getLsbD b = true := by
  unfold scannedCondition
  split
  · next h => exact iff_of_true rfl h
  · next h =>
    refine iff_of_false ?_ h
    split
    · nofun
    · split
      · nofun
      · split <;> nofun

/-- A full head moves on where the next block of the ring that is not bad is ERASED. -/
theorem moveSpentHead_stays {s : State} {h : Nat} (hh : s.jc.head = some h)
    (hn : s.headSpent = true → ∀ b, s.followingBlock h = some b → (s.storeBlock b).cond ≠ .erased) : moveSpentHead s = s := by
  unfold moveSpentHead
  rw [hh]
  dsimp only
  split
  · next hspent =>
    split
    · rfl
    · next b hb => exact if_neg (hn hspent b hb)
  · rfl

theorem moveSpentHead_moves {s : State} {h b : Nat} (hh : s.jc.head = some h) (hs : s.headSpent = true)
    (hb : s.followingBlock h = some b) (he : (s.storeBlock b).cond = .erased) (hc : (s.storeBlock h).cond = .head) :
    moveSpentHead s = s.headMoved h b := by
  unfold moveSpentHead
  rw [hh]
  dsimp only
  rw [if_pos hs, hb]
  dsimp only
  rw [if_pos he]
  exact moveHead_eq hc (followingBlock_ne hb)

section
variable {pages : List (Nat × List Byte)} {a : Account} {f : FoundImage} {next head last : Nat} {s : State}
  {blocks : List (Nat × StoreBlock)}
  (hread : ∀ b, b < 64 → tableRead StoreBlock.written blocks b = ⟨scannedCondition pages a.bad head (f.start.page / 256) b, 0⟩)
include hread

theorem ringFound_following :
    (s.ringFound a f next head (last + 1) blocks).followingBlock head = (blocksAfter head).find? (fun b => !a.bad.getLsbD b) := by
  unfold State.followingBlock
  refine find?_agree fun b hb => ?_
  have hblock : (s.ringFound a f next head (last + 1) blocks).storeBlock b
      = ⟨scannedCondition pages a.bad head (f.start.page / 256) b, 0⟩ := hread b (mem_blocksAfter hb)
  rw [hblock, Bool.eq_iff_iff, decide_eq_true_iff, Bool.not_eq_true', ← Bool.not_eq_true]
  exact not_congr scannedCondition_bad

variable (hlt : head < 64) (hb : a.bad.getLsbD head = false)
include hlt hb

theorem ringFound_head : (s.ringFound a f next head (last + 1) blocks).storeBlock head = ⟨.head, 0⟩ := by
  refine (hread head hlt).trans ?_
  unfold scannedCondition
  rw [if_neg (by rw [hb]; exact Bool.false_ne_true), if_pos rfl]

theorem ringFound_spent (hl : last < 256) : (s.ringFound a f next head (last + 1) blocks).headSpent = true ↔ last = 255 := by
  rw [headSpent_iff (h := head) rfl, ringFound_head hread hlt hb]
  show 256 ≤ last + 1 ∨ BlockCond.head ≠ .head ↔ _
  constructor
  · rintro (h | h)
    · omega
    · exact absurd rfl h
  · exact fun h => Or.inl (by omega)

end

theorem scannedCondition_eq (pages : List (Nat × List Byte)) (bad : BitVec 64) (head image b : Nat) :
    scannedCondition pages bad head image b =
      if bad.getLsbD b = true then .bad else if b = head then .head
      else if pages.all (fun p => decide (p.1 / 256 ≠ b) || pageErased p.2) = true then .erased
      else if ringDistance head b < ringDistance head image then .awaiting else .written := by
  unfold scannedCondition
  simp only [writtenPages_nil]

/-- The ring after the scan: a full head moves on where it can, and else stays (R154). -/
theorem setRing_ring {pages : List (Nat × List Byte)} {a : Account} {f : FoundImage} {next head last : Nat} {s : State}
    (hlt : head < 64) (hb : a.bad.getLsbD head = false)
    (hlast : ∃ p ∈ pages, p.1 = head * 256 + last ∧ last < 256 ∧ pageErased p.2 = false)
    (hall : ∀ p ∈ pages, p.1 / 256 = head → pageErased p.2 = false → p.1 % 256 ≤ last) :
    let t := setRing pages a f next head s
    let cond (b : Nat) : BlockCond := scannedCondition pages a.bad head (f.start.page / 256) b
    let moves (b : Nat) : Prop :=
      last = 255 ∧ (blocksAfter head).find? (fun b => !a.bad.getLsbD b) = some b ∧ cond b = .erased
    ((∀ b, ¬moves b) → t = s.ringFound a f next head (last + 1) t.jc.blocks ∧ ∀ b, b < 64 → t.storeBlock b = ⟨cond b, 0⟩)
      ∧ ∀ b, moves b → t = s.ringFound a f next b 0 t.jc.blocks ∧ t.storeBlock b = ⟨.head, 0⟩ ∧ t.storeBlock head = ⟨.written, 0⟩
          ∧ ∀ k, k < 64 → k ≠ b → k ≠ head → t.storeBlock k = ⟨cond k, 0⟩ := by
  intro t cond moves
  obtain ⟨blocks, hring, hread⟩ := setRing_eq pages a f next head s
  rw [lastWritten hlast hall] at hring
  obtain ⟨-, -, -, hl, -⟩ := hlast
  let u := s.ringFound a f next head (last + 1) blocks
  have hblock (b : Nat) (h : b < 64) : u.storeBlock b = ⟨cond b, 0⟩ := hread b h
  have hfollow : u.followingBlock head = (blocksAfter head).find? (fun b => !a.bad.getLsbD b) := ringFound_following hread
  have hspent : u.headSpent = true ↔ last = 255 := ringFound_spent hread hlt hb hl
  have ht : t = moveSpentHead u := hring
  constructor
  · intro hno
    have hstays : t = u := ht.trans (moveSpentHead_stays (s := u) rfl fun hs b hfb he => by
      have hblt : b < 64 := followingBlock_lt hfb
      rw [hblock b hblt] at he
      exact hno b ⟨hspent.1 hs, hfollow.symm.trans hfb, he⟩)
    rw [hstays]
    exact ⟨rfl, hblock⟩
  · rintro b ⟨h255, hfind, he⟩
    have hfb : u.followingBlock head = some b := hfollow.trans hfind
    have hblt : b < 64 := followingBlock_lt hfb
    have hhead : u.storeBlock head = ⟨.head, 0⟩ := ringFound_head hread hlt hb
    have hmoved : t = u.headMoved head b := ht.trans (moveSpentHead_moves (s := u) rfl (hspent.2 h255) hfb
      (by rw [hblock b hblt]; exact he) (by rw [hhead]))
    obtain ⟨hself, hold, hother⟩ := headMoved_storeBlock (s := u) (followingBlock_ne hfb)
    rw [hmoved]
    refine ⟨rfl, hself.trans (by rw [hblock b hblt]), hold.trans (by rw [hhead]), fun k hk hkb hkh => ?_⟩
    rw [hother k hkb hkh, hblock k hk]

end Sys2Proof.Machine
end

section
/-! PROOFS. What a replay leaves in memory: the sets, the slabs with their slots, and the volumes (R8, R14, R15, R16). -/

namespace Sys2Proof.Machine

/-! ## The sets (R8) -/

/-- A set as the replay leaves it: the requested fields with their geometry, and the state that its failed count gives. -/
def State.loadedSet (s : State) (d : SetDef) : SetEntry :=
  { newSet .online s.slabBlocks d.unit d.bandLength d.positions with
    failedCount := s.failedPositions d.positions, state := setStateOf (s.failedPositions d.positions) }

theorem loadSet_some (k : Nat) (d : SetDef) (s : State) : loadSet (k, some d) s = s.setSet k (s.loadedSet d) := rfl

theorem forEach_loadSet {l : List (Nat × Option SetDef)} (hk : (l.map Prod.fst).Pairwise (· < ·)) (hd : ∀ e ∈ l, e.2 ≠ none) (s : State) :
    ∃ sets, forEach loadSet l s = { s with pm := { s.pm with sets := sets } }
      ∧ (∀ k d, (k, some d) ∈ l → tableRead SetEntry.unused sets k = s.loadedSet d)
      ∧ ∀ k, (∀ e ∈ l, e.1 ≠ k) → tableRead SetEntry.unused sets k = s.set k := by
  induction l generalizing s with
  | nil => exact ⟨s.pm.sets, rfl, fun _ _ h => absurd h List.not_mem_nil, fun _ _ => rfl⟩
  | cons e rest ih =>
    obtain ⟨key, o⟩ := e
    obtain ⟨d, rfl⟩ := Option.ne_none_iff_exists'.1 (hd _ List.mem_cons_self)
    obtain ⟨sets, hform, hin, hout⟩ := ih (List.pairwise_cons.1 hk).2 (fun x hx => hd x (List.mem_cons_of_mem _ hx))
      (s.setSet key (s.loadedSet d))
    refine ⟨sets, ?_, fun k d' hx => ?_, fun k hne => ?_⟩
    · rw [forEach, loadSet_some, hform]
      rfl
    · rcases List.mem_cons.1 hx with hx | hx
      · obtain ⟨rfl, hd'⟩ := Prod.mk.inj hx
        obtain rfl := Option.some.inj hd'
        rw [hout k fun y hy => key_ne_of_pairwise hk hy]
        exact tableRead_tableWrite_same SetEntry.unused s.pm.sets k (s.loadedSet d')
      · exact hin k d' hx
    · rw [hout k fun y hy => hne y (List.mem_cons_of_mem _ hy)]
      exact tableRead_tableWrite_other SetEntry.unused s.pm.sets (s.loadedSet d) (hne _ List.mem_cons_self).symm

/-! ## The slots that the slabs take (R8, R16) -/

/-- A slot taken: its place, the state that it takes, and the slab. -/
abbrev Taken := Place × SlotState × Nat

def State.take (x : Taken) (s : State) : State := s.takeSlot x.1 x.2.1 x.2.2

/-- The slots that a slab's entry takes. -/
def slabTakes (e : Nat × Slab) : List Taken :=
  (e.2.home, .home, e.1) :: e.2.target.toList.map (fun p => (p, .target, e.1))

/-- A slab's entry as the replay leaves it. -/
def Slab.loaded (e : Slab) : Slab := { e with front := e.persisted, mark := false }

theorem loadSlab_eq (e : Nat × Slab) (s : State) : loadSlab e s = forEach State.take (slabTakes e) (s.setSlab e.1 e.2.loaded) := by
  obtain ⟨g, ⟨state, volume, home, target, front, persisted, mark, salvage⟩⟩ := e
  cases target <;> rfl

theorem take_setSlab (x : Taken) (g : Nat) (e : Slab) (s : State) : (s.setSlab g e).take x = (s.take x).setSlab g e := by
  unfold State.take State.takeSlot State.writeSlot
  dsimp only
  have hslot : (s.setSlab g e).slot x.1 = s.slot x.1 := rfl
  rw [hslot]
  split
  · rfl
  · split <;> rfl

theorem forEach_take_setSlab (l : List Taken) (g : Nat) (e : Slab) (s : State) :
    forEach State.take l (s.setSlab g e) = (forEach State.take l s).setSlab g e := by
  induction l generalizing s with
  | nil => rfl
  | cons x rest ih => rw [forEach, take_setSlab, ih, forEach]

theorem forEach_setSlab_take (l : List (Nat × Slab)) (ts : List Taken) (s : State) :
    forEach (fun (e : Nat × Slab) s => s.setSlab e.1 e.2.loaded) l (forEach State.take ts s)
      = forEach State.take ts (forEach (fun (e : Nat × Slab) s => s.setSlab e.1 e.2.loaded) l s) := by
  induction l generalizing s with
  | nil => rfl
  | cons e rest ih => rw [forEach, ← forEach_take_setSlab, ih, forEach]

/-- The slabs written first, and their slots taken after them. -/
theorem forEach_loadSlab (l : List (Nat × Slab)) (s : State) : forEach loadSlab l s =
    forEach State.take (l.flatMap slabTakes) (forEach (fun (e : Nat × Slab) s => s.setSlab e.1 e.2.loaded) l s) := by
  induction l generalizing s with
  | nil => rfl
  | cons e rest ih =>
    rw [forEach, ih, loadSlab_eq, forEach_setSlab_take, List.flatMap_cons, forEach_append]
    rfl

theorem forEach_take {l : List Taken} (hn : (l.map (fun x => slotKey x.1)).Nodup) (hs : ∀ x ∈ l, x.2.1 ≠ .free) {s : State}
    (hf : ∀ x ∈ l, (s.slot x.1).state = .free) :
    ∃ slots sets, forEach State.take l s = { s with pm := { s.pm with slots := slots, sets := sets } }
      ∧ (∀ x ∈ l, tableRead Slot.free slots (slotKey x.1) = ⟨x.2.1, 0, some x.2.2, none⟩)
      ∧ (∀ k, k ∉ l.map (fun x => slotKey x.1) → tableRead Slot.free slots k = tableRead Slot.free s.pm.slots k)
      ∧ ∀ id, tableRead SetEntry.unused sets id = { s.set id with
          freeCount := (s.set id).freeCount - (l.filter (fun x => x.1.set = id)).length } := by
  induction l generalizing s with
  | nil => exact ⟨s.pm.slots, s.pm.sets, rfl, fun _ h => absurd h List.not_mem_nil, fun _ _ => rfl, fun _ => rfl⟩
  | cons x rest ih =>
    obtain ⟨hx, hrest⟩ := List.nodup_cons.1 hn
    obtain ⟨hxs, hss⟩ := List.forall_mem_cons.1 hs
    obtain ⟨hxf, hff⟩ := List.forall_mem_cons.1 hf
    have hform : s.take x = _ := takeSlot_free x.2.2 hxf hxs
    have hset (id : Nat) : (s.take x).set id = { s.set id with
        freeCount := (s.set id).freeCount - if x.1.set = id then 1 else 0 } := by
      split
      · next hid =>
        subst hid
        exact writeSlot_set_taken hxf hxs
      · next hid => exact writeSlot_set_other _ s (Ne.symm hid)
    have hother (p : Place) (h : slotKey p ≠ slotKey x.1) : (s.take x).slot p = s.slot p := writeSlot_slot_other _ s h
    obtain ⟨slots, sets, hall, hin, hout, hsets⟩ := ih hrest hss (s := s.take x) fun y hy => by
      rw [hother y.1 fun h => hx (List.mem_map.2 ⟨y, hy, h⟩)]
      exact hff y hy
    have hslots : (s.take x).pm.slots = tableWrite Slot.free s.pm.slots (slotKey x.1) ⟨x.2.1, 0, some x.2.2, none⟩ := writeSlot_slots ..
    refine ⟨slots, sets, ?_, List.forall_mem_cons.2 ⟨?_, hin⟩, fun k hk => ?_, fun id => ?_⟩
    · rw [forEach, hall, hform]
    · rw [hout _ hx, hslots, tableRead_tableWrite_same]
    · rw [List.map_cons, List.mem_cons, not_or] at hk
      rw [hout k hk.2, hslots, tableRead_tableWrite_other _ _ _ hk.1]
    · rw [hsets id, hset id, List.filter_cons]
      by_cases hid : x.1.set = id
      · rw [if_pos hid, if_pos (decide_eq_true hid), List.length_cons, Nat.sub_sub, Nat.add_comm 1]
      · rw [if_neg hid, if_neg (by rw [decide_eq_true_iff]; exact hid), Nat.sub_zero]

/-! ## The volumes (R14, R15) -/

theorem forEach_loadVolume {l : List (Nat × Volume)} (hk : (l.map Prod.fst).Pairwise (· < ·)) (s : State) :
    ∃ volumes, forEach loadVolume l s = { s with pm := { s.pm with volumes := volumes } }
      ∧ (∀ e ∈ l, tableRead Volume.unused volumes e.1 = { e.2 with ready := e.2.readyIn s })
      ∧ ∀ v, (∀ e ∈ l, e.1 ≠ v) → tableRead Volume.unused volumes v = s.volume v := by
  induction l generalizing s with
  | nil => exact ⟨s.pm.volumes, rfl, fun _ h => absurd h List.not_mem_nil, fun _ _ => rfl⟩
  | cons e rest ih =>
    obtain ⟨volumes, hform, hin, hout⟩ := ih (List.pairwise_cons.1 hk).2 (loadVolume e s)
    have hself : (s.setVolume e.1 e.2).volume e.1 = e.2 := tableRead_tableWrite_same Volume.unused s.pm.volumes e.1 e.2
    have hready : (s.setVolume e.1 e.2).readyCount e.1 = e.2.readyIn s := by
      rw [readyCount_eq, hself]
      rfl
    have hwrite : loadVolume e s = (s.setVolume e.1 e.2).setVolume e.1 { e.2 with ready := e.2.readyIn s } := by
      rw [← hready]
      rfl
    refine ⟨volumes, ?_, List.forall_mem_cons.2 ⟨?_, hin⟩, fun v hv => ?_⟩
    · rw [forEach, hform]
      rfl
    · rw [hout _ fun y hy => key_ne_of_pairwise hk hy, hwrite]
      exact tableRead_tableWrite_same Volume.unused _ e.1 _
    · have hne : v ≠ e.1 := (hv e List.mem_cons_self).symm
      rw [hout v fun y hy => hv y (List.mem_cons_of_mem _ hy), hwrite]
      exact (tableRead_tableWrite_other Volume.unused _ _ hne).trans (tableRead_tableWrite_other Volume.unused _ _ hne)

end Sys2Proof.Machine
end

section
/-! PROOFS. The account in memory after the replay (R2, R8, R14, R16, R163). -/

namespace Sys2Proof.Machine

theorem map_slabTakes (slabs : List (Nat × Slab)) :
    (slabs.flatMap slabTakes).map Prod.fst = slabs.flatMap (fun e => e.2.home :: e.2.target.toList) := by
  rw [List.map_flatMap, List.flatMap_def, List.flatMap_def]
  refine congrArg List.flatten (List.map_congr_left fun e _ => ?_)
  rw [slabTakes, List.map_cons, List.map_map]
  exact congrArg _ (List.map_id _)

theorem slabTakes_taken {e : Nat × Slab} : ∀ x ∈ slabTakes e, x.2.1 ≠ .free := by
  intro x hx
  rcases List.mem_cons.1 hx with rfl | hx
  · nofun
  · obtain ⟨p, -, rfl⟩ := List.mem_map.1 hx
    nofun

/-- The state with what the replay leaves, the tables given. -/
def State.withAccount (s : State) (a : Account) (sets : List (Nat × SetEntry)) (slots : List (Nat × Slot)) (slabs : List (Nat × Slab))
    (volumes : List (Nat × Volume)) : State :=
  { s with
    pm := { s.pm with
      arrayId := a.arrayId, slabSize := a.params.slabSize, members := a.members, sets := sets, slots := slots, slabs := slabs
      volumes := volumes }
    gu := { s.gu with holdLife := a.params.holdLife }, dp := { s.dp with driveTmo := a.params.driveTmo }
    sm := { s.sm with pollPeriod := a.params.pollPeriod }
    me := { s.me with
      backoffBits := a.params.backoffBits, lockAfter := a.params.lockAfter, ckptRows := a.params.ckptRows
      moveRate := a.params.moveRate, damage := a.damage, lost := a.lost } }

theorem loadAccount_withAccount (a : Account) (s : State) :
    loadAccount a s = ((forEach loadVolume a.volumes (forEach loadSlab a.slabs (forEach loadSet a.sets
      ((loadParams a.params s).onPm (fun m => { m with arrayId := a.arrayId, members := a.members }))))).onMe
        (fun m => { m with damage := a.damage, lost := a.lost })) := rfl

/-- A table read at a listed key, or at a key that is not listed. -/
theorem tableRead_cases {α : Type} [DecidableEq α] {d : α} {t : List (Nat × α)} (hw : tableWf d t = true) (k : Nat) :
    (k, tableRead d t k) ∈ t ∨ (tableRead d t k = d ∧ ∀ e ∈ t, e.1 ≠ k) := by
  by_cases h : ∃ v, (k, v) ∈ t
  · obtain ⟨v, hv⟩ := h
    exact Or.inl (by rw [tableRead_of_mem hw hv]; exact hv)
  · rw [not_exists] at h
    exact Or.inr ⟨tableRead_absent h, fun e he hk => h e.2 (by rw [← hk]; exact he)⟩

theorem mem_ne_default {α : Type} [DecidableEq α] {d : α} {t : List (Nat × α)} {low : Nat} (hw : tableWfFrom d low t = true) :
    ∀ e ∈ t, e.2 ≠ d := by
  induction t generalizing low with
  | nil => exact fun _ h => absurd h List.not_mem_nil
  | cons e rest ih =>
    simp only [tableWfFrom, Bool.and_eq_true, decide_eq_true_eq] at hw
    obtain ⟨⟨-, hne⟩, hrest⟩ := hw
    exact List.forall_mem_cons.2 ⟨hne, ih hrest⟩

/-- The tables of the account in memory, as the replay leaves them. -/
structure AccountTables (a : Account) (s : State) (sets : List (Nat × SetEntry)) (slots : List (Nat × Slot))
    (slabs : List (Nat × Slab)) (volumes : List (Nat × Volume)) : Prop where
  unset : ∀ id, a.setDef id = none → tableRead SetEntry.unused sets id = SetEntry.unused
  set : ∀ id d, a.setDef id = some d → tableRead SetEntry.unused sets id = { s.loadedSet d with
    freeCount := (s.loadedSet d).freeCount
      - ((a.slabs.flatMap (fun e => e.2.home :: e.2.target.toList)).filter (fun p => p.set = id)).length }
  taken : ∀ x ∈ a.slabs.flatMap slabTakes, tableRead Slot.free slots (slotKey x.1) = ⟨x.2.1, 0, some x.2.2, none⟩
  free : ∀ k, k ∉ (a.slabs.flatMap (fun e => e.2.home :: e.2.target.toList)).map slotKey → tableRead Slot.free slots k = Slot.free
  slab : ∀ g, tableRead Slab.unused slabs g = (a.slab g).loaded
  volume : ∀ v, tableRead Volume.unused volumes v = { a.volume v with
    ready := ((List.range (a.volume v).count).find? (fun k => (a.slab ((a.volume v).base + k)).state = .filling)).getD (a.volume v).count }

theorem unused_without (k : Nat) : { SetEntry.unused with freeCount := SetEntry.unused.freeCount - k } = SetEntry.unused := by
  rw [show SetEntry.unused.freeCount = 0 from rfl, Nat.zero_sub]
  rfl

/-- The four tables empty. -/
def State.tablesEmpty (s : State) : Prop := s.pm.sets = [] ∧ s.pm.slots = [] ∧ s.pm.slabs = [] ∧ s.pm.volumes = []

/-- The three tables that are loaded are in their form. -/
def Account.tablesWf (a : Account) : Prop :=
  tableWf none a.sets = true ∧ tableWf Slab.unused a.slabs = true ∧ tableWf Volume.unused a.volumes = true

theorem takes_keys (slabs : List (Nat × Slab)) : (slabs.flatMap slabTakes).map (fun x => slotKey x.1)
    = (slabs.flatMap (fun e => e.2.home :: e.2.target.toList)).map slotKey := by
  rw [← map_slabTakes, List.map_map]
  rfl

theorem takes_of_set (slabs : List (Nat × Slab)) (id : Nat) : ((slabs.flatMap slabTakes).filter (fun x => x.1.set = id)).length
    = ((slabs.flatMap (fun e => e.2.home :: e.2.target.toList)).filter (fun p => p.set = id)).length := by
  rw [← map_slabTakes, List.filter_map, List.length_map]
  rfl

theorem forEach_loads {a : Account} {s : State} (hs : s.tablesEmpty) (hw : a.tablesWf)
    (hn : ((a.slabs.flatMap (fun e => e.2.home :: e.2.target.toList)).map slotKey).Nodup) :
    ∃ sets slots slabs volumes, forEach loadVolume a.volumes (forEach loadSlab a.slabs (forEach loadSet a.sets s))
        = { s with pm := { s.pm with sets := sets, slots := slots, slabs := slabs, volumes := volumes } }
      ∧ AccountTables a s sets slots slabs volumes := by
  obtain ⟨hsets, hslots, hslabs, hvolumes⟩ := hs
  obtain ⟨wsets, wslabs, wvolumes⟩ := hw
  obtain ⟨sets₀, hform₁, hset, hunset⟩ := forEach_loadSet (keys_pairwise wsets) (mem_ne_default wsets) s
  let s₂ : State := { s with pm := { s.pm with sets := sets₀ } }
  obtain ⟨slabs, hform₂, hslab, hnoslab⟩ := forEach_setSlab Slab.loaded (keys_pairwise wslabs) s₂
  let s₃ : State := { s₂ with pm := { s₂.pm with slabs := slabs } }
  obtain ⟨slots, sets, hform₃, htaken, hfree, hsets₃⟩ := forEach_take (l := a.slabs.flatMap slabTakes) (s := s₃)
    (by rw [takes_keys]; exact hn)
    (fun x hx => by
      obtain ⟨e, -, hx⟩ := List.mem_flatMap.1 hx
      exact slabTakes_taken x hx)
    (fun x _ => by
      have hempty : s₃.slot x.1 = Slot.free := congrArg (fun t => tableRead Slot.free t (slotKey x.1)) hslots
      rw [hempty]
      rfl)
  let s₄ : State := { s₃ with pm := { s₃.pm with slots := slots, sets := sets } }
  obtain ⟨volumes, hform₄, hvolume, hnovolume⟩ := forEach_loadVolume (keys_pairwise wvolumes) s₄
  have hset₃ (id : Nat) : s₃.set id = tableRead SetEntry.unused sets₀ id := rfl
  have hslab₄ (g : Nat) : tableRead Slab.unused slabs g = (a.slab g).loaded := by
    rcases tableRead_cases wslabs g with h | ⟨hdef, h⟩
    · exact hslab _ h
    · have hread : s.slab g = Slab.unused := congrArg (fun t => tableRead Slab.unused t g) hslabs
      rw [hnoslab g h, Account.slab, hdef]
      exact hread
  refine ⟨sets, slots, slabs, volumes, ?_, fun id hid => ?_, fun id d hid => ?_, htaken, fun k hk => ?_, hslab₄, fun v => ?_⟩
  · rw [hform₁, forEach_loadSlab, hform₂, hform₃, hform₄]
  · rcases tableRead_cases wsets id with h | ⟨-, h⟩
    · exact absurd hid (mem_ne_default wsets _ h)
    · have hread : s.set id = SetEntry.unused := congrArg (fun t => tableRead SetEntry.unused t id) hsets
      rw [hsets₃ id, hset₃, hunset id h, hread]
      exact unused_without _
  · rcases tableRead_cases wsets id with h | ⟨hdef, -⟩
    · rw [show tableRead none a.sets id = some d from hid] at h
      rw [hsets₃ id, hset₃, hset id d h, takes_of_set]
    · exact absurd (hdef.symm.trans hid) nofun
  · rw [hfree k (by rw [takes_keys]; exact hk)]
    exact congrArg (fun t => tableRead Slot.free t k) hslots
  · have hready (e : Volume) : e.readyIn s₄
        = ((List.range e.count).find? (fun k => (a.slab (e.base + k)).state = .filling)).getD e.count := by
      have hstate (g : Nat) : s₄.slab g = (a.slab g).loaded := hslab₄ g
      unfold Volume.readyIn
      simp only [hstate]
      rfl
    rcases tableRead_cases wvolumes v with h | ⟨hdef, h⟩
    · have hread : tableRead Volume.unused volumes v = _ := hvolume _ h
      rw [hread, hready]
      rfl
    · have hread : s₄.volume v = Volume.unused := congrArg (fun t => tableRead Volume.unused t v) hvolumes
      rw [hnovolume v h, hread, Account.volume, hdef]
      rfl

theorem withTables_withAccount (a : Account) (s : State) (sets : List (Nat × SetEntry)) (slots : List (Nat × Slot))
    (slabs : List (Nat × Slab)) (volumes : List (Nat × Volume)) :
    let u := (loadParams a.params s).onPm (fun m => { m with arrayId := a.arrayId, members := a.members })
    State.onMe (fun m => { m with damage := a.damage, lost := a.lost })
      { u with pm := { u.pm with sets := sets, slots := slots, slabs := slabs, volumes := volumes } }
      = s.withAccount a sets slots slabs volumes := by
  unfold loadParams State.onPm State.onMe State.onGu State.onDp State.onSm State.withAccount
  dsimp only

theorem loadAccount_tables {a : Account} {s : State} (hs : s.tablesEmpty) (hw : a.tablesWf)
    (hn : ((a.slabs.flatMap (fun e => e.2.home :: e.2.target.toList)).map slotKey).Nodup) :
    ∃ sets slots slabs volumes, loadAccount a s = s.withAccount a sets slots slabs volumes
      ∧ AccountTables a (s.withAccount a [] [] [] []) sets slots slabs volumes := by
  obtain ⟨sets, slots, slabs, volumes, hform, htables⟩ := forEach_loads (a := a)
    (s := (loadParams a.params s).onPm (fun m => { m with arrayId := a.arrayId, members := a.members })) hs hw hn
  refine ⟨sets, slots, slabs, volumes, ?_, htables.unset, fun id d hd => (htables.set id d hd).trans rfl, htables.taken, htables.free,
    htables.slab, htables.volume⟩
  rw [loadAccount_withAccount, hform]
  exact withTables_withAccount a s sets slots slabs volumes

/-- The lasting state that the replay leaves becomes the account in memory (R163). -/
theorem loadAccount_loads {a : Account} {s : State} (hsets : s.pm.sets = []) (hslots : s.pm.slots = []) (hslabs : s.pm.slabs = [])
    (hvolumes : s.pm.volumes = []) (wsets : tableWf none a.sets = true) (wslabs : tableWf Slab.unused a.slabs = true)
    (wvolumes : tableWf Volume.unused a.volumes = true) :
    let places : List Place := a.slabs.flatMap (fun e => e.2.home :: e.2.target.toList)
    (places.map slotKey).Nodup →
    let t := loadAccount a s
    let blocks := Machine.slabBlocks a.params.slabSize
    (∀ id, a.setDef id = none → t.set id = SetEntry.unused)
      ∧ (∀ id d, a.setDef id = some d →
          let w := d.positions.length
          let failed := (d.positions.filter (fun p => (a.member p.member).state = .failed)).length
          t.set id =
            { state := if failed = 0 then .online else if failed = 1 then .degraded else .failed,
              width := w, unit := d.unit, bandLength := d.bandLength, positions := d.positions,
              rows := rowsPerSlot blocks w d.unit, slots := slotCount blocks w d.unit d.bandLength,
              freeCount := slotCount blocks w d.unit d.bandLength - (places.filter (fun p => p.set = id)).length,
              failedCount := failed, retiring := false })
      ∧ (∀ e ∈ a.slabs, t.slot e.2.home = ⟨.home, 0, some e.1, none⟩
          ∧ ∀ p, e.2.target = some p → t.slot p = ⟨.target, 0, some e.1, none⟩)
      ∧ (∀ p, slotKey p ∉ places.map slotKey → t.slot p = Slot.free)
      ∧ (∀ g, t.slab g = { a.slab g with front := (a.slab g).persisted, mark := false })
      ∧ (∀ v, t.volume v = { a.volume v with
          ready := ((List.range (a.volume v).count).find?
            (fun k => (a.slab ((a.volume v).base + k)).state = .filling)).getD (a.volume v).count })
      ∧ t = { s with
          pm := { s.pm with
            arrayId := a.arrayId, slabSize := a.params.slabSize, members := a.members, sets := t.pm.sets,
            slots := t.pm.slots, slabs := t.pm.slabs, volumes := t.pm.volumes },
          gu := { s.gu with holdLife := a.params.holdLife }, dp := { s.dp with driveTmo := a.params.driveTmo },
          sm := { s.sm with pollPeriod := a.params.pollPeriod },
          me := { s.me with
            backoffBits := a.params.backoffBits, lockAfter := a.params.lockAfter, ckptRows := a.params.ckptRows,
            moveRate := a.params.moveRate, damage := a.damage, lost := a.lost } } := by
  intro places hn t blocks
  obtain ⟨sets, slots, slabs, volumes, hform, tables⟩ :=
    loadAccount_tables ⟨hsets, hslots, hslabs, hvolumes⟩ ⟨wsets, wslabs, wvolumes⟩ hn
  have ht : t = s.withAccount a sets slots slabs volumes := hform
  rw [ht]
  refine ⟨tables.unset, fun id d hd => (tables.set id d hd).trans rfl, fun e he => ⟨?_, fun p hp => ?_⟩, fun p hp => tables.free _ hp,
    tables.slab, tables.volume, rfl⟩
  · exact tables.taken (e.2.home, .home, e.1) (List.mem_flatMap.2 ⟨e, he, List.mem_cons_self⟩)
  · refine tables.taken (p, .target, e.1) (List.mem_flatMap.2 ⟨e, he, List.mem_cons_of_mem _ (List.mem_map.2 ⟨p, ?_, rfl⟩)⟩)
    rw [hp]
    exact List.mem_singleton.2 rfl

end Sys2Proof.Machine
end

section
/-! PROOFS. The fields of bytes laid out one after another, and the entries of an image read back (R156). -/

namespace Sys2Proof.Machine

/-! ## Fields laid out one after another -/

theorem drop_field {m i : Nat} (w : Nat) (rest : List Byte) (h : m ≤ i) : (beBytes m w ++ rest).drop i = rest.drop (i - m) := by
  rw [List.drop_append, List.drop_of_length_le (by rw [length_beBytes]; exact h), length_beBytes, List.nil_append]

theorem fieldAt_skip {m i : Nat} (w n : Nat) (rest : List Byte) (h : m ≤ i) :
    fieldAt (beBytes m w ++ rest) i n = fieldAt rest (i - m) n := by
  unfold fieldAt
  rw [drop_field w rest h]

theorem byteAt_skip {m i : Nat} (w : Nat) (rest : List Byte) (h : m ≤ i) : byteAt (beBytes m w ++ rest) i = byteAt rest (i - m) := by
  unfold byteAt
  rw [List.getD_eq_getElem?_getD, List.getD_eq_getElem?_getD, List.getElem?_append_right (by rw [length_beBytes]; exact h), length_beBytes]

theorem fieldAt_here {n v : Nat} (rest : List Byte) (h : v < 256 ^ n) : fieldAt (beBytes n v ++ rest) 0 n = v :=
  fieldAt_of_drop rfl h

theorem byteAt_here {v : Nat} (rest : List Byte) (h : v < 256) : byteAt (beBytes 1 v ++ rest) 0 = v := byteAt_of_drop rfl h

theorem boolByte_eq (b : Bool) : boolByte b = beBytes 1 b.toNat := by cases b <;> rfl

theorem zeroByte_eq : ([0] : List Byte) = beBytes 1 0 := rfl

theorem placeAt_skip {m i : Nat} (w : Nat) (rest : List Byte) (h : m ≤ i) : placeAt (beBytes m w ++ rest) i = placeAt rest (i - m) := by
  unfold placeAt
  rw [byteAt_skip w rest h, fieldAt_skip w 2 rest (by omega), Nat.sub_add_comm h]

theorem placeAt_here {p : Place} (rest : List Byte) (hs : p.set < 256) (hk : p.slot < 65536) :
    placeAt (beBytes 1 p.set ++ (beBytes 2 p.slot ++ rest)) 0 = p := by
  unfold placeAt
  rw [byteAt_here _ hs, fieldAt_skip _ _ _ (Nat.le_refl 1), fieldAt_here _ hk]

theorem toNat_field (w : BitVec 64) : w.toNat < 256 ^ 8 := w.isLt

theorem ofNat_toNat (w : BitVec 64) : BitVec.ofNat 64 w.toNat = w := BitVec.eq_of_toNat_eq (by simp)

/-! ## Lists of bands, positions and placements -/

theorem bandsAt_skip {m i : Nat} (w n : Nat) (rest : List Byte) (h : m ≤ i) :
    bandsAt (beBytes m w ++ rest) i n = bandsAt rest (i - m) n := by
  induction n generalizing i with
  | zero => rfl
  | succ n ih =>
    rw [bandsAt, bandsAt, byteAt_skip w rest h, fieldAt_skip w 6 rest (by omega), ih (by omega), Nat.sub_add_comm h, Nat.sub_add_comm h]

theorem bandsAt_here {bands : List Band} (h : ∀ b ∈ bands, b.set < 256 ∧ b.start < 2 ^ 48) (rest : List Byte) :
    bandsAt (bands.flatMap bandBytes ++ rest) 0 bands.length = bands := by
  induction bands with
  | nil => rfl
  | cons b bands ih =>
    obtain ⟨⟨hset, hstart⟩, hrest⟩ := List.forall_mem_cons.1 h
    rw [List.flatMap_cons, bandBytes, List.append_assoc, List.append_assoc, List.length_cons, bandsAt, byteAt_here _ hset,
      fieldAt_skip _ _ _ (Nat.le_refl 1), fieldAt_here _ (by simpa using hstart), bandsAt_skip _ _ _ (by decide),
      bandsAt_skip _ _ _ (by decide), ih hrest]

theorem positionsAt_skip {m i : Nat} (w n : Nat) (rest : List Byte) (h : m ≤ i) :
    positionsAt (beBytes m w ++ rest) i n = positionsAt rest (i - m) n := by
  induction n generalizing i with
  | zero => rfl
  | succ n ih =>
    rw [positionsAt, positionsAt, byteAt_skip w rest h, fieldAt_skip w 6 rest (by omega), ih (by omega), Nat.sub_add_comm h,
      Nat.sub_add_comm h]

theorem positionsAt_here {positions : List Position} (h : ∀ p ∈ positions, p.member < 256 ∧ p.start < 2 ^ 48) (rest : List Byte) :
    positionsAt (positions.flatMap positionBytes ++ rest) 0 positions.length = positions := by
  induction positions with
  | nil => rfl
  | cons p positions ih =>
    obtain ⟨⟨hmember, hstart⟩, hrest⟩ := List.forall_mem_cons.1 h
    rw [List.flatMap_cons, positionBytes, List.append_assoc, List.append_assoc, List.length_cons, positionsAt, byteAt_here _ hmember,
      fieldAt_skip _ _ _ (Nat.le_refl 1), fieldAt_here _ (by simpa using hstart), positionsAt_skip _ _ _ (by decide),
      positionsAt_skip _ _ _ (by decide), ih hrest]

theorem placementsAt_skip {m i : Nat} (w n : Nat) (rest : List Byte) (h : m ≤ i) :
    placementsAt (beBytes m w ++ rest) i n = placementsAt rest (i - m) n := by
  induction n generalizing i with
  | zero => rfl
  | succ n ih => rw [placementsAt, placementsAt, fieldAt_skip w 4 rest h, ih (by omega), Nat.sub_add_comm h]

theorem placementOf_packed {p : Placement} (hslab : p.slab < 16384) (hset : p.place.set < 64) (hslot : p.place.slot < 1024) :
    placementOf ((p.slab % 16384) * 65536 + (p.place.set % 64) * 1024 + p.place.slot % 1024) = p := by
  obtain ⟨slab, ⟨set, slot⟩⟩ := p
  dsimp only at hslab hset hslot ⊢
  unfold placementOf
  rw [Nat.mod_eq_of_lt hslab, Nat.mod_eq_of_lt hset, Nat.mod_eq_of_lt hslot]
  congr 1
  · omega
  · congr 1 <;> omega

theorem placementsAt_here {placements : List Placement}
    (h : ∀ p ∈ placements, p.slab < 16384 ∧ p.place.set < 64 ∧ p.place.slot < 1024) (rest : List Byte) :
    placementsAt (placements.flatMap placementBytes ++ rest) 0 placements.length = placements := by
  induction placements with
  | nil => rfl
  | cons p placements ih =>
    obtain ⟨⟨hslab, hset, hslot⟩, hrest⟩ := List.forall_mem_cons.1 h
    have hlt : (p.slab % 16384) * 65536 + (p.place.set % 64) * 1024 + p.place.slot % 1024 < 256 ^ 4 := by omega
    rw [List.flatMap_cons, placementBytes, List.append_assoc, List.length_cons, placementsAt, fieldAt_here _ hlt,
      placementOf_packed hslab hset hslot, placementsAt_skip _ _ _ (by decide), ih hrest]

/-! ## A table rebuilt entry by entry -/

theorem tableInsert_last {α : Type} {t : List (Nat × α)} {k : Nat} {v : α} (h : ∀ e ∈ t, e.1 < k) : tableInsert t k v = t ++ [(k, v)] := by
  induction t with
  | nil => rfl
  | cons e rest ih =>
    obtain ⟨hfirst, hrest⟩ := List.forall_mem_cons.1 h
    rw [tableInsert, if_neg (by omega), ih hrest, List.cons_append]

/-- An entry beyond the last one joins the table at its end. -/
theorem tableWrite_last {α : Type} [DecidableEq α] {d : α} {pre rest : List (Nat × α)} {e : Nat × α}
    (hw : tableWf d (pre ++ e :: rest) = true) : tableWrite d pre e.1 e.2 = pre ++ [e] := by
  have hkeys : ∀ x ∈ pre, x.1 < e.1 := by
    have hp := keys_pairwise hw
    rw [List.map_append, List.pairwise_append] at hp
    exact fun x hx => hp.2.2 x.1 (List.mem_map_of_mem hx) e.1 List.mem_cons_self
  have hne : e.2 ≠ d := mem_ne_default hw e (List.mem_append_right _ List.mem_cons_self)
  unfold tableWrite
  rw [if_neg hne, tableErase_of_not_mem fun w hw => absurd (hkeys _ hw) (Nat.lt_irrefl _), tableInsert_last hkeys]

end Sys2Proof.Machine
end

section
/-! PROOFS. The image of a lasting state is read back as that state (R149, R156). -/

namespace Sys2Proof.Machine

/-! ## The members -/

theorem memberFlags {m : Member} (hst : m.state = .available ∨ m.state = .active ∨ m.state = .failed) (hb : m.bands.length ≤ 4) :
    let flags := memberStateCode m.state * 16 + m.bands.length * 2 + (if m.formatOk then 1 else 0)
    flags < 256 ∧ memberStateOf (flags / 16) = m.state ∧ (flags % 2 != 0) = m.formatOk ∧ flags / 2 % 8 = m.bands.length := by
  intro flags
  obtain ⟨c, hc, hcode, hof⟩ : ∃ c, c < 6 ∧ memberStateCode m.state = c ∧ memberStateOf c = m.state := by
    rcases hst with h | h | h <;> rw [h] <;> exact ⟨_, by decide, rfl, rfl⟩
  obtain ⟨b, hbit, hb01⟩ : ∃ b, (if m.formatOk = true then 1 else 0) = b ∧ (b = 1 ∧ m.formatOk = true ∨ b = 0 ∧ m.formatOk = false) := by
    cases m.formatOk
    · exact ⟨0, rfl, Or.inr ⟨rfl, rfl⟩⟩
    · exact ⟨1, rfl, Or.inl ⟨rfl, rfl⟩⟩
  have hflags : flags = c * 16 + m.bands.length * 2 + b := by
    show memberStateCode m.state * 16 + m.bands.length * 2 + (if m.formatOk = true then 1 else 0) = _
    rw [hcode, hbit]
  have hb2 : b < 2 := by omega
  have hdiv : flags / 16 = c := by omega
  refine ⟨by omega, by rw [hdiv, hof], ?_, by omega⟩
  have hmod : flags % 2 = b := by omega
  rw [hmod]
  rcases hb01 with ⟨rfl, hf⟩ | ⟨rfl, hf⟩ <;> rw [hf] <;> rfl

/-- An admitted member's entry spells the member. -/
theorem memberEntry_read {id q : Nat} {m : Member} (rest : List Byte) (hid : id < 256)
    (hst : m.state = .available ∨ m.state = .active ∨ m.state = .failed) (hc : m.capacity < 2 ^ 48) (hb : m.bands.length ≤ 4)
    (hbands : ∀ b ∈ m.bands, b.set < 256 ∧ b.start < 2 ^ 48) (hq : m.labelSeq = some q) (hlt : q < 2 ^ 32) :
    let bytes := memberEntry (id, m) ++ rest
    let flags := byteAt bytes 1
    byteAt bytes 0 = id ∧ (⟨memberStateOf (flags / 16), fieldAt bytes 2 6, flags % 2 != 0, bandsAt bytes 12 (flags / 2 % 8),
      some (fieldAt bytes 8 4)⟩ : Member) = m := by
  intro bytes flags
  obtain ⟨hflt, hstate, hformat, hcount⟩ := memberFlags hst hb
  have hbytes : bytes = beBytes 1 id ++ (beBytes 1 (memberStateCode m.state * 16 + m.bands.length * 2 + (if m.formatOk then 1 else 0))
      ++ (beBytes 6 m.capacity ++ (beBytes 4 q ++ (m.bands.flatMap bandBytes
      ++ (List.replicate (28 - 7 * m.bands.length) 0 ++ rest))))) := by
    show memberEntry (id, m) ++ rest = _
    unfold memberEntry
    simp only [List.append_assoc, List.take_of_length_le hb, hq, Option.getD_some]
  have hflags : flags = memberStateCode m.state * 16 + m.bands.length * 2 + (if m.formatOk then 1 else 0) := by
    show byteAt bytes 1 = _
    rw [hbytes, byteAt_skip _ _ (Nat.le_refl 1), byteAt_here _ hflt]
  have hcapacity : fieldAt bytes 2 6 = m.capacity := by
    rw [hbytes, fieldAt_skip _ _ _ (by decide), fieldAt_skip _ _ _ (by decide), fieldAt_here _ (by simpa using hc)]
  have hlabel : fieldAt bytes 8 4 = q := by
    rw [hbytes, fieldAt_skip _ _ _ (by decide), fieldAt_skip _ _ _ (by decide), fieldAt_skip _ _ _ (by decide),
      fieldAt_here _ (by simpa using hlt)]
  have hlist : bandsAt bytes 12 m.bands.length = m.bands := by
    rw [hbytes, bandsAt_skip _ _ _ (by decide), bandsAt_skip _ _ _ (by decide), bandsAt_skip _ _ _ (by decide),
      bandsAt_skip _ _ _ (by decide), bandsAt_here hbands]
  refine ⟨by rw [hbytes, byteAt_here _ hid], ?_⟩
  rw [hflags, hstate, hcapacity, hformat, hcount, hlist, hlabel, ← hq]

theorem readMembers_eq {l pre : List (Nat × Member)} {a : Account} {rest : List Byte} (hw : tableWf Member.absent (pre ++ l) = true)
    (hl : ∀ e ∈ l, e.1 < 256 ∧ (e.2.state = .available ∨ e.2.state = .active ∨ e.2.state = .failed)
        ∧ e.2.capacity < 2 ^ 48 ∧ e.2.bands.length ≤ 4 ∧ (∀ b ∈ e.2.bands, b.set < 256 ∧ b.start < 2 ^ 48)
        ∧ ∃ q, e.2.labelSeq = some q ∧ q < 2 ^ 32) :
    readMembers l.length ((l.map memberEntry).flatten ++ rest) { a with members := pre } = ({ a with members := pre ++ l }, rest) := by
  induction l generalizing pre with
  | nil => rw [List.append_nil]; rfl
  | cons e l ih =>
    obtain ⟨⟨hid, hst, hc, hb, hbands, q, hq, hlt⟩, hall⟩ := List.forall_mem_cons.1 hl
    obtain ⟨hkey, hmember⟩ := memberEntry_read ((l.map memberEntry).flatten ++ rest) hid hst hc hb hbands hq hlt
    have hwrite : tableWrite Member.absent pre e.1 e.2 = pre ++ [e] := tableWrite_last hw
    rw [List.map_cons, List.flatten_cons, List.append_assoc, List.length_cons, readMembers, hkey, hmember,
      List.drop_left' (length_memberEntry e)]
    have hset : ({ a with members := pre } : Account).setMember e.1 e.2 = { a with members := pre ++ [e] } :=
      congrArg (fun t => { a with members := t }) hwrite
    rw [hset, ih (by rw [← List.append_cons]; exact hw) hall, List.append_assoc, List.singleton_append]

/-! ## The sets -/

theorem length_setEntryBytes_some (id : Nat) (d : SetDef) : (setEntryBytes (id, some d)).length = 10 + 7 * d.positions.length := by
  simp only [setEntryBytes, List.length_append, length_beBytes, length_flatMap_eq length_positionBytes, List.length_cons,
    List.length_nil]

theorem setEntryBytes_read {id : Nat} {d : SetDef} (rest : List Byte) (hid : id < 256) (hu : d.unit < 256) (hb : d.bandLength < 2 ^ 48)
    (hn : d.positions.length ≤ 16) (hp : ∀ p ∈ d.positions, p.member < 256 ∧ p.start < 2 ^ 48) :
    let bytes := setEntryBytes (id, some d) ++ rest
    byteAt bytes 8 = d.positions.length ∧ byteAt bytes 0 = id
      ∧ (⟨byteAt bytes 1, fieldAt bytes 2 6, positionsAt bytes 10 d.positions.length⟩ : SetDef) = d := by
  intro bytes
  have hbytes : bytes = beBytes 1 id ++ (beBytes 1 d.unit ++ (beBytes 6 d.bandLength ++ (beBytes 1 d.positions.length
      ++ (beBytes 1 0 ++ (d.positions.flatMap positionBytes ++ rest))))) := by
    show setEntryBytes (id, some d) ++ rest = _
    simp only [setEntryBytes, List.append_assoc, zeroByte_eq]
  have hwidth : byteAt bytes 8 = d.positions.length := by
    rw [hbytes, byteAt_skip _ _ (by decide), byteAt_skip _ _ (by decide), byteAt_skip _ _ (by decide), byteAt_here _ (by omega)]
  have hunit : byteAt bytes 1 = d.unit := by rw [hbytes, byteAt_skip _ _ (Nat.le_refl 1), byteAt_here _ hu]
  have hband : fieldAt bytes 2 6 = d.bandLength := by
    rw [hbytes, fieldAt_skip _ _ _ (by decide), fieldAt_skip _ _ _ (by decide), fieldAt_here _ (by simpa using hb)]
  have hlist : positionsAt bytes 10 d.positions.length = d.positions := by
    rw [hbytes, positionsAt_skip _ _ _ (by decide), positionsAt_skip _ _ _ (by decide), positionsAt_skip _ _ _ (by decide),
      positionsAt_skip _ _ _ (by decide), positionsAt_skip _ _ _ (by decide), positionsAt_here hp]
  exact ⟨hwidth, by rw [hbytes, byteAt_here _ hid], by rw [hunit, hband, hlist]⟩

theorem readSets_eq {l pre : List (Nat × Option SetDef)} {a : Account} {rest : List Byte} (hw : tableWf none (pre ++ l) = true)
    (hl : ∀ e ∈ l, ∀ d, e.2 = some d → e.1 < 256 ∧ d.unit < 256 ∧ d.bandLength < 2 ^ 48 ∧ d.positions.length ≤ 16
        ∧ ∀ p ∈ d.positions, p.member < 256 ∧ p.start < 2 ^ 48) :
    readSets l.length ((l.map setEntryBytes).flatten ++ rest) { a with sets := pre } = ({ a with sets := pre ++ l }, rest) := by
  induction l generalizing pre with
  | nil => rw [List.append_nil]; rfl
  | cons e l ih =>
    obtain ⟨id, o⟩ := e
    obtain ⟨d, rfl⟩ := Option.ne_none_iff_exists'.1 (mem_ne_default hw _ (List.mem_append_right pre List.mem_cons_self))
    obtain ⟨hfirst, hall⟩ := List.forall_mem_cons.1 hl
    obtain ⟨hid, hu, hb, hn, hp⟩ := hfirst d rfl
    obtain ⟨hwidth, hkey, hdef⟩ := setEntryBytes_read ((l.map setEntryBytes).flatten ++ rest) hid hu hb hn hp
    have hwrite : tableWrite none pre id (some d) = pre ++ [(id, some d)] := tableWrite_last hw
    rw [List.map_cons, List.flatten_cons, List.append_assoc, List.length_cons, readSets]
    dsimp only
    rw [hwidth, hkey, hdef, List.drop_left' (length_setEntryBytes_some id d), hwrite, ih (by rw [← List.append_cons]; exact hw) hall, List.append_assoc,
      List.singleton_append]

/-! ## The volumes -/

theorem volumeEntry_read {id : Nat} {v : Volume} (rest : List Byte) (hid : id < 256) (hst : v.state = .online) (hb : v.base < 65536)
    (hl : v.limit < 65536) (hc : v.count < 65536) (hr : v.ready = 0) :
    let bytes := volumeEntry (id, v) ++ rest
    byteAt bytes 0 = id ∧ (⟨.online, fieldAt bytes 1 2, fieldAt bytes 3 2, fieldAt bytes 5 2, 0, BitVec.ofNat 64 (fieldAt bytes 7 8)⟩
      : Volume) = v := by
  intro bytes
  have hbytes : bytes = beBytes 1 id ++ (beBytes 2 v.base ++ (beBytes 2 v.limit ++ (beBytes 2 v.count
      ++ (beBytes 8 v.pool.toNat ++ (List.replicate 5 0 ++ rest))))) := by
    show volumeEntry (id, v) ++ rest = _
    simp only [volumeEntry, List.append_assoc]
  have hbase : fieldAt bytes 1 2 = v.base := by rw [hbytes, fieldAt_skip _ _ _ (Nat.le_refl 1), fieldAt_here _ hb]
  have hlimit : fieldAt bytes 3 2 = v.limit := by
    rw [hbytes, fieldAt_skip _ _ _ (by decide), fieldAt_skip _ _ _ (by decide), fieldAt_here _ hl]
  have hcount : fieldAt bytes 5 2 = v.count := by
    rw [hbytes, fieldAt_skip _ _ _ (by decide), fieldAt_skip _ _ _ (by decide), fieldAt_skip _ _ _ (by decide), fieldAt_here _ hc]
  have hpool : fieldAt bytes 7 8 = v.pool.toNat := by
    rw [hbytes, fieldAt_skip _ _ _ (by decide), fieldAt_skip _ _ _ (by decide), fieldAt_skip _ _ _ (by decide),
      fieldAt_skip _ _ _ (by decide), fieldAt_here _ (toNat_field v.pool)]
  exact ⟨by rw [hbytes, byteAt_here _ hid], by rw [hbase, hlimit, hcount, hpool, ofNat_toNat, ← hst, ← hr]⟩

theorem readVolumes_eq {l pre : List (Nat × Volume)} {a : Account} {rest : List Byte} (hw : tableWf Volume.unused (pre ++ l) = true)
    (hl : ∀ e ∈ l, e.1 < 256 ∧ e.2.state = .online ∧ e.2.base < 65536 ∧ e.2.limit < 65536 ∧ e.2.count < 65536 ∧ e.2.ready = 0) :
    readVolumes l.length ((l.map volumeEntry).flatten ++ rest) { a with volumes := pre } = ({ a with volumes := pre ++ l }, rest) := by
  induction l generalizing pre with
  | nil => rw [List.append_nil]; rfl
  | cons e l ih =>
    obtain ⟨⟨hid, hst, hb, hlim, hc, hr⟩, hall⟩ := List.forall_mem_cons.1 hl
    obtain ⟨hkey, hvol⟩ := volumeEntry_read ((l.map volumeEntry).flatten ++ rest) hid hst hb hlim hc hr
    have hwrite : tableWrite Volume.unused pre e.1 e.2 = pre ++ [e] := tableWrite_last hw
    rw [List.map_cons, List.flatten_cons, List.append_assoc, List.length_cons, readVolumes, hkey, hvol,
      List.drop_left' (length_volumeEntry e)]
    dsimp only
    rw [hwrite, ih (by rw [← List.append_cons]; exact hw) hall, List.append_assoc, List.singleton_append]

/-! ## The slabs -/

theorem slabState_read {st : SlabState} (h : st = .filling ∨ st = .live ∨ st = .moving) :
    slabStateCode st < 256 ∧ slabStateOf (slabStateCode st) = st := by
  rcases h with rfl | rfl | rfl <;> exact ⟨by decide, rfl⟩

theorem toNat_flag (b : Bool) : b.toNat < 256 ∧ (b.toNat != 0) = b := by cases b <;> exact ⟨by decide, rfl⟩

theorem slabEntry_read {g : Nat} {e : Slab} (rest : List Byte) (hg : g < 65536)
    (hst : e.state = .filling ∨ e.state = .live ∨ e.state = .moving) (hv : e.volume < 256)
    (hp : ∀ p ∈ e.home :: e.target.toList, p.set < 256 ∧ p.slot < 65536) (hfront : e.front = 0) (hper : e.persisted < 2 ^ 32)
    (hmark : e.mark = false) :
    let bytes := slabEntry (g, e) ++ rest
    fieldAt bytes 0 2 = g ∧
      ({ state := slabStateOf (byteAt bytes 2), volume := byteAt bytes 3, home := placeAt bytes 4,
         target := if byteAt bytes 7 = 0 then none else some (placeAt bytes 8), front := 0,
         persisted := fieldAt bytes 11 4, mark := false, salvage := byteAt bytes 15 != 0 } : Slab) = e := by
  intro bytes
  obtain ⟨⟨hset, hslot⟩, htargets⟩ := List.forall_mem_cons.1 hp
  obtain ⟨hcode, hof⟩ := slabState_read hst
  obtain ⟨hsome, -⟩ := toNat_flag e.target.isSome
  obtain ⟨hsalv, hsalvage⟩ := toNat_flag e.salvage
  have hbytes : bytes = beBytes 2 g ++ (beBytes 1 (slabStateCode e.state) ++ (beBytes 1 e.volume ++ (beBytes 1 e.home.set
      ++ (beBytes 2 e.home.slot ++ (beBytes 1 e.target.isSome.toNat ++ (beBytes 1 (e.target.getD ⟨0, 0⟩).set
      ++ (beBytes 2 (e.target.getD ⟨0, 0⟩).slot ++ (beBytes 4 e.persisted ++ (beBytes 1 e.salvage.toNat ++ rest))))))))) := by
    show slabEntry (g, e) ++ rest = _
    simp only [slabEntry, placeBytes, boolByte_eq, List.append_assoc]
  have hstate : byteAt bytes 2 = slabStateCode e.state := by
    rw [hbytes, byteAt_skip _ _ (Nat.le_refl 2), byteAt_here _ hcode]
  have hvolume : byteAt bytes 3 = e.volume := by
    rw [hbytes, byteAt_skip _ _ (by decide), byteAt_skip _ _ (by decide), byteAt_here _ hv]
  have hhome : placeAt bytes 4 = e.home := by
    rw [hbytes, placeAt_skip _ _ (by decide), placeAt_skip _ _ (by decide), placeAt_skip _ _ (by decide), placeAt_here _ hset hslot]
  have hflag : byteAt bytes 7 = e.target.isSome.toNat := by
    rw [hbytes, byteAt_skip _ _ (by decide), byteAt_skip _ _ (by decide), byteAt_skip _ _ (by decide), byteAt_skip _ _ (by decide),
      byteAt_skip _ _ (by decide), byteAt_here _ hsome]
  have htarget : (if byteAt bytes 7 = 0 then none else some (placeAt bytes 8)) = e.target := by
    rw [hflag]
    have hplace : (∀ p, e.target = some p → p.set < 256 ∧ p.slot < 65536) := fun p hp => htargets p (by rw [hp]; exact List.mem_singleton.2 rfl)
    cases ht : e.target with
    | none => rfl
    | some p =>
      obtain ⟨hps, hpk⟩ := hplace p ht
      rw [if_neg (by exact Nat.one_ne_zero), hbytes, ht, placeAt_skip _ _ (by decide), placeAt_skip _ _ (by decide),
        placeAt_skip _ _ (by decide), placeAt_skip _ _ (by decide), placeAt_skip _ _ (by decide), placeAt_skip _ _ (by decide)]
      exact congrArg some (placeAt_here _ hps hpk)
  have hskip (n i : Nat) (hi : 11 ≤ i) : fieldAt bytes i n
      = fieldAt (beBytes 4 e.persisted ++ (beBytes 1 e.salvage.toNat ++ rest)) (i - 11) n := by
    rw [hbytes, fieldAt_skip _ _ _ (by omega), fieldAt_skip _ _ _ (by omega), fieldAt_skip _ _ _ (by omega),
      fieldAt_skip _ _ _ (by omega), fieldAt_skip _ _ _ (by omega), fieldAt_skip _ _ _ (by omega), fieldAt_skip _ _ _ (by omega),
      fieldAt_skip _ _ _ (by omega)]
    congr 1
  have hpersisted : fieldAt bytes 11 4 = e.persisted := by rw [hskip 4 11 (Nat.le_refl 11), fieldAt_here _ (by simpa using hper)]
  have hsalvageAt : byteAt bytes 15 = e.salvage.toNat := by
    rw [hbytes, byteAt_skip _ _ (by decide), byteAt_skip _ _ (by decide), byteAt_skip _ _ (by decide), byteAt_skip _ _ (by decide),
      byteAt_skip _ _ (by decide), byteAt_skip _ _ (by decide), byteAt_skip _ _ (by decide), byteAt_skip _ _ (by decide),
      byteAt_skip _ _ (by decide), byteAt_here _ hsalv]
  refine ⟨by rw [hbytes, fieldAt_here _ hg], ?_⟩
  rw [hstate, hof, hvolume, hhome, htarget, hpersisted, hsalvageAt, hsalvage]
  obtain ⟨state, volume, home, target, front, persisted, mark, salvage⟩ := e
  dsimp only at hfront hmark
  subst hfront hmark
  rfl

theorem readSlabs_eq {l pre : List (Nat × Slab)} {a : Account} {rest : List Byte} (hw : tableWf Slab.unused (pre ++ l) = true)
    (hl : ∀ e ∈ l, e.1 < 65536 ∧ (e.2.state = .filling ∨ e.2.state = .live ∨ e.2.state = .moving) ∧ e.2.volume < 256
        ∧ (∀ p ∈ e.2.home :: e.2.target.toList, p.set < 256 ∧ p.slot < 65536) ∧ e.2.front = 0 ∧ e.2.persisted < 2 ^ 32
        ∧ e.2.mark = false) :
    readSlabs l.length ((l.map slabEntry).flatten ++ rest) { a with slabs := pre } = ({ a with slabs := pre ++ l }, rest) := by
  induction l generalizing pre with
  | nil => rw [List.append_nil]; rfl
  | cons e l ih =>
    obtain ⟨⟨hg, hst, hv, hp, hfront, hper, hmark⟩, hall⟩ := List.forall_mem_cons.1 hl
    obtain ⟨hkey, hslab⟩ := slabEntry_read ((l.map slabEntry).flatten ++ rest) hg hst hv hp hfront hper hmark
    have hwrite : tableWrite Slab.unused pre e.1 e.2 = pre ++ [e] := tableWrite_last hw
    rw [List.map_cons, List.flatten_cons, List.append_assoc, List.length_cons, readSlabs, hkey, hslab,
      List.drop_left' (length_slabEntry e)]
    have hset : ({ a with slabs := pre } : Account).setSlab e.1 e.2 = { a with slabs := pre ++ [e] } :=
      congrArg (fun t => { a with slabs := t }) hwrite
    rw [hset, ih (by rw [← List.append_cons]; exact hw) hall, List.append_assoc, List.singleton_append]

/-! ## The Damage List -/

theorem damageCause_read (c : DamageCause) : c.code < 256 ∧ DamageCause.ofCode c.code = c := by cases c <;> exact ⟨by decide, rfl⟩

theorem damageEntry_read {d : Damage} (rest : List Byte) (hv : d.volume < 256) (hf : d.first < 2 ^ 64) (hc : d.count < 2 ^ 32) :
    let bytes := damageEntry d ++ rest
    (⟨byteAt bytes 0, fieldAt bytes 1 8, fieldAt bytes 9 4, DamageCause.ofCode (byteAt bytes 13)⟩ : Damage) = d := by
  intro bytes
  obtain ⟨hcode, hof⟩ := damageCause_read d.cause
  have hbytes : bytes = beBytes 1 d.volume ++ (beBytes 8 d.first ++ (beBytes 4 d.count ++ (beBytes 1 d.cause.code ++ rest))) := by
    show damageEntry d ++ rest = _
    simp only [damageEntry, List.append_assoc]
  have hfirst : fieldAt bytes 1 8 = d.first := by rw [hbytes, fieldAt_skip _ _ _ (Nat.le_refl 1), fieldAt_here _ (by simpa using hf)]
  have hcount : fieldAt bytes 9 4 = d.count := by
    rw [hbytes, fieldAt_skip _ _ _ (by decide), fieldAt_skip _ _ _ (by decide), fieldAt_here _ (by simpa using hc)]
  have hcause : byteAt bytes 13 = d.cause.code := by
    rw [hbytes, byteAt_skip _ _ (by decide), byteAt_skip _ _ (by decide), byteAt_skip _ _ (by decide), byteAt_here _ hcode]
  rw [hfirst, hcount, hcause, hof, hbytes, byteAt_here _ hv]

theorem readDamage_eq {l : List Damage} (h : ∀ d ∈ l, d.volume < 256 ∧ d.first < 2 ^ 64 ∧ d.count < 2 ^ 32) (rest : List Byte) :
    readDamage l.length ((l.map damageEntry).flatten ++ rest) = l := by
  induction l with
  | nil => rfl
  | cons d l ih =>
    obtain ⟨⟨hv, hf, hc⟩, hall⟩ := List.forall_mem_cons.1 h
    rw [List.map_cons, List.flatten_cons, List.append_assoc, List.length_cons, readDamage, damageEntry_read _ hv hf hc,
      List.drop_left' (length_damageEntry d), ih hall]

end Sys2Proof.Machine
end

section
/-! PROOFS. An image's Damage List and growth, and the image read back whole (R120, R121, R156). -/

namespace Sys2Proof.Machine

/-! ## Ranges added at the end of the list -/

/-- No entry of the volume reaches into a range: the range is uncovered whole (R121). -/
theorem uncovered_whole {volume first stop : Nat} {l : List Damage} (hlt : first < stop)
    (h : ∀ e ∈ l, e.volume = volume → e.first < e.stop ∧ e.stop ≤ first) : uncovered volume l first stop = [(first, stop)] := by
  induction l with
  | nil => exact if_pos hlt
  | cons e rest ih =>
    obtain ⟨he, hrest⟩ := List.forall_mem_cons.1 h
    rw [uncovered]
    split
    · next hv =>
      obtain ⟨hpos, hle⟩ := he hv
      rw [if_neg (by omega), Nat.max_eq_left hle, ih hrest]
      rfl
    · exact ih hrest

theorem damageInsert_last {d : Damage} {l : List Damage} (h : ∀ e ∈ l, ¬(d.volume < e.volume ∨ (d.volume = e.volume ∧ d.first < e.first))) :
    damageInsert d l = l ++ [d] := by
  induction l with
  | nil => rfl
  | cons e rest ih =>
    obtain ⟨he, hrest⟩ := List.forall_mem_cons.1 h
    rw [damageInsert, if_neg he, ih hrest, List.cons_append]

/-- A range behind every entry, touching none of its cause, joins the list as it is. -/
theorem damageAdd_last {d : Damage} {l : List Damage} (hd : 1 ≤ d.count) (hl : l.length < 1024) (hcounts : ∀ e ∈ l, 1 ≤ e.count)
    (hbefore : ∀ e ∈ l, e.before d) (hapart : ∀ e ∈ l, e.volume = d.volume → e.cause = d.cause → e.stop ≠ d.first) :
    damageAdd d l = (l ++ [d], 0) := by
  have hstop : d.first < d.stop := Nat.lt_add_of_pos_right hd
  have hends : ∀ e ∈ l, e.volume = d.volume → e.first < e.stop ∧ e.stop ≤ d.first := fun e he hv => by
    refine ⟨Nat.lt_add_of_pos_right (hcounts e he), ?_⟩
    rcases hbefore e he with h | ⟨-, h⟩
    · omega
    · exact h
  have hleft : l.find? (fun e => e.volume = d.volume && e.cause = d.cause && e.stop = d.first && d.stop - e.first ≤ maxDamageCount) = none := by
    refine List.find?_eq_none.2 fun e he h => ?_
    simp only [Bool.and_eq_true, decide_eq_true_eq] at h
    obtain ⟨⟨⟨hv, hc⟩, hs⟩, -⟩ := h
    exact hapart e he hv hc hs
  have hright : l.find? (fun e => e.volume = d.volume && e.cause = d.cause && e.first = d.stop && e.stop - d.first ≤ maxDamageCount) = none := by
    refine List.find?_eq_none.2 fun e he h => ?_
    simp only [Bool.and_eq_true, decide_eq_true_eq] at h
    obtain ⟨⟨⟨hv, -⟩, hf⟩, -⟩ := h
    obtain ⟨hpos, hle⟩ := hends e he hv
    omega
  have hself : (⟨d.volume, d.first, d.stop - d.first, d.cause⟩ : Damage) = d := by
    rw [Damage.stop, Nat.add_sub_cancel_left]
  have hinsert : damageInsert d l = l ++ [d] := damageInsert_last fun e he h => by
    rcases hbefore e he with hb | ⟨hv, hb⟩
    · omega
    · have := hcounts e he
      unfold Damage.stop at hb
      omega
  have hpart : addPart d.volume d.cause d.first d.stop l = (l ++ [d], false) := by
    unfold addPart
    dsimp only
    rw [hleft, hright]
    dsimp only
    rw [if_pos (show l.length < Config.maxDamage from hl), hself, hinsert]
  unfold damageAdd
  rw [uncovered_whole hstop hends, addParts, hpart]
  rfl

theorem foldl_damageAdd {l pre : List Damage} (hf : damageFormed (pre ++ l))
    (hapart : (pre ++ l).Pairwise (fun d e => d.volume = e.volume → d.cause = e.cause → d.stop ≠ e.first)) :
    l.foldl (fun l d => (damageAdd d l).1) pre = pre ++ l := by
  induction l generalizing pre with
  | nil => exact (List.append_nil pre).symm
  | cons d l ih =>
    have hsplit : pre ++ d :: l = pre ++ [d] ++ l := List.append_cons ..
    obtain ⟨hlen, hcounts, hpairs⟩ := hf
    have hbefore := (List.pairwise_append.1 hpairs).2.2
    have hpart := (List.pairwise_append.1 hapart).2.2
    have hadd : damageAdd d pre = (pre ++ [d], 0) := by
      refine damageAdd_last (hcounts d (List.mem_append_right _ List.mem_cons_self)) ?_
        (fun e he => hcounts e (List.mem_append_left _ he)) (fun e he => hbefore e he d List.mem_cons_self)
        (fun e he => hpart e he d List.mem_cons_self)
      rw [List.length_append, List.length_cons] at hlen
      have hmax : Config.maxDamage = 1024 := rfl
      omega
    rw [List.foldl_cons, hadd, ih (by rw [← hsplit]; exact ⟨hlen, hcounts, hpairs⟩) (by rw [← hsplit]; exact hapart), hsplit]

theorem addAll_self {l : List Damage} (hf : damageFormed l)
    (hapart : l.Pairwise (fun d e => d.volume = e.volume → d.cause = e.cause → d.stop ≠ e.first)) : addAll l = l :=
  foldl_damageAdd (pre := []) hf hapart

/-! ## The open growth -/

/-- The parts of an image that hold the open growth. -/
def growthParts (growth : Option OpenGrowth) : List (List Byte) :=
  growth.elim [] fun g => (RecordBody.growOpen g.volume g.old g.new g.pool).payload
    :: g.parts.map (fun placements => placements.flatMap placementBytes)

theorem imageParts_eq (a : Account) : a.imageParts = a.tableParts ++ growthParts a.growth := by
  cases h : a.growth with
  | none => rw [imageParts_none h]; exact (List.append_nil _).symm
  | some g => exact imageParts_some h

theorem length_growthParts (a : Account) : (growthParts a.growth).length = a.imageCounts.growth := by
  cases h : a.growth with
  | none => rw [imageCounts_none h]; rfl
  | some g =>
    rw [imageCounts_some h]
    show (_ :: g.parts.map _).length = g.parts.length + 1
    rw [List.length_cons, List.length_map]

theorem imageCounts_tables (a : Account) : a.imageCounts.members = a.members.length ∧ a.imageCounts.sets = a.sets.length
    ∧ a.imageCounts.volumes = a.volumes.length ∧ a.imageCounts.slabs = a.slabs.length ∧ a.imageCounts.damage = a.damage.length :=
  ⟨rfl, rfl, rfl, rfl, rfl⟩

theorem readGrowth_parts {growth : Option OpenGrowth} (h : ∀ g, growth = some g → g.volume < 256 ∧ g.old < 65536 ∧ g.new < 65536
      ∧ ∀ placements ∈ g.parts, ∀ p ∈ placements, p.slab < 16384 ∧ p.place.set < 64 ∧ p.place.slot < 1024) :
    readGrowth (growthParts growth) = growth := by
  cases growth with
  | none => rfl
  | some g =>
    obtain ⟨hv, ho, hn, hparts⟩ := h g rfl
    have hbytes : (RecordBody.growOpen g.volume g.old g.new g.pool).payload
        = beBytes 1 g.volume ++ (beBytes 2 g.old ++ (beBytes 2 g.new ++ (beBytes 8 g.pool.toNat ++ []))) := by
      rw [RecordBody.payload, List.append_nil, List.append_assoc, List.append_assoc]
    have hplacements : (g.parts.map (fun placements => placements.flatMap placementBytes)).map
        (fun p => placementsAt p 0 (p.length / 4)) = g.parts := by
      rw [List.map_map]
      refine (List.map_congr_left fun placements hp => ?_).trans (List.map_id _)
      show placementsAt (placements.flatMap placementBytes) 0 ((placements.flatMap placementBytes).length / 4) = placements
      rw [length_flatMap_eq length_placementBytes, Nat.mul_div_cancel_left _ (by decide)]
      have hread := placementsAt_here (hparts placements hp) []
      rw [List.append_nil] at hread
      exact hread
    show some (OpenGrowth.mk _ _ _ _ _) = some g
    rw [hplacements, hbytes, byteAt_here _ hv, fieldAt_skip _ _ _ (Nat.le_refl 1), fieldAt_here _ ho, fieldAt_skip _ _ _ (by decide),
      fieldAt_skip _ _ _ (by decide), fieldAt_here _ hn, fieldAt_skip _ _ _ (by decide), fieldAt_skip _ _ _ (by decide),
      fieldAt_skip _ _ _ (by decide), fieldAt_here _ (toNat_field g.pool), ofNat_toNat]

/-! ## The image read back -/

/-- A lasting state with its scalars alone. -/
def Account.scalars (a : Account) : Account :=
  { Account.fresh with arrayId := a.arrayId, params := a.params, bad := a.bad, lost := a.lost }

theorem readTables {a : Account} (h : a.fitsImage) :
    let r := readMembers a.members.length a.tableParts.flatten a.scalars
    let r := readSets a.sets.length r.2 r.1
    let r := readVolumes a.volumes.length r.2 r.1
    readSlabs a.slabs.length r.2 r.1
      = ({ a.scalars with members := a.members, sets := a.sets, volumes := a.volumes, slabs := a.slabs },
          (a.damage.map damageEntry).flatten) := by
  intro r₁ r₂ r₃
  obtain ⟨⟨wmembers, wsets, wvolumes, wslabs⟩, hmembers, hsets, hvolumes, hslabs, -⟩ := h
  let slabs := (a.slabs.map slabEntry).flatten ++ (a.damage.map damageEntry).flatten
  let volumes := (a.volumes.map volumeEntry).flatten ++ slabs
  let sets := (a.sets.map setEntryBytes).flatten ++ volumes
  have h₁ : r₁ = ({ a.scalars with members := a.members }, sets) := by
    show readMembers _ a.tableParts.flatten a.scalars = _
    rw [tableParts_flatten, List.append_assoc, List.append_assoc, List.append_assoc]
    exact readMembers_eq (pre := []) (a := a.scalars) wmembers hmembers
  have h₂ : r₂ = ({ a.scalars with members := a.members, sets := a.sets }, volumes) := by
    show readSets _ r₁.2 r₁.1 = _
    rw [h₁]
    exact readSets_eq (pre := []) (a := { a.scalars with members := a.members }) wsets hsets
  have h₃ : r₃ = ({ a.scalars with members := a.members, sets := a.sets, volumes := a.volumes }, slabs) := by
    show readVolumes _ r₂.2 r₂.1 = _
    rw [h₂]
    exact readVolumes_eq (pre := []) (a := { a.scalars with members := a.members, sets := a.sets }) wvolumes hvolumes
  rw [h₃]
  exact readSlabs_eq (pre := []) (a := { a.scalars with members := a.members, sets := a.sets, volumes := a.volumes }) wslabs hslabs

theorem readImage_imageParts {a : Account} (h : a.fitsImage) :
    readImage a.arrayId a.params a.bad a.lost a.imageCounts a.imageParts = a := by
  have htables := readTables h
  obtain ⟨-, -, -, -, -, ⟨hformed, hranges, hapart⟩, hgrowth⟩ := h
  obtain ⟨cm, cs, cv, cl, cd⟩ := imageCounts_tables a
  have hlen : a.imageParts.length - a.imageCounts.growth = a.tableParts.length := by
    rw [imageParts_eq, List.length_append, length_growthParts, Nat.add_sub_cancel]
  have htake : a.imageParts.take (a.imageParts.length - a.imageCounts.growth) = a.tableParts := by
    rw [hlen, imageParts_eq, List.take_left]
  have hdrop : a.imageParts.drop (a.imageParts.length - a.imageCounts.growth) = growthParts a.growth := by
    rw [hlen, imageParts_eq, List.drop_left]
  have hdamage := readDamage_eq hranges []
  rw [List.append_nil] at hdamage
  unfold readImage
  dsimp only at htables ⊢
  rw [htake, hdrop, cm, cs, cv, cl, cd, readGrowth_parts hgrowth]
  rw [Account.scalars] at htables
  rw [htables]
  dsimp only
  rw [hdamage, addAll_self hformed hapart]

end Sys2Proof.Machine
end

section
/-! PROOFS. The account that an image holds, with the BLOCK_RETIRE records of its interval (R163). -/

namespace Sys2Proof.Machine

theorem getLsbD_retired (w : BitVec 64) (n : Nat) {b : Nat} (hb : b < 64) :
    (w ||| (1#64 <<< n)).getLsbD b = true ↔ w.getLsbD b = true ∨ b = n := by
  rw [BitVec.getLsbD_or, Bool.or_eq_true, BitVec.getLsbD_shiftLeft, BitVec.getLsbD_one]
  simp only [Bool.and_eq_true, Bool.not_eq_true', decide_eq_true_iff, decide_eq_false_iff_not]
  refine or_congr_right ?_
  omega

/-- Retired blocks set their bits, and change nothing else. -/
theorem forEach_blockRetire {f : RecordBody → Account → Account}
    (hretire : ∀ n a, f (.blockRetire n) a = { a with bad := a.bad ||| (1#64 <<< n) })
    (hother : ∀ body a, (∀ n, body ≠ .blockRetire n) → f body a = a) (l : List RecordBody) (a : Account) :
    ∃ bad, forEach f l a = { a with bad := bad }
      ∧ ∀ b, b < 64 → (bad.getLsbD b = true ↔ a.bad.getLsbD b = true ∨ .blockRetire b ∈ l) := by
  induction l generalizing a with
  | nil => exact ⟨a.bad, rfl, fun b _ => (or_iff_left List.not_mem_nil).symm⟩
  | cons body rest ih =>
    obtain ⟨bad, hform, hbits⟩ := ih (f body a)
    by_cases h : ∃ n, body = .blockRetire n
    · obtain ⟨n, rfl⟩ := h
      refine ⟨bad, by rw [forEach, hform, hretire], fun b hb => ?_⟩
      have hbad : (f (.blockRetire n) a).bad = a.bad ||| (1#64 <<< n) := congrArg Account.bad (hretire n a)
      rw [hbits b hb, hbad, getLsbD_retired _ _ hb, List.mem_cons, RecordBody.blockRetire.injEq, or_assoc]
    · have hkept : f body a = a := hother body a fun n hn => h ⟨n, hn⟩
      rw [hkept] at hform hbits
      refine ⟨bad, by rw [forEach, hkept, hform], fun b hb => ?_⟩
      rw [hbits b hb, List.mem_cons, or_iff_right (a := RecordBody.blockRetire b = body) fun hn => h ⟨b, hn.symm⟩]

/-! ## The bad flags of an image read back -/

theorem readMembers_bad (n : Nat) (bytes : List Byte) (a : Account) : (readMembers n bytes a).1.bad = a.bad := by
  induction n generalizing bytes a with
  | zero => rfl
  | succ n ih => exact ih _ _

theorem readSets_bad (n : Nat) (bytes : List Byte) (a : Account) : (readSets n bytes a).1.bad = a.bad := by
  induction n generalizing bytes a with
  | zero => rfl
  | succ n ih => exact ih _ _

theorem readVolumes_bad (n : Nat) (bytes : List Byte) (a : Account) : (readVolumes n bytes a).1.bad = a.bad := by
  induction n generalizing bytes a with
  | zero => rfl
  | succ n ih => exact ih _ _

theorem readSlabs_bad (n : Nat) (bytes : List Byte) (a : Account) : (readSlabs n bytes a).1.bad = a.bad := by
  induction n generalizing bytes a with
  | zero => rfl
  | succ n ih => exact ih _ _

theorem readImage_bad (arrayId : BitVec 64) (params : Params) (bad : BitVec 64) (lost : Bool) (counts : ImageCounts)
    (parts : List (List Byte)) : (readImage arrayId params bad lost counts parts).bad = bad := by
  show (readSlabs _ _ _).1.bad = bad
  rw [readSlabs_bad, readVolumes_bad, readSets_bad, readMembers_bad]

theorem imageAccount_bad {f : FoundImage} {arrayId : BitVec 64} {params : Params} {bad : BitVec 64} {lost : Bool} {counts : ImageCounts}
    (h : f.start.body = .imageBegin arrayId params bad lost counts) :
    { imageAccount f with bad := bad } = readImage arrayId params bad lost counts (f.between.filterMap RecordBody.partBytes)
      ∧ ∀ b, b < 64 → ((imageAccount f).bad.getLsbD b = true ↔ bad.getLsbD b = true ∨ .blockRetire b ∈ f.between) := by
  let image := readImage arrayId params bad lost counts (f.between.filterMap RecordBody.partBytes)
  have hbad : image.bad = bad := readImage_bad ..
  have hform : ∃ w, imageAccount f = { image with bad := w }
      ∧ ∀ b, b < 64 → (w.getLsbD b = true ↔ image.bad.getLsbD b = true ∨ .blockRetire b ∈ f.between) := by
    unfold imageAccount
    rw [h]
    refine forEach_blockRetire (fun n a => rfl) (fun body a hb => ?_) f.between image
    split
    · next n => exact absurd rfl (hb n)
    · rfl
  obtain ⟨w, himage, hbits⟩ := hform
  rw [himage]
  refine ⟨?_, fun b hb => ?_⟩
  · show { image with bad := bad } = image
    rw [← hbad]
  · rw [← hbad]
    exact hbits b hb

end Sys2Proof.Machine
end

section
/-! PROOFS. The lasting state that the records define (R149). -/

namespace Sys2Proof.Machine

/-! ## The entries of a lasting state, written and read -/

theorem setMember_member_same (a : Account) (id : Nat) (m : Member) : (a.setMember id m).member id = m :=
  tableRead_tableWrite_same Member.absent a.members id m

theorem setMember_member_other (a : Account) {id k : Nat} (m : Member) (h : k ≠ id) : (a.setMember id m).member k = a.member k :=
  tableRead_tableWrite_other Member.absent a.members m h

/-- A record that writes one slab's entry alone. -/
theorem setSlab_alone {a t : Account} {g : Nat} {e : Slab} (h : t = a.setSlab g e) :
    t.slab g = e ∧ (∀ k, k ≠ g → t.slab k = a.slab k) ∧ { t with slabs := a.slabs } = a := by
  rw [h]
  exact ⟨tableRead_tableWrite_same Slab.unused a.slabs g e, fun k hk => tableRead_tableWrite_other Slab.unused a.slabs e hk, rfl⟩

/-- The members of some positions changed in turn. -/
theorem forEach_setMember (f : Position → Member → Member) {l : List Position} (hn : (l.map Position.member).Nodup) (a : Account) :
    ∃ members, forEach (fun (p : Position) a => a.setMember p.member (f p (a.member p.member))) l a = { a with members := members }
      ∧ (∀ p ∈ l, tableRead Member.absent members p.member = f p (a.member p.member))
      ∧ ∀ k, (∀ p ∈ l, p.member ≠ k) → tableRead Member.absent members k = a.member k := by
  induction l generalizing a with
  | nil => exact ⟨a.members, rfl, fun _ h => absurd h List.not_mem_nil, fun _ _ => rfl⟩
  | cons p rest ih =>
    obtain ⟨hp, hrest⟩ := List.nodup_cons.1 hn
    let b := a.setMember p.member (f p (a.member p.member))
    obtain ⟨members, hform, hin, hout⟩ := ih hrest b
    have hne : ∀ q ∈ rest, q.member ≠ p.member := fun q hq h => hp (List.mem_map.2 ⟨q, hq, h⟩)
    refine ⟨members, by rw [forEach, hform]; rfl, List.forall_mem_cons.2 ⟨?_, fun q hq => ?_⟩, fun k hk => ?_⟩
    · rw [hout p.member hne]
      exact setMember_member_same ..
    · rw [hin q hq]
      exact congrArg (f q) (setMember_member_other a _ (hne q hq))
    · rw [hout k fun q hq => hk q (List.mem_cons_of_mem _ hq)]
      exact setMember_member_other a _ (hk p List.mem_cons_self).symm

/-! ## Sets -/

theorem applyRecord_setDefine (q id unit bandLength : Nat) {positions : List Position} (a : Account)
    (hn : (positions.map Position.member).Nodup) :
    let t := applyRecord q (.setDefine id unit bandLength positions) a
    t.setDef id = some ⟨unit, bandLength, positions⟩ ∧ (∀ k, k ≠ id → t.setDef k = a.setDef k)
      ∧ (∀ p ∈ positions, t.member p.member = { a.member p.member with
          bands := (a.member p.member).bands ++ [⟨id, p.start⟩],
          state := if (a.member p.member).state = .available then .active else (a.member p.member).state })
      ∧ (∀ k, (∀ p ∈ positions, p.member ≠ k) → t.member k = a.member k) := by
  intro t
  let b : Account := { a with sets := tableWrite none a.sets id (some ⟨unit, bandLength, positions⟩) }
  obtain ⟨members, hform, hin, hout⟩ := forEach_setMember (fun p m => m.addBand ⟨id, p.start⟩) hn b
  have ht : t = { b with members := members } := hform
  rw [ht]
  exact ⟨tableRead_tableWrite_same none a.sets id (some ⟨unit, bandLength, positions⟩),
    fun k hk => tableRead_tableWrite_other none a.sets (some ⟨unit, bandLength, positions⟩) hk, hin, hout⟩

theorem applyRecord_setRetire (q : Nat) {id : Nat} {d : SetDef} {a : Account} (hd : a.setDef id = some d)
    (hn : (d.positions.map Position.member).Nodup) :
    let t := applyRecord q (.setRetire id) a
    t.setDef id = none ∧ (∀ k, k ≠ id → t.setDef k = a.setDef k)
      ∧ (∀ p ∈ d.positions, (t.member p.member).bands = (a.member p.member).bands.filter (fun b => b.set ≠ id))
      ∧ (∀ k, (∀ p ∈ d.positions, p.member ≠ k) → t.member k = a.member k) := by
  intro t
  let b : Account := { a with sets := tableWrite none a.sets id none }
  obtain ⟨members, hform, hin, hout⟩ := forEach_setMember (fun _ m => m.dropBand id) hn b
  have ht : t = { b with members := members } := by
    show applyRecord q (.setRetire id) a = _
    unfold applyRecord
    dsimp only
    rw [hd]
    exact hform
  rw [ht]
  exact ⟨tableRead_tableWrite_same none a.sets id none, fun k hk => tableRead_tableWrite_other none a.sets none hk,
    fun p hp => congrArg Member.bands (hin p hp), hout⟩

/-! ## A growth closed (R46) -/

theorem forEach_fillSlab (volume : Nat) (l : List Placement) (a : Account) :
    ∃ slabs, forEach (fillSlab volume) l a = { a with slabs := slabs }
      ∧ (∀ g, (∀ p ∈ l, p.slab ≠ g) → tableRead Slab.unused slabs g = a.slab g)
      ∧ ((l.map Placement.slab).Nodup → ∀ p ∈ l, tableRead Slab.unused slabs p.slab =
          { Slab.unused with state := .filling, volume := volume, home := p.place }) := by
  induction l generalizing a with
  | nil => exact ⟨a.slabs, rfl, fun _ _ => rfl, fun _ _ h => absurd h List.not_mem_nil⟩
  | cons p rest ih =>
    let e : Slab := { Slab.unused with state := .filling, volume := volume, home := p.place }
    obtain ⟨slabs, hform, hout, hin⟩ := ih (a.setSlab p.slab e)
    refine ⟨slabs, by rw [forEach, fillSlab, hform]; rfl, fun g hg => ?_, fun hn => ?_⟩
    · rw [hout g fun q hq => hg q (List.mem_cons_of_mem _ hq)]
      exact tableRead_tableWrite_other Slab.unused a.slabs e (hg p List.mem_cons_self).symm
    · obtain ⟨hp, hrest⟩ := List.nodup_cons.1 hn
      refine List.forall_mem_cons.2 ⟨?_, hin hrest⟩
      rw [hout p.slab fun q hq h => hp (List.mem_map.2 ⟨q, hq, h⟩)]
      exact tableRead_tableWrite_same Slab.unused a.slabs p.slab e

theorem applyRecord_growClose (q parts : Nat) {growth : OpenGrowth} {a : Account} (hg : a.growth = some growth) :
    let t := applyRecord q (.growClose parts) a
    t.growth = none
      ∧ (growth.parts.length ≠ parts → t = { a with growth := none })
      ∧ (growth.parts.length = parts → (growth.parts.flatten.map Placement.slab).Nodup →
          (∀ p ∈ growth.parts.flatten, t.slab p.slab =
              { state := .filling, volume := growth.volume, home := p.place, target := none, front := 0,
                persisted := 0, mark := false, salvage := false })
            ∧ (∀ g, (∀ p ∈ growth.parts.flatten, p.slab ≠ g) → t.slab g = a.slab g)
            ∧ t.volumes = tableWrite Volume.unused a.volumes growth.volume
                { a.volume growth.volume with count := growth.new, pool := growth.pool }) := by
  intro t
  obtain ⟨slabs, hform, hout, hin⟩ := forEach_fillSlab growth.volume growth.parts.flatten { a with growth := none }
  by_cases hparts : growth.parts.length = parts
  · have ht : t = { a with
        growth := none, slabs := slabs
        volumes := tableWrite Volume.unused a.volumes growth.volume
          { a.volume growth.volume with count := growth.new, pool := growth.pool } } := by
      show closeGrowth parts a = _
      unfold closeGrowth
      rw [hg]
      dsimp only
      rw [if_pos hparts, hform]
      rfl
    rw [ht]
    exact ⟨rfl, fun h => absurd hparts h, fun _ hn => ⟨hin hn, hout, rfl⟩⟩
  · have ht : t = { a with growth := none } := by
      show closeGrowth parts a = _
      unfold closeGrowth
      rw [hg]
      exact if_neg hparts
    rw [ht]
    exact ⟨rfl, fun _ => rfl, fun h => absurd h hparts⟩

/-! ## Every kind of record -/

theorem applyRecord_member (q id capacity : Nat) (formatOk : Bool) (k : Nat) (a : Account) :
    (applyRecord q (.member id (.admission capacity formatOk)) a).member id =
        { a.member id with state := .available, capacity := capacity, formatOk := formatOk, labelSeq := some q }
      ∧ (applyRecord q (.member id .available) a).member id = { a.member id with state := .available }
      ∧ (applyRecord q (.member id .active) a).member id = { a.member id with state := .active }
      ∧ (applyRecord q (.member id .failed) a).member id = { a.member id with state := .failed }
      ∧ (applyRecord q (.member id .unadmitted) a).member id = Member.absent
      ∧ (k ≠ id → ∀ cond, (applyRecord q (.member id cond) a).member k = a.member k) :=
  ⟨setMember_member_same .., setMember_member_same .., setMember_member_same .., setMember_member_same .., setMember_member_same ..,
    fun hk cond => setMember_member_other a (memberAfter q (a.member id) cond) hk⟩

theorem applyRecord_jobEnd_move (q : Nat) {g : Nat} {target : Place} {a : Account} (h : (a.slab g).target = some target) :
    applyRecord q (.jobEnd g .move) a = a.setSlab g
      { a.slab g with state := .live, home := target, target := none, front := 0, persisted := 0, salvage := false } := by
  have hform : applyRecord q (.jobEnd g .move) a = a.setSlab g { a.slab g with
      state := .live, home := (a.slab g).target.getD (a.slab g).home, target := none, front := 0, persisted := 0, salvage := false } := rfl
  rw [hform, h]
  rfl

theorem applyRecord_growPart (q : Nat) (placements : List Placement) {growth : OpenGrowth} {a : Account} (h : a.growth = some growth) :
    applyRecord q (.growPart placements) a = { a with growth := some { growth with parts := growth.parts ++ [placements] } } := by
  unfold applyRecord
  dsimp only
  rw [h]

theorem applyRecord_damageClear (q volume first count : Nat) {a : Account}
    (h : damageSplits volume first count a.damage = false ∨ a.damage.length < 1024) :
    (applyRecord q (.damageClear volume first count) a).damage = damageRemove volume first count a.damage := by
  have hfits : ¬(damageSplits volume first count a.damage && decide (Config.maxDamage ≤ a.damage.length)) = true := by
    rw [Bool.and_eq_true, decide_eq_true_iff]
    rintro ⟨hsplits, hfull⟩
    rcases h with h | h
    · rw [h] at hsplits
      exact Bool.false_ne_true hsplits
    · exact Nat.not_le.2 h hfull
  show (if damageSplits volume first count a.damage && decide (Config.maxDamage ≤ a.damage.length) then a
    else a.withDamage (damageRemove volume first count a.damage) 0).damage = _
  rw [if_neg hfits]
  rfl

end Sys2Proof.Machine
end

section
/-! PROOFS. The scan of a store that holds one image and one record after it (R147, R154, R163). -/

namespace Sys2Proof.Machine

/-! ## What the load and the ring leave unchanged -/

theorem writeSlot_tables (p : Place) (v : Slot) (s : State) :
    ∃ slots sets, s.writeSlot p v = { s with pm := { s.pm with slots := slots, sets := sets } } := by
  unfold State.writeSlot
  dsimp only
  split
  · exact ⟨_, _, rfl⟩
  · split
    · exact ⟨_, _, rfl⟩
    · exact ⟨_, s.pm.sets, rfl⟩

theorem forEach_loadSet_frame (l : List (Nat × Option SetDef)) (s : State) :
    ∃ sets, forEach loadSet l s = { s with pm := { s.pm with sets := sets } } := by
  induction l generalizing s with
  | nil => exact ⟨s.pm.sets, rfl⟩
  | cons e rest ih =>
    obtain ⟨key, o⟩ := e
    cases o with
    | none => exact ih s
    | some d =>
      obtain ⟨sets, h⟩ := ih (s.setSet key (s.loadedSet d))
      exact ⟨sets, by rw [forEach, loadSet_some, h]; rfl⟩

theorem forEach_take_frame (l : List Taken) (s : State) :
    ∃ slots sets, forEach State.take l s = { s with pm := { s.pm with slots := slots, sets := sets } } := by
  induction l generalizing s with
  | nil => exact ⟨s.pm.slots, s.pm.sets, rfl⟩
  | cons x rest ih =>
    obtain ⟨slots₁, sets₁, h₁⟩ := writeSlot_tables x.1 ⟨x.2.1, 0, some x.2.2, none⟩ s
    obtain ⟨slots, sets, h⟩ := ih (s.take x)
    refine ⟨slots, sets, ?_⟩
    rw [forEach, h, show s.take x = _ from h₁]

theorem forEach_setSlab_frame (l : List (Nat × Slab)) (s : State) :
    ∃ slabs, forEach (fun (e : Nat × Slab) s => s.setSlab e.1 e.2.loaded) l s = { s with pm := { s.pm with slabs := slabs } } := by
  induction l generalizing s with
  | nil => exact ⟨s.pm.slabs, rfl⟩
  | cons e rest ih =>
    obtain ⟨slabs, h⟩ := ih (s.setSlab e.1 e.2.loaded)
    exact ⟨slabs, h⟩

theorem forEach_loadVolume_frame (l : List (Nat × Volume)) (s : State) :
    ∃ volumes, forEach loadVolume l s = { s with pm := { s.pm with volumes := volumes } } := by
  induction l generalizing s with
  | nil => exact ⟨s.pm.volumes, rfl⟩
  | cons e rest ih =>
    obtain ⟨volumes, h⟩ := ih (loadVolume e s)
    exact ⟨volumes, by rw [forEach, h]; rfl⟩

/-- Whatever stood in the tables, the load changes the Placement Map, the parameters and the Damage List alone. -/
theorem loadAccount_frame (a : Account) (s : State) :
    ∃ sets slots slabs volumes, loadAccount a s = s.withAccount a sets slots slabs volumes := by
  let s₁ := (loadParams a.params s).onPm (fun m => { m with arrayId := a.arrayId, members := a.members })
  obtain ⟨sets₀, h₁⟩ := forEach_loadSet_frame a.sets s₁
  obtain ⟨slabs, h₂⟩ := forEach_setSlab_frame a.slabs { s₁ with pm := { s₁.pm with sets := sets₀ } }
  obtain ⟨slots, sets, h₃⟩ := forEach_take_frame (a.slabs.flatMap slabTakes) { s₁ with pm := { s₁.pm with sets := sets₀, slabs := slabs } }
  obtain ⟨volumes, h₄⟩ := forEach_loadVolume_frame a.volumes { s₁ with pm := { s₁.pm with sets := sets, slabs := slabs, slots := slots } }
  refine ⟨sets, slots, slabs, volumes, ?_⟩
  have hall : forEach loadVolume a.volumes (forEach loadSlab a.slabs (forEach loadSet a.sets s₁))
      = { s₁ with pm := { s₁.pm with sets := sets, slots := slots, slabs := slabs, volumes := volumes } } := by
    rw [h₁, forEach_loadSlab, h₂, h₃, h₄]
  rw [loadAccount_withAccount, hall]
  exact withTables_withAccount a s sets slots slabs volumes

theorem moveHead_frame (h b : Nat) (s : State) :
    ∃ blocks, moveHead h b s = { s with jc := { s.jc with blocks := blocks, head := some b, nextPage := 0 } } := by
  unfold moveHead
  split
  · exact ⟨_, rfl⟩
  · exact ⟨_, rfl⟩

theorem moveSpentHead_frame (s : State) :
    ∃ blocks head page, moveSpentHead s = { s with jc := { s.jc with blocks := blocks, head := head, nextPage := page } } := by
  have hself : ∃ blocks head page, s = { s with jc := { s.jc with blocks := blocks, head := head, nextPage := page } } :=
    ⟨s.jc.blocks, s.jc.head, s.jc.nextPage, rfl⟩
  unfold moveSpentHead
  split
  · exact hself
  · next h _ =>
    split
    · split
      · exact hself
      · next b _ =>
        split
        · obtain ⟨blocks, hform⟩ := moveHead_frame h b s
          exact ⟨blocks, some b, 0, hform⟩
        · exact hself
    · exact hself

/-! ## The pages -/

theorem pageErased_of_valid {bytes : List Byte} {seq : Nat} {body : RecordBody} (h : judgePage bytes = .valid seq body) :
    pageErased bytes = false := by
  cases he : pageErased bytes with
  | false => rfl
  | true =>
    unfold judgePage at h
    rw [if_pos he] at h
    cases h

section
variable {p0 p1 p2 : List Byte} {arrayId : BitVec 64} {params : Params} {bad : BitVec 64} {lost : Bool} {body : RecordBody}
  (h0 : judgePage p0 = .valid 1 (.imageBegin arrayId params bad lost ⟨0, 0, 0, 0, 0, 0⟩))
  (h1 : judgePage p1 = .valid 2 (.imageEnd 1 0)) (h2 : judgePage p2 = .valid 3 body)

/-- The valid pages of such a store. -/
def threePages (arrayId : BitVec 64) (params : Params) (bad : BitVec 64) (lost : Bool) (body : RecordBody) : List ValidPage :=
  [⟨0, 1, .imageBegin arrayId params bad lost ⟨0, 0, 0, 0, 0, 0⟩⟩, ⟨1, 2, .imageEnd 1 0⟩, ⟨2, 3, body⟩]

/-- Its image, which has no parts. -/
def emptyImage (arrayId : BitVec 64) (params : Params) (bad : BitVec 64) (lost : Bool) : FoundImage :=
  ⟨⟨0, 1, .imageBegin arrayId params bad lost ⟨0, 0, 0, 0, 0, 0⟩⟩, 2, []⟩

include h0 h1 h2 in
theorem distinctPages_three : distinctPages (validPages [(0, p0), (1, p1), (2, p2)]) = threePages arrayId params bad lost body := by
  have hvalid : validPages [(0, p0), (1, p1), (2, p2)] = threePages arrayId params bad lost body := by
    simp only [validPages, h0, h1, h2, threePages]
  rw [hvalid]
  rfl

theorem newestImage_three (hb : ∀ first parts, body ≠ .imageEnd first parts) :
    newestImage (threePages arrayId params bad lost body) = some (emptyImage arrayId params bad lost) := by
  let vs := threePages arrayId params bad lost body
  have hbegin : imageOf vs ⟨0, 1, .imageBegin arrayId params bad lost ⟨0, 0, 0, 0, 0, 0⟩⟩ = none := imageOf_none nofun
  have hend : imageOf vs ⟨1, 2, .imageEnd 1 0⟩ = some (emptyImage arrayId params bad lost) := rfl
  have hlast : imageOf vs ⟨2, 3, body⟩ = none := imageOf_none hb
  have hfilter : vs.filterMap (imageOf vs) = [emptyImage arrayId params bad lost] := by
    show List.filterMap (imageOf vs) [_, _, _] = _
    rw [List.filterMap_cons_none hbegin, List.filterMap_cons_some hend, List.filterMap_cons_none hlast, List.filterMap_nil]
  unfold newestImage
  rw [hfilter]
  rfl

theorem newestPage_three : newestPage (threePages arrayId params bad lost body) = some ⟨2, 3, body⟩ := rfl

theorem replay_three : replay (threePages arrayId params bad lost body) 3 3 (imageAccount (emptyImage arrayId params bad lost))
    = (applyRecord 3 body { Account.fresh with arrayId := arrayId, params := params, bad := bad, lost := lost }, 4) := rfl

end

end Sys2Proof.Machine
end

section
/-! PROOFS. A scan with its restart: the part BLANK, and the part with its lasting state (R147, R149, R154, R163). -/

namespace Sys2Proof.Machine

/-! ## A scan that ends BLANK -/

theorem exec_journalScan_blank {s : State} (hs : s.quiet) {start : Nat} (hop : s.jc.op = some (.scan start))
    {pages : List (Nat × List Byte)} (h : newestImage (distinctPages (validPages pages)) = none) :
    exec (.journalScan pages) s = .next (State.offerNotice (.partState (.blank none)) { s with part := .blank none }.roundBegun) := by
  rw [exec_journalScan hop, scanEnded_blank s h, becomeBlank_concludes hs none rfl rfl rfl rfl]
  rfl

theorem exec_storeOpTimeout_scan {s : State} (hs : s.quiet) {start : Nat} (hop : s.jc.op = some (.scan start))
    (hdue : start + 50000 ≤ s.clock.now) :
    exec .storeOpTimeout s = .next (State.offerNotice (.partState (.blank (some .storeFault)))
      (State.offerFault (FaultOffer.bare .storeTimeout) { s with part := .blank (some .storeFault) }).roundBegun) := by
  have hfault := offerFault_of_mp (s := s) (t := s) (FaultOffer.bare .storeTimeout) rfl
  have hpart := offerFault_of_mp (s := s) (t := { s with part := .blank (some .storeFault) }) (FaultOffer.bare .storeTimeout) rfl
  rw [execStoreOpTimeout_due hop hdue]
  show conclude s (becomeBlank (some .storeFault) (s.offerFault (FaultOffer.bare .storeTimeout))) = _
  rw [hfault, hpart]
  exact becomeBlank_concludes (t := { s with mp := (s.offerFault (FaultOffer.bare .storeTimeout)).mp }) hs (some .storeFault) rfl rfl rfl rfl

/-! ## A scan of an image and one record -/

section
variable {s : State} (hs : s.quiet) {start : Nat} (hop : s.jc.op = some (.scan start))
  {p0 p1 p2 : List Byte} {arrayId : BitVec 64} {params : Params} {bad : BitVec 64} {lost : Bool} {body : RecordBody}
  (h0 : judgePage p0 = .valid 1 (.imageBegin arrayId params bad lost ⟨0, 0, 0, 0, 0, 0⟩))
  (h1 : judgePage p1 = .valid 2 (.imageEnd 1 0)) (h2 : judgePage p2 = .valid 3 body)
  (hb : ∀ first parts, body ≠ .imageEnd first parts)

/-- The state that a scan of such a store leaves, the tables of the account and the ring given. -/
def State.scanned (s : State) (a : Account) (sets : List (Nat × SetEntry)) (slots : List (Nat × Slot)) (slabs : List (Nat × Slab))
    (volumes : List (Nat × Volume)) (blocks : List (Nat × StoreBlock)) (head : Option Nat) (page : Nat) : State :=
  let t := s.withAccount a sets slots slabs volumes
  { t with jc := { t.jc with
    blocks := blocks, head := head, nextPage := page, nextSeq := 4, durable := a, newestImage := some (1, 0) } }.roundBegun

include hs hop h0 h1 h2 hb in
theorem exec_journalScan_three :
    let a := applyRecord 3 body { Account.fresh with arrayId := arrayId, params := params, bad := bad, lost := lost }
    let pages := [(0, p0), (1, p1), (2, p2)]
    ∃ sets slots slabs volumes blocks head page,
      exec (.journalScan pages) s = .next (s.scanned a sets slots slabs volumes blocks head page)
        ∧ (a.bad.getLsbD 0 = false → head = some 0 ∧ page = 3
            ∧ ∀ b, b < 64 → tableRead StoreBlock.written blocks b = ⟨scannedCondition pages a.bad 0 0 b, 0⟩) := by
  intro a pages
  obtain ⟨sets, slots, slabs, volumes, hload⟩ := loadAccount_frame a s
  let u := s.withAccount a sets slots slabs volumes
  let f := emptyImage arrayId params bad lost
  have hpages := distinctPages_three h0 h1 h2
  have hended : scanEnded pages s = firstRound (setRing pages a f 4 0 u) := by
    have himage := scanEnded_image (pages := pages) s (by rw [hpages]; exact newestImage_three hb) (by rw [hpages]; exact newestPage_three)
    dsimp only at himage
    rw [hpages] at himage
    refine himage.trans ?_
    show firstRound (setRing pages (replay _ 3 3 _).1 f (replay _ 3 3 _).2 0 (loadAccount (replay _ 3 3 _).1 s)) = _
    rw [replay_three]
    exact congrArg (fun t => firstRound (setRing pages a f 4 0 t)) hload
  have hzero : f.start.page / 256 = 0 := Nat.zero_div 256
  have hfound (page : Nat) (blocks : List (Nat × StoreBlock)) : u.ringFound a f 4 0 page blocks = { u with jc := { u.jc with
      blocks := blocks, head := some 0, nextPage := page, nextSeq := 4, durable := a, newestImage := some (1, 0) } } := by
    unfold State.ringFound
    rw [hzero]
    rfl
  have hring : ∃ blocks head page, setRing pages a f 4 0 u = { u with jc := { u.jc with
        blocks := blocks, head := head, nextPage := page, nextSeq := 4, durable := a, newestImage := some (1, 0) } }
      ∧ (a.bad.getLsbD 0 = false → head = some 0 ∧ page = 3
          ∧ ∀ b, b < 64 → tableRead StoreBlock.written blocks b = ⟨scannedCondition pages a.bad 0 0 b, 0⟩) := by
    by_cases hbad : a.bad.getLsbD 0 = false
    · obtain ⟨hstay, -⟩ := setRing_ring (pages := pages) (f := f) (next := 4) (last := 2) (s := u) (Nat.zero_lt_succ 63) hbad
        ⟨(2, p2), List.mem_cons_of_mem _ (List.mem_cons_of_mem _ List.mem_cons_self), rfl, by decide, pageErased_of_valid h2⟩
        (fun p hp _ _ => by
          simp only [pages, List.mem_cons, List.not_mem_nil, or_false] at hp
          rcases hp with rfl | rfl | rfl
          · exact Nat.zero_le 2
          · exact Nat.le_succ 1
          · exact Nat.le_refl 2)
      obtain ⟨hform, hconds⟩ := hstay fun b h => absurd h.1 (by decide)
      rw [hzero] at hconds
      exact ⟨(setRing pages a f 4 0 u).jc.blocks, some 0, 3, hform.trans (hfound ..), fun _ => ⟨rfl, rfl, hconds⟩⟩
    · obtain ⟨blocks₀, hset, -⟩ := setRing_eq pages a f 4 0 u
      obtain ⟨blocks, head, page, hmove⟩ := moveSpentHead_frame (u.ringFound a f 4 0 ((writtenPages pages 0).foldl max 0 + 1) blocks₀)
      rw [hfound] at hmove hset
      exact ⟨blocks, head, page, hset.trans hmove, fun h => absurd h hbad⟩
  obtain ⟨blocks, head, page, hform, hconds⟩ := hring
  refine ⟨sets, slots, slabs, volumes, blocks, head, page, ?_, hconds⟩
  rw [exec_journalScan hop, hended, hform]
  exact next_finish rfl hs rfl rfl rfl

end

end Sys2Proof.Machine
end

section
/-! PROOFS. The start-up's scan of the map store (R147, R149, R154, R156, R163). -/

namespace Sys2Proof.Machine

theorem scannedCondition_headBlock {pages : List (Nat × List Byte)} {bad : BitVec 64} {head : Nat} (image : Nat)
    (h : bad.getLsbD head = false) : scannedCondition pages bad head image head = .head := by
  rw [scannedCondition_eq, if_neg (by rw [h]; exact Bool.false_ne_true), if_pos rfl]

/-- Beside the head, a block of which no page was written is ERASED. -/
theorem scannedCondition_unwritten {pages : List (Nat × List Byte)} {bad : BitVec 64} {head image b : Nat} (hb : b ≠ head)
    (hp : ∀ p ∈ pages, p.1 / 256 ≠ b) :
    scannedCondition pages bad head image b = if bad.getLsbD b = true then .bad else .erased := by
  have hall : pages.all (fun p => decide (p.1 / 256 ≠ b) || pageErased p.2) = true :=
    List.all_eq_true.2 fun p hpm => by rw [decide_eq_true (hp p hpm), Bool.true_or]
  rw [scannedCondition_eq, if_neg hb, if_pos hall]

/-! ## No record changes the array's id -/

theorem forEach_arrayId {α : Type} {f : α → Account → Account} (hf : ∀ x a, (f x a).arrayId = a.arrayId) (l : List α) (a : Account) :
    (forEach f l a).arrayId = a.arrayId := by
  induction l generalizing a with
  | nil => rfl
  | cons x rest ih => rw [forEach, ih, hf]

theorem closeGrowth_arrayId (parts : Nat) (a : Account) : (closeGrowth parts a).arrayId = a.arrayId := by
  unfold closeGrowth
  split
  · rfl
  · split
    · next g _ _ => exact forEach_arrayId (f := fillSlab g.volume) (fun p a => rfl) g.parts.flatten { a with growth := none }
    · rfl

theorem applyRecord_arrayId (q : Nat) (body : RecordBody) (a : Account) : (applyRecord q body a).arrayId = a.arrayId := by
  cases body with
  | setDefine id unit bandLength positions =>
    exact forEach_arrayId (f := fun (p : Position) a => a.setMember p.member ((a.member p.member).addBand ⟨id, p.start⟩))
      (fun p a => rfl) positions _
  | setRetire id =>
    unfold applyRecord
    dsimp only
    split
    · rfl
    · next d _ =>
      exact forEach_arrayId (f := fun (p : Position) a => a.setMember p.member ((a.member p.member).dropBand id))
        (fun p a => rfl) d.positions _
  | growPart placements =>
    unfold applyRecord
    dsimp only
    split <;> rfl
  | growClose parts => exact closeGrowth_arrayId parts a
  | jobEnd slab kind => cases kind <;> rfl
  | damageClear volume first count =>
    unfold applyRecord
    dsimp only
    split <;> rfl
  | imageBegin | imagePart | imageEnd | param | member | volumeCreate | growOpen | replace | jobBegin | front | jobAbort
    | damageAdd | blockRetire => rfl

section
variable {s : State} (hs : s.quiet) {start : Nat} (hop : s.jc.op = some (.scan start))
  {pages : List (Nat × List Byte)} {p0 p1 p2 : List Byte} (hp : pages = [(0, p0), (1, p1), (2, p2)])
  {arrayId : BitVec 64} {params : Params} {bad : BitVec 64} {lost : Bool}
  (h0 : judgePage p0 = .valid 1 (.imageBegin arrayId params bad lost ⟨0, 0, 0, 0, 0, 0⟩))
  (h1 : judgePage p1 = .valid 2 (.imageEnd 1 0))
include hs hop hp h0 h1

/-- An image without entries and a PARAM record after it. -/
theorem exec_journalScan_param {v : Nat} (h2 : judgePage p2 = .valid 3 (.param .holdLife v)) (hbad : bad.getLsbD 0 = false) :
    ∃ t : State, exec (.journalScan pages) s = .next t
      ∧ t.part = s.part ∧ t.stage = .firstRound
      ∧ t.pm.arrayId = arrayId ∧ t.pm.slabSize = params.slabSize
      ∧ t.gu.holdLife = v ∧ t.dp.driveTmo = params.driveTmo ∧ t.sm.pollPeriod = params.pollPeriod
      ∧ t.me.backoffBits = params.backoffBits ∧ t.me.lockAfter = params.lockAfter
      ∧ t.me.ckptRows = params.ckptRows ∧ t.me.moveRate = params.moveRate
      ∧ t.me.damage = [] ∧ t.pm.members = []
      ∧ t.jc.nextSeq = 4 ∧ t.jc.head = some 0 ∧ t.jc.nextPage = 3 ∧ t.jc.op = none
      ∧ t.jc.newestImage = some (1, 0)
      ∧ (t.storeBlock 0).cond = .head
      ∧ (∀ b, 0 < b → b < 64 → (t.storeBlock b).cond = if bad.getLsbD b = true then .bad else .erased)
      ∧ t.dp.flush = .waiting 1 s.clock.now ∧ t.sm.transaction = some (0, s.clock.now)
      ∧ t.mp = s.mp := by
  obtain ⟨sets, slots, slabs, volumes, blocks, head, page, hexec, hring⟩ := exec_journalScan_three hs hop h0 h1 h2 nofun
  obtain ⟨hhead, hpage, hread⟩ := hring hbad
  refine ⟨s.scanned _ sets slots slabs volumes blocks head page, by rw [hp]; exact hexec, rfl, rfl, rfl, rfl, rfl, rfl, rfl, rfl, rfl, rfl, rfl, rfl, rfl, rfl, hhead, hpage, rfl, rfl,
    ?_, fun b hpos hlt => ?_, rfl, rfl, rfl⟩
  · exact (congrArg StoreBlock.cond (hread 0 (Nat.zero_lt_succ 63))).trans (scannedCondition_headBlock 0 hbad)
  · refine (congrArg StoreBlock.cond (hread b hlt)).trans (scannedCondition_unwritten (Nat.ne_of_gt hpos) fun p hpm => ?_)
    have hblock : p.1 / 256 = 0 := by
      simp only [List.mem_cons, List.not_mem_nil, or_false] at hpm
      rcases hpm with rfl | rfl | rfl <;> exact Nat.div_eq_of_lt (Nat.le_of_ble_eq_true rfl)
    omega

/-- An image without entries and any record after it. -/
theorem exec_journalScan_record {body : RecordBody} (h2 : judgePage p2 = .valid 3 body) (hb : ∀ first parts, body ≠ .imageEnd first parts) :
    let a := applyRecord 3 body { Account.fresh with arrayId := arrayId, params := params, bad := bad, lost := lost }
    ∃ t : State, exec (.journalScan pages) s = .next t
      ∧ t.part = s.part ∧ t.stage = .firstRound ∧ t.jc.durable = a ∧ t.jc.nextSeq = 4
      ∧ t.jc.newestImage = some (1, 0) ∧ t.jc.op = none
      ∧ t.pm.arrayId = arrayId ∧ t.pm.slabSize = a.params.slabSize ∧ t.pm.members = a.members
      ∧ t.gu.holdLife = a.params.holdLife ∧ t.dp.driveTmo = a.params.driveTmo
      ∧ t.sm.pollPeriod = a.params.pollPeriod ∧ t.me.backoffBits = a.params.backoffBits
      ∧ t.me.lockAfter = a.params.lockAfter ∧ t.me.ckptRows = a.params.ckptRows
      ∧ t.me.moveRate = a.params.moveRate ∧ t.me.damage = a.damage ∧ t.me.lost = a.lost
      ∧ t.dp.flush = .waiting 1 s.clock.now ∧ t.sm.transaction = some (0, s.clock.now) ∧ t.mp = s.mp := by
  intro a
  obtain ⟨sets, slots, slabs, volumes, blocks, head, page, hexec, -⟩ := exec_journalScan_three hs hop h0 h1 h2 hb
  have hid : a.arrayId = arrayId := applyRecord_arrayId ..
  exact ⟨s.scanned a sets slots slabs volumes blocks head page, by rw [hp]; exact hexec, rfl, rfl, rfl, rfl, rfl, rfl, hid, rfl, rfl, rfl, rfl, rfl, rfl, rfl, rfl, rfl, rfl, rfl, rfl,
    rfl, rfl⟩

end

end Sys2Proof.Machine
end

section
/-! PROOFS. The settling of the scan's obligation (R147, R149, R154, R156, R163). -/

namespace Sys2Proof.Machine

theorem newestImage_noEnd {pages : List (Nat × List Byte)}
    (h : ∀ v ∈ validPages pages, ∀ first parts, v.body ≠ .imageEnd first parts) :
    newestImage (distinctPages (validPages pages)) = none :=
  newestImage_none fun v hv => imageOf_none (h v (mem_distinctPages hv))

theorem exec_journalScan_image {s : State} {start : Nat} (hop : s.jc.op = some (.scan start)) {pages : List (Nat × List Byte)}
    {image : FoundImage} {newest : ValidPage} (h : newestImage (distinctPages (validPages pages)) = some image)
    (hn : newestPage (distinctPages (validPages pages)) = some newest) :
    let vs := distinctPages (validPages pages)
    let replayed := replay vs vs.length (image.endSeq + 1) (imageAccount image)
    exec (.journalScan pages) s = .next (finish s (firstRound
      (setRing pages replayed.1 image replayed.2 (newest.page / 256) (loadAccount replayed.1 s)))) := by
  intro vs replayed
  rw [exec_journalScan hop, scanEnded_image s h hn]
  rfl

/-- Settles O55: each clause by the lemma about the function that it speaks of: the pages and the images, the replay, the image read
back, the load, the ring, and the records one by one. -/
theorem journalScanned : Obligations.JournalScanned := by
  unfold Obligations.JournalScanned
  refine ⟨fun s pages hs => ?_, fun s pages start hs hop => ?_, imageOf_iff, fun vs image h => newestImage_some h,
    fun vs k n seq a body h hstop hn => replay_eq h hstop hn, fun a h => readImage_imageParts h,
    fun f arrayId params bad lost counts h => imageAccount_bad h,
    fun a s hsets hslots hslabs hvolumes wsets wslabs wvolumes =>
      loadAccount_loads hsets hslots hslabs hvolumes wsets wslabs wvolumes,
    fun pages a f next head last s hlt hbad hlast hall => ?_, fun a q => ?_⟩
  · intro begun
    refine ⟨fun h => exec_journalScan_none h pages, fun start hop => ⟨fun h => ?_, fun hdue => ?_, fun hearly => ?_,
      fun p0 p1 p2 arrayId params bad lost v hp h0 h1 h2 hbad => exec_journalScan_param hs hop hp h0 h1 h2 hbad⟩⟩
    · exact exec_journalScan_blank hs hop (newestImage_noEnd h)
    · refine (exec_storeOpTimeout_scan hs hop hdue).trans ?_
      rw [offerFault_of_mp (s := s) (t := { s with part := .blank (some .storeFault) }) (FaultOffer.bare .storeTimeout) rfl]
      rfl
    · exact execStoreOpTimeout_early hop hearly
  · intro vs
    exact ⟨fun h => exec_journalScan_blank hs hop (newestImage_none h),
      fun image newest himage hnewest => exec_journalScan_image hop himage hnewest,
      fun p0 p1 p2 arrayId params bad lost body hp h0 h1 h2 hb => exec_journalScan_record hs hop hp h0 h1 h2 hb⟩
  · have hring := setRing_ring (f := f) (next := next) (s := s) hlt hbad hlast hall
    simp only [scannedCondition_eq] at hring
    exact hring
  · intro after slabAfter
    refine ⟨fun p v => rfl, fun id capacity formatOk k => applyRecord_member q id capacity formatOk k a,
      fun id unit bandLength positions hn => applyRecord_setDefine q id unit bandLength a hn,
      fun id d hd hn => applyRecord_setRetire q hd hn, fun id base limit pool => rfl, fun volume old new pool => rfl,
      fun growth placements hg => ?_, fun growth parts hg => applyRecord_growClose q parts hg,
      fun g place target salvage value => ⟨setSlab_alone rfl, setSlab_alone rfl, setSlab_alone rfl, setSlab_alone rfl,
        fun h => setSlab_alone (applyRecord_jobEnd_move q h), setSlab_alone rfl⟩,
      fun d => rfl, fun volume first count h => applyRecord_damageClear q volume first count h,
      fun block i _ hi => getLsbD_retired a.bad block hi⟩
    exact applyRecord_growPart q placements hg

end Sys2Proof.Machine
end
